-- ==== Sys2Proof/Word.lean ====
section
/-! DEFINITION. The word types of the model and the names of the tray's fixed index ranges.

The tray is a block: registers, descriptors and cells are bit vectors because the manual numbers their
bits; instance numbers are `Fin`; ticks of a die are 64-bit counters (R35). -/

namespace Sys2Proof

/-- One byte of memory. -/
abbrev Byte := BitVec 8

/-- A 16-bit field or a code (R12). -/
abbrev Half := BitVec 16

/-- A 32-bit field: a Beacon cell, a ZCG word. -/
abbrev Word32 := BitVec 32

/-- A 64-bit register, a DVA with room to spare, a TICK value. -/
abbrev Word := BitVec 64

/-- The four ZD dies (R22). -/
abbrev DieId := Fin 4

/-- The sixteen partitions P0 to P15 (R318). -/
abbrev PartId := Fin 16

/-- Tray-wide SC index, 16 x die + n (R25). -/
abbrev ScId := Fin 64

/-- Tray-wide TE index, 4 x die + n (R25). -/
abbrev TeId := Fin 16

/-- Tray-wide MS index, 8 x die + n (R25). -/
abbrev MsId := Fin 32

/-- Tray-wide HC index, 4 x die + n (R25). -/
abbrev HcId := Fin 16

/-- Tray-wide SP index, 2 x die + n (chapter Detector Stream Ports). -/
abbrev SpId := Fin 8

/-- Tray-wide core index, 8 x SC + core number (R175). -/
abbrev CoreId := Fin 512

/-- A node identifier: die, row, column (R5). -/
abbrev NodeId := BitVec 8

/-- Unit number of RAS_UNITSTAT on its die, 0 to 34 (R516). -/
abbrev UnitNo := Fin 35

/-- An integer register number of a core. -/
abbrev RegNo := Fin 32

end Sys2Proof
end

