-- ==== Sys2Proof/Syntax.lean ====
section
/-! DEFINITION. The commands of the tray: one constructor of `Instr` per row of spec/opcode_table.json,
in the table's order, with the operands a driver of the block gives. The table lists no operand fields, so
the operands are the model's own: they name the unit that takes the step and carry what comes from outside
the tray (frames, host data, noise bits, training outcomes). -/

namespace Sys2Proof

/-- A host function: port and function number, 0 the PF and 1 to 15 the VFs (R443). -/
structure FuncRef where
  port : Fin 4
  func : Fin 16
deriving DecidableEq, Repr

/-- The ports of a router: local, four mesh outputs, home port of the Beacon unit, Sundya transmit (R334). -/
inductive Port where
  | l | n | e | s | w | h | sx
deriving DecidableEq, Repr

/-- What the check bits of a flit show at the router that sends it (R315): no error, a corrected one, or a data word with an uncorrectable
error. -/
inductive FlitErr where
  | clean | corrected | dataUe
deriving DecidableEq, Repr

/-- A router cycle of a tick in which a port sends (R294), and what the check of the first flit it sends shows (R315). -/
structure SendCycle where
  cycle : Fin 8
  err : FlitErr
deriving DecidableEq, Repr

/-- The unacknowledged flit number `index`, counted from the oldest, on its way to a die (R356). -/
structure FlitTo where
  die : DieId
  index : Nat
deriving DecidableEq, Repr

/-- How a core's wait ends without its answer (R184): by ZWAITLIM, or by the interrupt of a cause. -/
structure WaitEnd where
  core : CoreId
  irq : Option (Fin 64)
deriving DecidableEq, Repr

/-- A stream port that loses block lock, and whether it is receiving a frame (R403). -/
structure LockLoss where
  sp : SpId
  receiving : Bool
deriving DecidableEq, Repr

/-- Kinds of core access (R173, R174), and FENCE, which orders them (R198). -/
inductive MemOp where
  | fetch | load | store | lr | sc
  | amoswap | amoadd | amoxor | amoand | amoor | amomin | amomax | amominu | amomaxu
  | fence
deriving DecidableEq, Repr

/-- The form of a core access: its kind, whether its encoding is compressed, and the aq and rl bits of an LR, SC or AMO (R198). -/
structure AccessForm where
  op : MemOp
  short : Bool
  aq : Bool
  rl : Bool
deriving DecidableEq, Repr

/-- What an HC issues to a pseudo channel (R213, R215): REFpb of a bank; REFab, and whether the postponement that the standard allows is
exhausted; RFM of a bank. -/
inductive HbmRef where
  | perBank
  | allBank (exhausted : Bool)
  | management
deriving DecidableEq, Repr

/-- One sample of a Spindle: the jitter, latch and comparator bits (R101). -/
structure Sample where
  jitter : Bool
  latch : Bool
  comparator : Bool
deriving DecidableEq, Repr

/-- A BAR0 access is 64 bits wide or 32 bits to one half (R15). -/
inductive BarWidth where
  | full | low | high
deriving DecidableEq, Repr

/-- The snoops a CXL host sends (R441). -/
inductive Snoop where
  | data | inv | cur
deriving DecidableEq, Repr

/-- How the host answered an outbound read (R466). -/
inductive HostAnswer where
  | data (bytes : List Byte)
  | unsupported
  | abort
deriving DecidableEq, Repr

/-- A host access through BAR4 or the CXL.mem window: a read of a length, or a write of bytes. -/
inductive HostAccess where
  | read (len : Nat)
  | write (bytes : List Byte)
deriving DecidableEq, Repr

/-- What a CXL.mem access does (R463). -/
inductive LineAccess where
  | read
  | write (bytes : List Byte) (poison : Bool)
deriving DecidableEq, Repr

/-- What an Announce message says of a grandmaster (R415): the fields that the standard's comparison of data sets looks at, in its order, the
identity of the port that sent it last. -/
structure Announce where
  priority1 : Byte
  clockClass : Byte
  accuracy : Byte
  variance : BitVec 16
  priority2 : Byte
  grandmaster : Word
  steps : BitVec 16
  sender : Nat
deriving DecidableEq, Repr

/-- PTP messages the port receives (R413); the timestamp is TICK with an 8-bit fraction. -/
inductive PtpBody where
  | announce (a : Announce)
  | sync (ts : Word) (frac : Byte) (originNs : Word) (twoStep : Bool)
  | followUp (originNs : Word)
  | delayResp (receiveNs : Word)
  | other
deriving DecidableEq, Repr

/-- A PTP message with its domain (R413). -/
structure PtpMsg where
  domain : Byte
  body : PtpBody
deriving DecidableEq, Repr

/-- Where a stored word with an error lies, for scrubbing and correction (R211, R502, R507). -/
inductive StoreRef where
  | dpa (addr : Nat)
  | cst (sc : ScId) (off : Nat)
deriving DecidableEq, Repr

/-- What Steward clears when it leaves a partition (R547): a unit of the die or a 2 MiB HBM frame. -/
inductive ClearTarget where
  | unit (u : UnitNo)
  | frame (dpaFrame : Nat)
deriving DecidableEq, Repr

/-- An SPDM responder: one per die and Warden (R543). -/
inductive Responder where
  | die (d : DieId)
  | warden
deriving DecidableEq, Repr

/-- The transport an SPDM request came over (R543). -/
inductive SpdmPath where
  | doe (f : FuncRef)
  | mctp
deriving DecidableEq, Repr

/-- SPDM requests (R544). -/
inductive SpdmReq where
  | getVersion | getCapabilities | negotiateAlgorithms | getDigests
  | getCertificate (slot : Nat) | challenge (slot : Nat)
  | getMeasurements (index : Nat)
  | keyExchange (slot : Nat) | finish (session : Nat) | endSession (session : Nat)
  | heartbeat (session : Nat) | keyUpdate (session : Nat)
  | otherVersion | unsupported
deriving DecidableEq, Repr

/-- Life-cycle states (R550). -/
inductive LcState where
  | raw | provisioned | deployed | diagnostic | returned | retired
deriving DecidableEq, Repr

/-- How the programming of a transition ends (R555): both words verify; or a read-back of a transition word fails, or input power fails before
the commit begins, when the banks' transition words hold `a` and `b` of the bits to be blown. -/
inductive FuseRun where
  | verified
  | torn (a b : Word)
deriving DecidableEq, Repr

/-- Whether a request comes in a secured session with Warden (R552), and how the programming that follows ends. -/
structure LcSession where
  session : Bool
  run : FuseRun
deriving DecidableEq, Repr

/-- A token of R553, as its 168 bytes. -/
abbrev Token := List Byte

/-- The domains the management command RESET names (R581). -/
inductive ResetDomain where
  | warden | tray
  | die (d : DieId)
  | partition (p : PartId)
  | unit (d : DieId) (u : UnitNo)
  | function (f : FuncRef)
deriving DecidableEq, Repr

/-- Image kinds that Warden keeps (R584). -/
inductive ImageKind where
  | steward | runtime | wardenFw
deriving DecidableEq, Repr

/-- MCTP control messages Warden or a die endpoint answers (R563). -/
inductive MctpMsg where
  | allocateEids (count : Nat) (first : Nat)
  | setEid (eid : Nat)
  | getEid
  | getMessageTypes
  | negotiateUnit (bytes : Nat)
  | messageOfType (ty : Byte)
deriving DecidableEq, Repr

/-- Readings Warden bases its decisions on (R572, R575): powers in mW, temperature in tenths of a degree. -/
structure PowerReading where
  p100 : Nat
  p1ms : Nat
  tj : Nat
deriving DecidableEq, Repr

/-- What the coolant sensors show for COOLANT_FLOW (R580). -/
inductive FlowEvent where
  | low | restored | veryLow | leak | cleared
deriving DecidableEq, Repr

/-- The commands of the tray. -/
inductive Instr where
  /-- R35: a Pulse edge. -/
  | pulseEdge
  /-- R39: a die loses the Pulse. -/
  | pulseLost (d : DieId)
  /-- R365: a check word from die `a` is handed over at die `b`. -/
  | tickCheckWord (a b : DieId)
  /-- R37: Warden decides which dies stay aligned. -/
  | alignmentDecision
  /-- R363: an alignment word is handed over at die `d`. -/
  | tickAlign (d : DieId)
  /-- R294: port `p` of a router sends in router cycle `c`. -/
  | flitSend (node : NodeId) (p : Port) (c : SendCycle)
  /-- R30: the next tick-released item of input `p` is handed over. -/
  | crossingHandover (node : NodeId) (p : Port)
  /-- R354: the next tick-released flit of the link from die `a` is handed over at die `b`. -/
  | sundyaHandover (a b : DieId)
  /-- R304: the next packet of the near link from SC `a` to SC `b` arrives. -/
  | nearLinkPacket (a b : ScId)
  /-- R298: the local ejection port delivers. -/
  | packetEject (node : NodeId)
  /-- R316: the flit at the front of input `p` arrives with an uncorrectable sideband. -/
  | netFlitUe (node : NodeId) (p : Port)
  /-- R316: the outstanding access `id` has had no answer. -/
  | netTimeout (id : Nat)
  /-- R324: a share window begins on a die. -/
  | windowStart (d : DieId)
  /-- R335: a scheduled port runs its pattern position in this tick. -/
  | scheduledTick (node : NodeId) (p : Port)
  /-- R339: a phase notice of region `srid` reaches a port. -/
  | phaseNoticeArrive (node : NodeId) (p : Port) (srid : Fin 16)
  /-- R339: a port begins its noted phase. -/
  | phaseBegin (node : NodeId) (p : Port) (srid : Fin 16)
  /-- R310: a Beacon unit performs its next operation. -/
  | beaconOpApply (node : NodeId)
  /-- R311: the next satisfied watch is answered. -/
  | watchAnswer (node : NodeId)
  /-- R183: a core whose wait was answered NOWATCH reads the cell again. -/
  | waitPoll (core : CoreId)
  /-- R184: a core's wait reaches ZWAITLIM, or the core takes an interrupt during it. -/
  | waitTimeout (core : WaitEnd)
  /-- R184: a cancel reaches the home. -/
  | watchCancel (node : NodeId)
  /-- R182. -/
  | bfGet (core : CoreId) (rd rs1 : RegNo) (aq : Bool)
  /-- R182. -/
  | bfSet (core : CoreId) (rd rs1 rs2 : RegNo) (aq rl : Bool)
  /-- R182. -/
  | bfWaitEq (core : CoreId) (rd rs1 rs2 : RegNo) (aq : Bool)
  /-- R182. -/
  | bfWaitNe (core : CoreId) (rd rs1 rs2 : RegNo) (aq : Bool)
  /-- R182. -/
  | bfWaitGeu (core : CoreId) (rd rs1 rs2 : RegNo) (aq : Bool)
  /-- R186. -/
  | barArrive (core : CoreId) (rd rs1 rs2 : RegNo)
  /-- R187. -/
  | barWait (core : CoreId) (rd rs1 rs2 : RegNo)
  /-- R207. -/
  | lkAcq (core : CoreId) (rd rs1 : RegNo)
  /-- R209. -/
  | lkRel (core : CoreId) (rd rs1 rs2 : RegNo)
  /-- R209. -/
  | lkInfo (core : CoreId) (rd rs1 : RegNo)
  /-- R189. -/
  | cmdTe (core : CoreId) (rs1 rs2 : RegNo)
  /-- R191. -/
  | cmdSua (core : CoreId) (rs1 rs2 : RegNo)
  /-- R189. -/
  | cmdRlu (core : CoreId) (rs1 rs2 : RegNo)
  /-- R194. -/
  | ztTick (core : CoreId) (rd : RegNo)
  /-- R195. -/
  | zfAll (core : CoreId)
  /-- R196. -/
  | zfCmd (core : CoreId)
  /-- R197. -/
  | zfHost (core : CoreId)
  /-- R173, R198: an access of 2^log2 bytes at x[rs1] + imm. A fetch takes the parcels at pc; a FENCE has its pred and succ bits in
  imm. -/
  | coreAccess (core : CoreId) (op : AccessForm) (log2 : Fin 4) (signed : Bool) (rd rs1 rs2 : RegNo) (imm : BitVec 12)
  /-- R281. -/
  | copyEcall (core : CoreId)
  /-- R433. -/
  | steerEcall (core : CoreId)
  /-- R127. -/
  | teCommandArrive (te : TeId)
  /-- R121. -/
  | matmul (te : TeId)
  /-- R147. -/
  | combine (te : TeId)
  /-- R130: the next tile begins streaming in TE cycle `c` of the tick. -/
  | tileStreamStart (te : TeId) (c : Fin 5)
  /-- R130. -/
  | tileComplete (te : TeId) (c : Fin 5)
  /-- R130. -/
  | tileDrainStart (te : TeId) (c : Fin 5)
  /-- R165. -/
  | quantTileWrite (te : TeId) (c : Fin 5)
  /-- R129. -/
  | teCommandEnd (te : TeId) (c : Fin 5)
  /-- R57: the next dense contribution reaches the SUA of an SC. -/
  | denseContribution (sc : ScId)
  /-- R69. -/
  | sweepStart (req : Nat)
  /-- R64: class `cls` begins its update phase on an SC. -/
  | classPhaseStart (sc : ScId) (cls : Fin 64)
  /-- R65. -/
  | flipRecordReceive (sc : ScId)
  /-- R395. -/
  | sweepEnd (req : Nat)
  /-- R82. -/
  | exchangeRound (req : Nat)
  /-- R104: `south` selects the CTL. -/
  | spindleEnable (d : DieId) (south : Bool)
  /-- R104. -/
  | spindleDisable (d : DieId) (south : Bool)
  /-- R104: the 4,096 samples of the start-up test. -/
  | spindleStartupPass (d : DieId) (south : Bool) (samples : List Sample)
  /-- R103: the 1,024 samples of a window. -/
  | spindleWindowClose (d : DieId) (south : Bool) (samples : List Sample)
  /-- R105: the samples up to the failing one. -/
  | spindleHealth (d : DieId) (south : Bool) (samples : List Sample)
  /-- R108. -/
  | seedDraw (req : Nat)
  /-- R110. -/
  | liveKeyDraw (req : Nat)
  /-- R215: a REFpb of a bank, or a REFab. -/
  | hbmRefresh (hc : HcId) (pc : Fin 32) (kind : HbmRef) (bank : Nat)
  /-- R218. -/
  | edramRefresh (ms : MsId) (bank : Fin 32) (cycle : Fin 4)
  /-- R235: the oldest walk of a node ends. -/
  | tableWalk (node : NodeId)
  /-- R505. -/
  | correctionWrite (at_ : StoreRef)
  /-- R512. -/
  | scrubVisit (at_ : StoreRef)
  /-- R251. -/
  | rluCommandArrive (ms : MsId)
  /-- R253. -/
  | rluCommandStart (ms : MsId) (cycle : Fin 4)
  /-- R243. -/
  | rluCopy (ms : MsId) (bank : Fin 32)
  /-- R243. -/
  | rluClear (ms : MsId) (bank : Fin 32)
  /-- R243. -/
  | rluNot (ms : MsId) (bank : Fin 32)
  /-- R243. -/
  | rluAnd (ms : MsId) (bank : Fin 32)
  /-- R243. -/
  | rluOr (ms : MsId) (bank : Fin 32)
  /-- R243. -/
  | rluXor (ms : MsId) (bank : Fin 32)
  /-- R243. -/
  | rluXnor (ms : MsId) (bank : Fin 32)
  /-- R243. -/
  | rluMaj (ms : MsId) (bank : Fin 32)
  /-- R243. -/
  | rluPopcount (ms : MsId) (bank : Fin 32)
  /-- R250. -/
  | rluCommandEnd (ms : MsId) (bank : Fin 32)
  /-- R281. -/
  | copyArrive (ms : MsId)
  /-- R282. -/
  | copyStart (ms : MsId)
  /-- R283. -/
  | copyBatch (ms : MsId)
  /-- R285. -/
  | copyEnd (ms : MsId)
  /-- R356: a flit from die `a` fails its check. -/
  | linkReplay (a : DieId) (b : FlitTo)
  /-- R357: retraining of the link ends; `full`, `lo`, `hi` say which lanes trained. -/
  | linkRetrainEnd (a b : DieId) (full lo hi : Bool)
  /-- R372. -/
  | retrain (d : DieId) (k : Fin 3)
  /-- R367: a die receives a launch notice. -/
  | launchNotice (d : DieId)
  /-- R367. -/
  | launchGo (req : Nat)
  /-- R366. -/
  | launchStart (req : Nat) (d : DieId)
  /-- R368. -/
  | launchLate (req : Nat) (d : DieId)
  /-- R369. -/
  | launchReady (req : Nat) (d : DieId)
  /-- R369. -/
  | launchFire (req : Nat) (d : DieId)
  /-- R389. -/
  | trailWrite (req : Nat)
  /-- R398. -/
  | replayStop (req : Nat)
  /-- R410: a frame, destination address through FCS, with its FCS verdict and first-byte tick. -/
  | frameReceive (sp : SpId) (bytes : List Byte) (fcsOk : Bool) (ts : Word)
  /-- R422. -/
  | eventDeadline (sp : SpId) (stream : Word32) (event : Word)
  /-- R427. -/
  | eventClose (sp : SpId) (stream : Word32) (event : Word)
  /-- R427. -/
  | eventRecordWrite (sp : SpId) (stream : Word32) (event : Word)
  /-- R427. -/
  | eventNotice (sp : SpId) (stream : Word32)
  /-- R424. -/
  | strGap (sp : SpId) (stream : Word32)
  /-- R403. -/
  | strLinkDown (sp : LockLoss)
  /-- R403. -/
  | strLinkUp (sp : SpId)
  /-- R413. -/
  | ptpMessage (d : DieId) (m : PtpMsg)
  /-- R415. -/
  | ptpHoldover (d : DieId)
  /-- R430. -/
  | digestFinal (sp : SpId) (stream : Word32) (event : Word)
  /-- R434. -/
  | steerArrive (sp : SpId)
  /-- R436. -/
  | steerTransmit (sp : SpId)
  /-- R450: a snoop to a Lantern line. -/
  | lanternSnoop (port : Fin 4) (line : Nat) (sn : Snoop)
  /-- R450. -/
  | lanternRereadData (port : Fin 4) (line : Nat) (bytes : List Byte)
  /-- R451. -/
  | lanternPoll (port : Fin 4) (line : Nat)
  /-- R452: a write to BAR2. -/
  | pageDoorbellWrite (f : FuncRef) (off : Nat) (size : Nat) (value : Word)
  /-- R457. -/
  | cacheLineSnoop (port : Fin 4) (line : Nat) (sn : Snoop)
  /-- R458. -/
  | evictCrossingSnoop (port : Fin 4) (line : Nat) (sn : Snoop)
  /-- R458: GO_WritePull, or GO_WritePullDrop. -/
  | goWritepull (port : Fin 4) (line : Nat) (drop : Bool)
  /-- R456. -/
  | rdownGrant (port : Fin 4) (line : Nat) (bytes : List Byte)
  /-- R456. -/
  | ccHoldExpiry (port : Fin 4) (line : Nat)
  /-- R445. -/
  | bar4Access (f : FuncRef) (off : Nat) (a : HostAccess)
  /-- R463: `line` is the 64-byte line index of the window. -/
  | memwinAccess (port : Fin 4) (line : Nat) (a : LineAccess)
  /-- R466. -/
  | hpCplTimeout (port : Fin 4) (id : Nat)
  /-- R467. -/
  | hpLinkDown (port : Fin 4)
  /-- R467: `cxl` is the protocol negotiated (R439). -/
  | hpLinkUp (port : Fin 4) (cxl : Bool)
  /-- R468. -/
  | flr (f : FuncRef)
  /-- R602. -/
  | perst (port : Fin 4)
  /-- R474: Steward of die `d` serves the next doorbell notice; `descs` are the 64-byte descriptors the host
  answers, in ring order, none for a read the host refused. -/
  | doorbellNotice (d : DieId) (descs : List (List Byte))
  /-- R478: the rows below act on the taken descriptor `desc`. -/
  | run (desc : Nat)
  /-- R482. -/
  | loadModel (desc : Nat)
  /-- R482. -/
  | unload (desc : Nat)
  /-- R483. -/
  | updateCouplings (desc : Nat)
  /-- R416. -/
  | bindStream (desc : Nat)
  /-- R419. -/
  | unbindStream (desc : Nat)
  /-- R485. -/
  | readState (desc : Nat)
  /-- R396. -/
  | replay (desc : Nat)
  /-- R487. -/
  | fence (desc : Nat)
  /-- R488. -/
  | ptUpdate (desc : Nat)
  /-- R240. -/
  | heldPtUpdateApply (p : PartId)
  /-- R345. -/
  | schedInstall (desc : Nat)
  /-- R346. -/
  | schedRemove (desc : Nat)
  /-- R488. -/
  | regWrite (desc : Nat)
  /-- R489. -/
  | nop (desc : Nat)
  /-- R491. -/
  | requestEnd (req : Nat)
  /-- R492: the port writes its next completion entry. -/
  | completionWrite (port : Fin 4)
  /-- R493. -/
  | cqInterrupt (p : PartId) (q : Fin 64)
  /-- R501: `cq` selects the completion ring. -/
  | ringEnable (p : PartId) (cq : Bool) (q : Fin 64)
  /-- R501. -/
  | ringDisable (p : PartId) (cq : Bool) (q : Fin 64)
  /-- R497: a BAR0 write. -/
  | registerWrite (f : FuncRef) (off : Nat) (w : BarWidth) (value : Word)
  /-- R497: the shadow of the register at a PF's BAR0 offset is applied. -/
  | shadowApply (off : Nat)
  /-- R330: a BAR0 write to NET_SHARE or NET_SEAMSHARE. -/
  | netShareWrite (f : FuncRef) (off : Nat) (w : BarWidth) (value : Word)
  /-- R607: NET_REGION EN of a partition on a die is applied. -/
  | netRegionWrite (d : DieId) (p : PartId)
  /-- R547. -/
  | unitClear (d : DieId) (t : ClearTarget)
  /-- R607. -/
  | bootmapApply (p : PartId)
  /-- R629: a read of the GLB_TICK at a BAR0 offset. -/
  | glbTickRead (f : FuncRef) (off : Nat) (w : BarWidth)
  /-- R149: a BAR0 write to TE_MODECTL. -/
  | exactEnWrite (f : FuncRef) (off : Nat) (w : BarWidth) (value : Word)
  /-- R518. -/
  | unitFenced (d : DieId) (u : UnitNo) (cause : Half)
  /-- R520. -/
  | dieFenced (d : DieId)
  /-- R523. -/
  | wardenHeartbeat (d : DieId)
  /-- R523. -/
  | wardenLost (d : DieId)
  /-- R528. -/
  | partitionEventWrite (d : DieId)
  /-- R544. -/
  | spdmRequest (r : Responder) (path : SpdmPath) (q : SpdmReq)
  /-- R553. -/
  | nonceRequest (session : Bool)
  /-- R555. -/
  | lcTransition (target : LcState) (session : LcSession) (token : Option Token)
  /-- R561. -/
  | debugUnlock (d : DieId) (level : Fin 4) (session : Bool) (token : Token)
  /-- R541. -/
  | keyRevoke (d : DieId) (slot : Fin 4)
  /-- R560: the management path writes SEC_CAPCTL. -/
  | rawCapture (d : DieId) (south : Bool) (value : Word)
  /-- R566. -/
  | getTrayStatus
  /-- R566. -/
  | getUnitState (d : DieId) (u : UnitNo)
  /-- R590. -/
  | setUnitState (d : DieId) (u : UnitNo) (online : Bool) (session : Bool)
  /-- R590: the GO of MGT_UNITREQ on a die is applied. -/
  | mgtUnitreq (d : DieId)
  /-- R581. -/
  | reset (dom : ResetDomain) (session : Bool)
  /-- R569. -/
  | setPowerCap (d : DieId) (capW : Nat) (session : Bool)
  /-- R587. -/
  | commitSvn (dieMask : BitVec 4) (session : Bool)
  /-- R566. -/
  | readLog (d : DieId) (index : Nat)
  /-- R565. -/
  | getTid
  /-- R565. -/
  | getPldmVersion (ty : Byte)
  /-- R565. -/
  | getPldmTypes
  /-- R565. -/
  | getPldmCommands (ty : Byte)
  /-- R567. -/
  | setEventReceiver (eid : Option Byte)
  /-- R584. -/
  | firmwareComponentTransfer (k : ImageKind) (image : List Byte)
  /-- R584. -/
  | verifyComplete (k : ImageKind)
  /-- R585: one verified step of the activation. -/
  | activateFirmware (k : ImageKind)
  /-- R572. -/
  | throttleDecision (d : DieId) (r : PowerReading)
  /-- R571. -/
  | throttle (d : DieId)
  /-- R575. -/
  | powerLimit (d : DieId) (r : PowerReading) (trayP1ms : Nat) (otherOver : Bool)
  /-- R576. -/
  | thermalTrip (d : DieId) (tj : Nat)
  /-- R578. -/
  | inputPowerFault
  /-- R578. -/
  | inputPowerRestored
  /-- R580: the inlet temperature in tenths of a degree. -/
  | coolantTemp (inlet : Nat)
  /-- R580. -/
  | coolantFlow (e : FlowEvent)
  /-- R593. -/
  | powerOn
  /-- R582. -/
  | wardenReset
  /-- R593. -/
  | trayReset
  /-- R608. -/
  | dieReset (d : DieId)
  /-- R595: `fusesOk` is the outcome of the fuse read. -/
  | d1 (d : DieId) (fusesOk : Bool)
  /-- R595. -/
  | d2 (d : DieId) (locked : Bool)
  /-- R595. -/
  | d3 (d : DieId) (trained : Bool)
  /-- R595. -/
  | d4 (d : DieId)
  /-- R595: which of HC1 to HC3 trained. -/
  | d5 (d : DieId) (hc1 hc2 hc3 : Bool)
  /-- R597: the units that failed their tests, and the SCs whose ZCG vectors failed. -/
  | d6 (d : DieId) (failed : List UnitNo) (katFailed : List (Fin 16)) (ctlOk : Bool)
  /-- R598. -/
  | d7 (d : DieId)
  /-- R599: the outcome of training link k: full width, low half, high half. -/
  | d8 (d : DieId) (full lo hi : BitVec 3)
  /-- R600. -/
  | d9 (d : DieId)
  /-- R601. -/
  | d10 (d : DieId)
  /-- R596. -/
  | bringUpTimeout (d : DieId)
  /-- R609: the partition reset of a partition takes effect. -/
  | partitionReset (p : PartId)
  /-- R610: the GO of GLB_UNITRESET on a die is taken. -/
  | unitReset (d : DieId)
  /-- R290: the next free-running flit due at input `p` is handed over. -/
  | freeRunningHandover (node : NodeId) (p : Port)
  /-- R466. -/
  | hostReadCompletion (port : Fin 4) (id : Nat) (ans : HostAnswer)
  /-- R413. -/
  | delayReqTransmit (d : DieId) (ts : Word) (frac : Byte)
  /-- R560. -/
  | rawCaptureEnd (d : DieId) (south : Bool) (samples : List Sample)
  /-- R590. -/
  | bringUpTestEnd (d : DieId) (u : UnitNo) (pass : Bool)
  /-- R171: a core executes an encoding. -/
  | illegalInstruction (core : CoreId) (word : Word32)
  /-- R563. -/
  | mctpControl (r : Responder) (m : MctpMsg)
  /-- R493: a function writes a vector's mask bit to 0. -/
  | msixUnmask (f : FuncRef) (vector : Fin 65)
  /-- R463. -/
  | hdmDecoderCommit (port : Fin 4) (base : Nat) (commit : Bool)
  /-- R568. -/
  | getSensorReading (id : Nat)
  /-- R213: the temperature of a stack, in tenths of a degree. -/
  | hbmTemperatureReadout (hc : HcId) (temp : Nat)
deriving DecidableEq, Repr

end Sys2Proof
end

