-- ==== Sys2Proof/Config.lean ====
section
/-! DEFINITION. What an implementation fixes and the manual does not state: free values, constants with no body. No
proof can see what they are, so a claim holds whatever they are. The counter `State.free` is their argument where a
fresh value is wanted each time. -/

namespace Sys2Proof.Config

/-- A byte whose content the manual calls lost or leaves open: memory lost at a fence (R518), the exact store after
EXACT_EN rises (R149), memory after its tests (R597). -/
opaque freeByte : Nat → Byte

/-- A 64-bit value the manual leaves open. -/
opaque freeWord : Nat → Word

/-- A choice the manual leaves open between the members of a finite list, as an index (taken modulo its length). -/
opaque freePick : Nat → Nat

/-- A byte the host answers an outbound read with, where no command carries the answer. -/
opaque hostByte : Nat → Byte

/-- The barrier counter, by model, at which the SUAs of a model arrive (R64): the spec names none. -/
opaque suaCounter : Nat → Nat

/-- The regions (DVA, length) that a container declares resident (R391), by its program and placement hashes: no field of the run header
(R479) names them. -/
opaque declaredResident : List Byte → List Byte → List (Nat × Nat)

/-- Which of two adjacent roundings an activation takes where the enclosures of the model do not decide it; the
arguments are the activation code and the exact operand. -/
opaque actSide : Nat → Int → Nat → Bool

/-- The DeviceID public key derived from a UDS (R533), in uncompressed form. -/
opaque deviceKey : List Byte → List Byte

/-- The image that Warden's flash holds at manufacture, by kind (0 Steward, 1 cluster runtime, 2 Warden firmware): the manual gives the
form of an image (R538), not its bytes. -/
opaque factoryImage : Nat → List Byte

/-- The key digest fused for a slot (R539), and, for slot 4, that of the authorisation key (R553). -/
opaque keyDigest : Nat → List Byte

/-- Whether an ECDSA P-384 signature verifies: the key's digest, the message's digest, the signature. -/
opaque ecdsaVerify : List Byte → List Byte → List Byte → Bool

/-- The output of the security engine's CTR_DRBG after a seed, for a generate call. -/
opaque drbgByte : List Byte → Nat → Nat → Byte

/-- The bytes after the header of an SPDM response, whose layout the SPDM standard defines, from the responder, the response code and
the values the tray puts into it (slot, measurements, generated values). -/
opaque spdmBody : Nat → Nat → List Byte → List Byte

/-- The offset, base time and step the PTP servo computes from what it has received (R414): IEEE 1588 leaves the servo open. -/
opaque ptpServo : Nat → Word × Word × Word

end Sys2Proof.Config
end

