-- ==== Sys2Proof/Machine/Bytes.lean ====
section
/-! DEFINITION. Little-endian fields of records held as bytes (R10), bit fields of numbers, and the byte strings of
records the tray writes. Reserved bytes are 0 (R17). -/

namespace Sys2Proof.Machine

/-- The little-endian value of a byte string (R10). -/
def leVal : List Byte → Nat
  | [] => 0
  | b :: bs => b.toNat + 256 * leVal bs

/-- The big-endian value of a byte string: a field of a network protocol keeps its own byte order (R10). -/
def beVal (bs : List Byte) : Nat := leVal bs.reverse

/-- The `n` low bytes of `v`, least significant first. -/
def leBytes : Nat → Nat → List Byte
  | 0, _ => []
  | n + 1, v => BitVec.ofNat 8 v :: leBytes n (v / 256)

/-- The `n` low bytes of `v`, most significant first. -/
def beBytes (n v : Nat) : List Byte := (leBytes n v).reverse

/-- `n` zero bytes. -/
def zeros (n : Nat) : List Byte := List.replicate n 0

/-- Bytes `off` to `off + n - 1` of a record; bytes past its end read 0. -/
def sliceB (bs : List Byte) (off n : Nat) : List Byte :=
  let got := (bs.drop off).take n
  got ++ zeros (n - got.length)

/-- The `n`-byte little-endian field at byte `off` (R10). -/
def fieldLe (bs : List Byte) (off n : Nat) : Nat := leVal (sliceB bs off n)

/-- The `n`-byte big-endian field at byte `off`. -/
def fieldBe (bs : List Byte) (off n : Nat) : Nat := beVal (sliceB bs off n)

/-- Byte `off` as a number. -/
def byteAt (bs : List Byte) (off : Nat) : Nat := (bs.getD off 0).toNat

/-- Bits [hi:lo] of `v`. -/
def bitsOf (v hi lo : Nat) : Nat := (v / 2 ^ lo) % 2 ^ (hi + 1 - lo)

/-- Bit `n` of `v`. -/
def bitOf (v n : Nat) : Bool := v.testBit n

/-- 1 for true. -/
def b2n (b : Bool) : Nat := if b then 1 else 0

/-- The value of an `n`-bit two's complement pattern. -/
def sInt (n v : Nat) : Int := if v % 2 ^ n < 2 ^ (n - 1) then ((v % 2 ^ n : Nat) : Int) else ((v % 2 ^ n : Nat) : Int) - 2 ^ n

/-- The `n`-bit two's complement pattern of `i`: a stored value keeps its low bits (R11). -/
def ofSInt (n : Nat) (i : Int) : Nat := (i % (2 ^ n : Int)).toNat

/-- Shift left by `s`, or right towards minus infinity by `-s` (R11). -/
def shiftBy (v : Int) (s : Int) : Int := if 0 ≤ s then v * 2 ^ s.toNat else v / 2 ^ (-s).toNat

/-- The byte string padded with zeros to `n` bytes. -/
def padTo (n : Nat) (bs : List Byte) : List Byte := bs ++ zeros (n - bs.length)

/-- The byte string cut into chunks of `n` bytes (the last one may be shorter). -/
def chunksFuel : Nat → Nat → List Byte → List (List Byte)
  | 0, _, _ => []
  | _ + 1, _, [] => []
  | f + 1, n, b :: bs => ((b :: bs).take n) :: chunksFuel f n ((b :: bs).drop n)

/-- The byte string cut into chunks of `n` bytes. -/
def chunksOf (n : Nat) (bs : List Byte) : List (List Byte) := chunksFuel bs.length n bs

/-- The bytes of a list of bits, lowest bit of each byte first. -/
def packBitsFuel : Nat → List Bool → List Byte
  | 0, _ => []
  | _ + 1, [] => []
  | f + 1, b :: bs =>
    BitVec.ofNat 8 (((b :: bs).take 8).foldr (fun x acc => b2n x + 2 * acc) 0) :: packBitsFuel f ((b :: bs).drop 8)

/-- The bytes of a list of bits, lowest bit of each byte first, a last partial byte padded with zeros. -/
def packBits (bs : List Bool) : List Byte := packBitsFuel bs.length bs

/-- `v` rounded up to a multiple of `n`. -/
def roundUp (n v : Nat) : Nat := (v + n - 1) / n * n

/-- The byte string XORed byte by byte with another. -/
def xorBytes (a b : List Byte) : List Byte := (a.zip b).map (fun x => x.1 ^^^ x.2)

/-- `x` with bits [hi:lo] replaced by `v`. -/
def putBits (x hi lo v : Nat) : Nat :=
  x - bitsOf x hi lo * 2 ^ lo + (v % 2 ^ (hi + 1 - lo)) * 2 ^ lo

/-- Bytes with the bytes from `off` replaced by `ins`. -/
def overlay (bs : List Byte) (off : Nat) (ins : List Byte) : List Byte :=
  sliceB bs 0 off ++ ins ++ bs.drop (off + ins.length)

end Sys2Proof.Machine
end

