-- ==== Sys2Proof/Machine/Flags.lean ====
section
/-! DEFINITION. Every flag byte the tray writes, computed in one place: the flags of a tensor command (R129, R143), of a row-logic command
(R250), a copy (R285), a readout (R84), a trail record (R390), an event record (R526) and a completion entry (R490). -/

namespace Sys2Proof.Machine

/-- The flags of R129 but DENSE_DROP. -/
structure TeFlags where
  sat : Bool
  nonfin : Bool
deriving DecidableEq, Repr

/-- No flag. -/
def TeFlags.none : TeFlags := ⟨false, false⟩

/-- The OR of two sets of flags: R129 ORs each flag over the tiles of a command. -/
def TeFlags.or (a b : TeFlags) : TeFlags := ⟨a.sat || b.sat, a.nonfin || b.nonfin⟩

/-- The OR of flags. -/
def orFlags (l : List TeFlags) : TeFlags := l.foldl TeFlags.or .none

/-- FLAGS of a tensor status record (R129): SAT, NONFIN, DENSE_DROP. -/
def teFlagBits (f : TeFlags) (drop : Bool) : Nat := b2n f.sat + 2 * b2n f.nonfin + 4 * b2n drop

/-- FLAGS of a row-logic status record (R250): CORR, POISON, REFRESH_INSERTED. -/
def rluFlagBits (corr poison : Bool) (inserted : Nat) : Nat := b2n corr + 2 * b2n poison + 4 * b2n (decide (inserted ≠ 0))

/-- FLAGS of a copy's status record (R285): DROP, POISON. -/
def copyFlagBits (dropped : Nat) (poison : Bool) : Nat := b2n (decide (dropped ≠ 0)) + 2 * b2n poison

/-- FLAGS of a readout's summary (R84). -/
def readoutFlagBits (nonGibbs live margSat traceFull samplesFull best : Bool) : Nat :=
  b2n nonGibbs + 2 * b2n live + 4 * b2n margSat + 8 * b2n traceFull + 16 * b2n samplesFull + 32 * b2n best

/-- FLAGS of a trail record (R390): drawn seed, open timing, more stalls than the record holds, an error, a replay. -/
def trailFlagBits (drawn timingOpen : Bool) (stalls : Nat) (failed replay : Bool) : Nat :=
  b2n drawn + 2 * b2n timingOpen + 4 * b2n (decide (22 < stalls)) + 8 * b2n failed + 16 * b2n replay

/-- FLAGS of an event record (R526): PHASE, LOST. -/
def eventFlagBits (lost phase : Bool) : Nat := 2 * b2n lost + b2n phase

end Sys2Proof.Machine
end

