-- ==== Sys2Proof/Machine/Float.lean ====
section
/-! DEFINITION. Exact reals, the number formats of the tensor engines, and their one rounding (R136, R143, R153,
R154). Every value is carried as an exact fraction and rounded once; the irrational activations of R157 are enclosed
between rationals until the enclosure rounds to one value. -/

namespace Sys2Proof.Machine

/-- An exact fraction; `den` is never 0. -/
structure Frac where
  num : Int
  den : Nat
deriving DecidableEq, Repr

/-- The fraction of an integer. -/
def Frac.ofInt (i : Int) : Frac := ⟨i, 1⟩

/-- m x 2^e. -/
def Frac.ofDyadic (m : Int) (e : Int) : Frac :=
  if 0 ≤ e then ⟨m * 2 ^ e.toNat, 1⟩ else ⟨m, 2 ^ (-e).toNat⟩

/-- The fraction in lowest terms. -/
def Frac.norm (x : Frac) : Frac :=
  let g := Nat.gcd x.num.natAbs x.den
  if g ≤ 1 then x else ⟨x.num / g, x.den / g⟩

def Frac.add (x y : Frac) : Frac := Frac.norm ⟨x.num * y.den + y.num * x.den, x.den * y.den⟩
def Frac.neg (x : Frac) : Frac := ⟨-x.num, x.den⟩
def Frac.sub (x y : Frac) : Frac := x.add y.neg
def Frac.mul (x y : Frac) : Frac := Frac.norm ⟨x.num * y.num, x.den * y.den⟩
/-- The quotient; the caller rules out a divisor of 0. -/
def Frac.div (x y : Frac) : Frac :=
  if 0 ≤ y.num then Frac.norm ⟨x.num * y.den, x.den * y.num.toNat⟩
  else Frac.norm ⟨-(x.num * y.den), x.den * (-y.num).toNat⟩
def Frac.abs (x : Frac) : Frac := ⟨x.num.natAbs, x.den⟩
def Frac.lt (x y : Frac) : Bool := decide (x.num * y.den < y.num * x.den)
def Frac.le (x y : Frac) : Bool := decide (x.num * y.den ≤ y.num * x.den)
def Frac.isZero (x : Frac) : Bool := decide (x.num = 0)
def Frac.isNeg (x : Frac) : Bool := decide (x.num < 0)

/-- The larger of two fractions. -/
def Frac.max (x y : Frac) : Frac := if x.lt y then y else x

/-- `rne` of a fraction: half to even (R59, R134). -/
def Frac.rne (x : Frac) : Int :=
  let q := x.num / (x.den : Int)
  let r := x.num % (x.den : Int)
  if 2 * r < x.den then q
  else if (x.den : Int) < 2 * r then q + 1
  else if q % 2 = 0 then q else q + 1

/-- Truncation toward zero (R143). -/
def Frac.trunc (x : Frac) : Int := x.num.tdiv x.den

/-- floor(log2 |x|) of a fraction that is not 0 (e(x) of R134). -/
def Frac.log2 (x : Frac) : Int :=
  let n := x.num.natAbs
  let g : Int := (Nat.log2 n : Int) - (Nat.log2 x.den : Int)
  -- n / den is in (2^(g-1), 2^(g+1))
  let atLeast : Bool := if 0 ≤ g then decide (x.den * 2 ^ g.toNat ≤ n) else decide (x.den ≤ n * 2 ^ (-g).toNat)
  if atLeast then g else g - 1

/-- An extended value: a finite one with the sign its zero carries, an infinity, or a NaN. -/
inductive XVal where
  | fin (v : Frac) (negZero : Bool)
  | inf (neg : Bool)
  | nan
deriving DecidableEq, Repr

/-- +0. -/
def XVal.zero : XVal := .fin ⟨0, 1⟩ false

/-- A finite value; a zero is +0. -/
def XVal.ofFrac (v : Frac) : XVal := .fin v false

def XVal.ofInt (i : Int) : XVal := .fin ⟨i, 1⟩ false

/-- The sign, of a zero too. -/
def XVal.isNeg : XVal → Bool
  | .fin v nz => if v.isZero then nz else v.isNeg
  | .inf n => n
  | .nan => false

def XVal.isFinite : XVal → Bool
  | .fin _ _ => true
  | _ => false

/-- The fraction of a finite value; 0 for the others. -/
def XVal.frac : XVal → Frac
  | .fin v _ => v
  | _ => ⟨0, 1⟩

def XVal.isZero : XVal → Bool
  | .fin v _ => v.isZero
  | _ => false

def XVal.neg : XVal → XVal
  | .fin v nz => .fin v.neg (!nz)
  | .inf n => .inf (!n)
  | .nan => .nan

/-- Sum, with the zero signs of IEEE 754-2019 under round-to-nearest: an exact zero is +0 but for -0 + -0. -/
def XVal.add : XVal → XVal → XVal
  | .nan, _ => .nan
  | _, .nan => .nan
  | .inf a, .inf b => if a = b then .inf a else .nan
  | .inf a, _ => .inf a
  | _, .inf b => .inf b
  | .fin x a, .fin y b => .fin (x.add y) (x.isZero && y.isZero && a && b)

def XVal.sub (x y : XVal) : XVal := x.add y.neg

/-- Product: zero times an infinity is a NaN; a zero takes the exclusive or of the signs. -/
def XVal.mul (x y : XVal) : XVal :=
  match x, y with
  | .nan, _ => .nan
  | _, .nan => .nan
  | .inf a, .inf b => .inf (xor a b)
  | .inf a, .fin v nz => if v.isZero then .nan else .inf (xor a (XVal.fin v nz).isNeg)
  | .fin v nz, .inf b => if v.isZero then .nan else .inf (xor (XVal.fin v nz).isNeg b)
  | .fin v a, .fin w b => .fin (v.mul w) (xor (XVal.fin v a).isNeg (XVal.fin w b).isNeg)

/-- Quotient under IEEE 754-2019: 0 / 0 is a NaN, x / 0 an infinity. -/
def XVal.div (x y : XVal) : XVal :=
  match x, y with
  | .nan, _ => .nan
  | _, .nan => .nan
  | .inf _, .inf _ => .nan
  | .inf a, .fin w b => .inf (xor a (XVal.fin w b).isNeg)
  | .fin v a, .inf b => .fin ⟨0, 1⟩ (xor (XVal.fin v a).isNeg b)
  | .fin v a, .fin w b =>
    let s := xor (XVal.fin v a).isNeg (XVal.fin w b).isNeg
    if w.isZero then (if v.isZero then .nan else .inf s) else .fin (v.div w) s

/-- x < y; false where either is a NaN. -/
def XVal.lt : XVal → XVal → Bool
  | .nan, _ => false
  | _, .nan => false
  | .inf a, .inf b => a && !b
  | .inf a, _ => a
  | _, .inf b => !b
  | .fin x _, .fin y _ => x.lt y

/-- IEEE 754-2019 maximum: -0 is below +0. -/
def XVal.max (x y : XVal) : XVal :=
  match x, y with
  | .nan, _ => .nan
  | _, .nan => .nan
  | x, y => if x.lt y then y else if y.lt x then x else if x.isNeg then y else x

/-- IEEE 754-2019 minimum. -/
def XVal.min (x y : XVal) : XVal :=
  match x, y with
  | .nan, _ => .nan
  | _, .nan => .nan
  | x, y => if x.lt y then x else if y.lt x then y else if x.isNeg then x else y

/-- A binary floating-point format: exponent bits, fraction bits, whether it has infinities. E4M3 has none and its
only NaN is the all-ones magnitude (OCP). -/
structure FltFmt where
  ebits : Nat
  mbits : Nat
  hasInf : Bool
deriving DecidableEq, Repr

def fmtF40 : FltFmt := ⟨8, 31, true⟩
def fmtFP32 : FltFmt := ⟨8, 23, true⟩
def fmtBF16 : FltFmt := ⟨8, 7, true⟩
def fmtFP16 : FltFmt := ⟨5, 10, true⟩
def fmtE4M3 : FltFmt := ⟨4, 3, false⟩
def fmtE5M2 : FltFmt := ⟨5, 2, true⟩

/-- The exponent bias. -/
def FltFmt.bias (f : FltFmt) : Int := (2 : Int) ^ (f.ebits - 1) - 1

/-- The exponent of the least normal value. -/
def FltFmt.emin (f : FltFmt) : Int := 1 - f.bias

/-- The largest finite value (R152). -/
def FltFmt.maxFin (f : FltFmt) : Frac :=
  if f.hasInf then Frac.ofDyadic (2 ^ (f.mbits + 1) - 1) (f.bias - f.mbits)
  else Frac.ofDyadic (2 ^ (f.mbits + 1) - 2) (f.bias + 1 - f.mbits)

/-- The value of an encoding. -/
def FltFmt.decode (f : FltFmt) (bits : Nat) : XVal :=
  let m := bits % 2 ^ f.mbits
  let e := bits / 2 ^ f.mbits % 2 ^ f.ebits
  let s := bits.testBit (f.mbits + f.ebits)
  let sgn : Int := if s then -1 else 1
  if f.hasInf && e == 2 ^ f.ebits - 1 then (if m = 0 then .inf s else .nan)
  else if !f.hasInf && e == 2 ^ f.ebits - 1 && m == 2 ^ f.mbits - 1 then .nan
  else if e = 0 then .fin (Frac.ofDyadic (sgn * m) (f.emin - f.mbits)) s
  else .fin (Frac.ofDyadic (sgn * ((2 : Int) ^ f.mbits + m)) ((e : Int) - f.bias - f.mbits)) s

/-- The canonical NaN encoding: 0x7FC0_0000, 0x7FC0, 0x7E00, 0x7F, 0x7E (R154). -/
def FltFmt.nanBits (f : FltFmt) : Nat :=
  if f.hasInf then (2 ^ f.ebits - 1) * 2 ^ f.mbits + 2 ^ (f.mbits - 1) else 2 ^ (f.mbits + f.ebits) - 1

/-- The encoding of a value that the format holds exactly. -/
def FltFmt.encode (f : FltFmt) : XVal → Nat
  | .nan => f.nanBits
  | .inf n => b2n n * 2 ^ (f.mbits + f.ebits) + (2 ^ f.ebits - 1) * 2 ^ f.mbits
  | .fin v nz =>
    let s := (XVal.fin v nz).isNeg
    let sb := b2n s * 2 ^ (f.mbits + f.ebits)
    if v.isZero then sb
    else
      let e := Max.max v.log2 f.emin
      let q := (v.abs.mul (Frac.ofDyadic 1 (f.mbits - e))).rne.toNat
      if q < 2 ^ f.mbits then sb + q
      else sb + (e + f.bias).toNat * 2 ^ f.mbits + (q - 2 ^ f.mbits)

/-- A rounded value with the flags its rounding sets. -/
structure Rounded where
  val : XVal
  sat : Bool
  nonfin : Bool
deriving DecidableEq, Repr

/-- |v| rounded half to even to the format's precision, its exponent range unbounded above. -/
def FltFmt.roundMag (f : FltFmt) (v : Frac) : Frac :=
  let e := Max.max v.log2 f.emin
  let q := (v.mul (Frac.ofDyadic 1 (f.mbits - e))).rne
  (Frac.ofDyadic q (e - f.mbits)).norm

/-- Rounding to a float format (R136, R154): half to even, a magnitude past the largest finite value saturates and sets
SAT, a nonzero value that rounds to zero keeps its sign, an infinity in E4M3 becomes the largest value. -/
def FltFmt.round (f : FltFmt) : XVal → Rounded
  | .nan => ⟨.nan, false, false⟩
  | .inf n =>
    if f.hasInf then ⟨.inf n, false, false⟩
    else ⟨.fin (if n then f.maxFin.neg else f.maxFin) n, true, false⟩
  | .fin v nz =>
    let s := (XVal.fin v nz).isNeg
    if v.isZero then ⟨.fin ⟨0, 1⟩ s, false, false⟩
    else
      let r := f.roundMag v.abs
      if f.maxFin.lt r then ⟨.fin (if s then f.maxFin.neg else f.maxFin) s, true, false⟩
      else ⟨.fin (if s then r.neg else r) s, false, false⟩

/-- The clamp of an integer to `n` bits of two's complement, and whether it clamped. -/
def clampInt (n : Nat) (i : Int) : Int × Bool :=
  if i < -(2 ^ (n - 1) : Int) then (-(2 ^ (n - 1) : Int), true)
  else if (2 ^ (n - 1) : Int) - 1 < i then ((2 ^ (n - 1) : Int) - 1, true)
  else (i, false)

/-- Rounding to an `n`-bit integer stage format: half to even, then clamped; a NaN or an infinity becomes 0 and sets
NONFIN (R154). -/
def roundToInt (n : Nat) : XVal → Rounded
  | .fin v _ => let c := clampInt n v.rne; ⟨.ofInt c.1, c.2, false⟩
  | _ => ⟨.zero, false, true⟩

/-- Bit by bit integer square root: the largest r below 2^n with r^2 <= v. -/
def isqrtBits (v : Nat) : Nat → Nat
  | 0 => 0
  | n + 1 =>
    let hi := isqrtBits (v / 4) n
    let r := 2 * hi + 1
    if r * r ≤ v then r else 2 * hi

/-- The integer square root. -/
def isqrt (v : Nat) : Nat := isqrtBits v (Nat.log2 v / 2 + 1)

/-- The square root of a positive fraction to about `p` bits below its own magnitude, cut down, with a last bit that
stands for what was cut; it rounds like the exact root in every format of fewer bits. -/
def Frac.sqrtSticky (x : Frac) (p : Nat) : Frac :=
  let sh : Int := 2 * (p : Int) - 2 * (x.log2 / 2)
  let y := x.mul (Frac.ofDyadic 1 sh)
  let n := y.num.toNat / y.den
  let r := isqrt n
  let exact := decide ((r * r : Nat) * y.den = y.num.toNat)
  Frac.ofDyadic (2 * r + b2n (!exact)) (-(sh / 2) - 1)

/-- sqrt(2/pi) x 2^600, cut down (R152). -/
def sqrtTwoOverPi600 : Nat := 0xcc42299ea1b284687e59e2805d5c717fa7053e60a24e0db1808e369004c73a5d3bf158aa88fa7b6e47eba75766e9d11bd6284ef2e17c2a264f1d32688be119ff30505c3fb28f9c969d9b7a

/-- Fixed-point e^(-y) for a fraction 0 <= y < 2^13, scaled by 2^p: the Taylor sum of y / 2^24 squared 24 times, with
guard bits that leave an error below 2^-(p - 50) of the value. -/
def expNegFixed (y : Frac) (p : Nat) : Nat :=
  let r : Nat := (y.num.toNat * 2 ^ p / y.den) / 2 ^ 24
  let term := fun (acc : Int × Int) (k : Nat) =>
    let t := -(acc.2 * r) / ((k + 1 : Nat) * 2 ^ p : Int)
    (acc.1 + t, t)
  let s := ((List.range (p / 11 + 4)).foldl term ((2 ^ p : Int), (2 ^ p : Int))).1
  (List.range 24).foldl (fun v _ => v * v / 2 ^ p) s.toNat

/-- An enclosure of a real: mid and a bound on the distance. -/
structure Encl where
  mid : Frac
  err : Frac
deriving DecidableEq, Repr

/-- The widest argument for which e^(-y) is summed; past it the value is a tail. -/
def actCut : Int := 4096

/-- A positive real below every rounding step of every format and of every accumulator value. -/
def tinyFrac : Frac := ⟨1, 2 ^ 5000⟩

/-- sigma(x) = 1 / (1 + e^-x), enclosed with working precision `p`. -/
def sigmoidEncl (x : Frac) (p : Nat) : Encl :=
  let y := x.abs
  if !(y.lt ⟨actCut, 1⟩) then
    if x.isNeg then ⟨tinyFrac, ⟨0, 1⟩⟩ else ⟨(Frac.ofInt 1).sub tinyFrac, ⟨0, 1⟩⟩
  else
    -- guard bits for the size of e^-y
    let w := p + 2 * (y.num.toNat / y.den) + 120
    let ev := expNegFixed y w
    let num := if x.isNeg then ev else 2 ^ w
    let v : Frac := ⟨(num : Int), 2 ^ w + ev⟩
    ⟨v, v.mul (Frac.ofDyadic 1 (-(p : Int)))⟩

/-- tanh(x) = 2 sigma(2x) - 1, enclosed. -/
def tanhEncl (x : Frac) (p : Nat) : Encl :=
  let y := x.abs
  let one := Frac.ofInt 1
  let v : Encl :=
    if !(y.lt ⟨actCut, 1⟩) then ⟨one.sub tinyFrac, ⟨0, 1⟩⟩
    else
      -- guard bits for a small argument
      let small : Nat := if y.isZero then 0 else (-(Min.min y.log2 0)).toNat
      let w := p + 2 * (2 * y.num.toNat / y.den) + small + 130
      let ev := expNegFixed (y.mul ⟨2, 1⟩) w
      let t : Frac := ⟨(2 ^ w - ev : Int), 2 ^ w + ev⟩
      ⟨t, t.mul (Frac.ofDyadic 1 (-(p : Int)))⟩
  if x.isNeg then ⟨v.mid.neg, v.err⟩ else v

/-- SiLU(x) = x sigma(x), enclosed. -/
def siluEncl (x : Frac) (p : Nat) : Encl :=
  let s := sigmoidEncl x p
  ⟨x.mul s.mid, (x.mul s.err).abs⟩

/-- GELU-tanh(x) = 0.5 x (1 + tanh u) = x sigma(2u) with u = sqrt(2/pi) (x + 0.044715 x^3), enclosed (R152). -/
def geluEncl (x : Frac) (p : Nat) : Encl :=
  let c : Frac := ⟨sqrtTwoOverPi600, 2 ^ 600⟩
  let poly := x.add ((x.mul (x.mul x)).mul ⟨44715, 1000000⟩)
  let u2 := (c.mul poly).mul ⟨2, 1⟩
  let s := sigmoidEncl u2 p
  -- the constant's cut moves 2u by less than |2u| x 2^-590, and sigma by less than sigma (1 - sigma) times that
  let e2 := ((s.mid.mul ((Frac.ofInt 1).sub s.mid)).mul u2.abs).mul (Frac.ofDyadic 1 (-588))
  let v := x.mul s.mid
  ⟨v, (x.abs.mul (s.err.add e2))⟩

end Sys2Proof.Machine
end

