-- ==== Sys2Proof/Machine/TensorMath.lean ====
section
/-! DEFINITION. What a processing element computes (R124 to R126, R133 to R145, R147): operand values, the two
accumulation modes, output conversion and the combining tree. -/

namespace Sys2Proof.Machine

/-- Element types (R124, R268). -/
inductive ElemTy where
  | int8 | e4m3 | e5m2 | int16 | bf16 | fp16 | fp32 | spin1 | int32 | int48 | int64 | exact72
deriving DecidableEq, Repr

/-- The TYPE code of R268, which is the operand code of R124 for the first eight. -/
def ElemTy.ofCode (c : Nat) : Option ElemTy :=
  match c with
  | 1 => some .int8
  | 2 => some .e4m3
  | 3 => some .e5m2
  | 4 => some .int16
  | 5 => some .bf16
  | 6 => some .fp16
  | 7 => some .fp32
  | 8 => some .spin1
  | 9 => some .int32
  | 10 => some .int48
  | 11 => some .int64
  | 12 => some .exact72
  | _ => none

/-- Bytes of one element; a SPIN1 element is one bit and counts 0 here (R268). -/
def ElemTy.bytes : ElemTy → Nat
  | .int8 | .e4m3 | .e5m2 => 1
  | .int16 | .bf16 | .fp16 => 2
  | .fp32 | .int32 => 4
  | .int48 | .int64 => 8
  | .exact72 => 72
  | .spin1 => 0

/-- The alignment of R268; SPIN1 strides count whole bytes (R269). -/
def ElemTy.align : ElemTy → Nat
  | .int8 | .e4m3 | .e5m2 | .spin1 => 1
  | .int16 | .bf16 | .fp16 => 2
  | .fp32 | .int32 => 4
  | .int48 | .int64 | .exact72 => 8

/-- The float format of a float type. -/
def ElemTy.flt : ElemTy → Option FltFmt
  | .e4m3 => some fmtE4M3
  | .e5m2 => some fmtE5M2
  | .bf16 => some fmtBF16
  | .fp16 => some fmtFP16
  | .fp32 => some fmtFP32
  | _ => none

/-- Float types accumulate in FP32, the others in INT48 (R125). -/
def ElemTy.isFloat (t : ElemTy) : Bool := t.flt.isSome

/-- The allowed pairings of R124. -/
def pairAllowed (a b : ElemTy) : Bool :=
  match a, b with
  | .int8, .int8 => true
  | .e4m3, .e4m3 | .e4m3, .e5m2 | .e5m2, .e4m3 | .e5m2, .e5m2 => true
  | .int16, .int16 | .int16, .spin1 | .spin1, .int16 => true
  | .bf16, .bf16 => true
  | .fp16, .fp16 => true
  | .fp32, .fp32 => true
  | _, _ => false

/-- TE cycles per K step, Q of R124. -/
def cyclesPerStep (a : ElemTy) (exact : Bool) : Nat :=
  match a with
  | .int8 => 1
  | .e4m3 | .e5m2 => if exact then 2 else 1
  | .int16 | .spin1 => 2
  | .bf16 | .fp16 => if exact then 4 else 2
  | _ => 12

/-- The grid offset F of R133 (FP32 is split into BF16 pieces, R138). -/
def gridOffset : ElemTy → Int
  | .e4m3 | .e5m2 => 14
  | _ => 36

/-- State of an Exact element (R140). -/
inductive ExState where
  | finite | pinf | ninf | nan
deriving DecidableEq, Repr

/-- The state after two contributions: opposite infinities give NAN (R140). -/
def ExState.join : ExState → ExState → ExState
  | .finite, s => s
  | s, .finite => s
  | .nan, _ => .nan
  | _, .nan => .nan
  | .pinf, .pinf => .pinf
  | .ninf, .ninf => .ninf
  | .pinf, .ninf => .nan
  | .ninf, .pinf => .nan

/-- The state of a value that enters an Exact sum. -/
def ExState.ofX : XVal → ExState
  | .fin _ _ => .finite
  | .inf false => .pinf
  | .inf true => .ninf
  | .nan => .nan

/-- An accumulator: FP32 or INT48 in Fast mode (R134, R135), 576-bit fixed point with a state in Exact mode (R139,
R140). -/
inductive Acc where
  | f32 (v : XVal)
  | i48 (v : Int)
  | exact (v : Int) (st : ExState)
deriving DecidableEq, Repr

/-- V of a finite value in units of 2^-272 (R139). -/
def exactUnits (x : XVal) : Int := x.frac.num * 2 ^ 272 / x.frac.den

/-- The real value of V (R139). -/
def exactValue (v : Int) : Frac := Frac.norm ⟨v, 2 ^ 272⟩

/-- fp32_sat of R136. -/
def fp32Sat (x : XVal) : Rounded := fmtFP32.round x

/-- The products of a chunk (R137). -/
def products (ts : List (XVal × XVal)) : List XVal := ts.map (fun t => t.1.mul t.2)

/-- A chunk with a non-finite product: NaN, or an infinity (R137). -/
def nonfiniteChunk (ps : List XVal) : XVal :=
  if ps.contains .nan || (ps.contains (.inf true) && ps.contains (.inf false)) then .nan
  else if ps.contains (.inf true) then .inf true
  else .inf false

/-- The largest magnitude of the nonzero values of a list, where there is one. -/
def maxMag (xs : List XVal) : Option Frac :=
  (xs.filter (fun x => !x.isZero)).foldl
    (fun m x => some (match m with | some y => y.max x.frac.abs | none => x.frac.abs)) none

/-- One chunk of `fast_float_element` (R134, R136, R137): the grid of the block exponent, every term rounded once,
their exact sum added to the accumulator with one rounding. A chunk whose terms are all 0 is skipped. -/
def fastFloatChunk (f : Int) (acc : XVal) (ts : List (XVal × XVal)) : XVal × TeFlags :=
  let ps := products ts
  if ps.any (fun p => !p.isFinite) then (acc.add (nonfiniteChunk ps), ⟨false, true⟩)
  else if ps.all XVal.isZero then (acc, .none)
  else
    match maxMag (ts.map Prod.fst), maxMag (ts.map Prod.snd) with
    | some fa, some fb =>
      let x := fa.log2 + fb.log2
      let s : Int := (ps.map (fun p => (p.frac.mul (Frac.ofDyadic 1 (f - x))).rne)).sum
      let r := fp32Sat (acc.add (.ofFrac (Frac.norm (Frac.ofDyadic s (x - f)))))
      (r.val, ⟨r.sat, false⟩)
    | _, _ => (acc, .none)

/-- One chunk in Fast mode with integer types: the exact sum, clamped to INT48 (R135). -/
def fastIntChunk (acc : Int) (ts : List (XVal × XVal)) : Int × TeFlags :=
  let c := clampInt 48 (acc + (ts.map (fun t => t.1.frac.num * t.2.frac.num)).sum)
  (c.1, ⟨c.2, false⟩)

/-- A list cut into chunks of `n`. -/
def listChunks {A : Type} : Nat → Nat → List A → List (List A)
  | 0, _, _ => []
  | _ + 1, _, [] => []
  | fuel + 1, n, x :: xs => (x :: xs).take n :: listChunks fuel n ((x :: xs).drop n)

/-- The three BF16 pieces of an FP32 operand (R138). -/
def splitFP32 (x : XVal) : XVal × XVal × XVal :=
  let hi := (fmtBF16.round x).val
  let mid := (fmtBF16.round (x.sub hi)).val
  let lo := (fmtBF16.round ((x.sub hi).sub mid)).val
  (hi, mid, lo)

/-- The six terms of an FP32 step, in the order of R138. -/
def splitTerms (t : XVal × XVal) : List (XVal × XVal) :=
  let a := splitFP32 t.1
  let b := splitFP32 t.2
  [(a.1, b.1), (a.1, b.2.1), (a.2.1, b.1), (a.2.1, b.2.1), (a.1, b.2.2), (a.2.2, b.1)]

/-- The terms that enter the array for the operand types (R138 for FP32). -/
def arrayTerms (ty : ElemTy) (ts : List (XVal × XVal)) : List (XVal × XVal) :=
  if ty = .fp32 then ts.flatMap splitTerms else ts

/-- One product added in Exact mode (R139, R140). -/
def exactTerm (a : Int × ExState × Bool) (t : XVal × XVal) : Int × ExState × Bool :=
  let p := t.1.mul t.2
  match p with
  | .fin _ _ => (a.1 + exactUnits p, a.2.1, a.2.2)
  | _ => (a.1, a.2.1.join (ExState.ofX p), true)

/-- An element after its K products, from its preloaded accumulator (R121, R133 to R140). -/
def accumulate (ty : ElemTy) (acc : Acc) (ts : List (XVal × XVal)) : Acc × TeFlags :=
  match acc with
  | .f32 v =>
    let terms := arrayTerms ty ts
    let r := (listChunks terms.length 32 terms).foldl
      (fun a c => let x := fastFloatChunk (gridOffset ty) a.1 c; (x.1, a.2.or x.2)) (v, TeFlags.none)
    (.f32 r.1, r.2)
  | .i48 v =>
    let r := (listChunks ts.length 32 ts).foldl
      (fun a c => let x := fastIntChunk a.1 c; (x.1, a.2.or x.2)) (v, TeFlags.none)
    (.i48 r.1, r.2)
  | .exact v st =>
    let r := ts.foldl exactTerm (v, st, false)
    (.exact r.1 r.2.1, ⟨false, r.2.2⟩)

/-- The 576-bit pattern of an Exact element (R142). -/
def encodeExact (v : Int) (st : ExState) : Nat :=
  match st with
  | .finite => ofSInt 576 v
  | .pinf => 2 ^ 575 + 1
  | .ninf => 2 ^ 575 + 2
  | .nan => 2 ^ 575 + 3

/-- An EXACT72 value read as a preload or a partial; a pattern that is neither a finite V nor a state is NAN and sets
NONFIN (R142). -/
def decodeExact (bits : Nat) : Int × ExState × Bool :=
  let b := bits % 2 ^ 576
  let top := b / 2 ^ 560
  if b = 2 ^ 575 + 1 then (0, .pinf, false)
  else if b = 2 ^ 575 + 2 then (0, .ninf, false)
  else if b = 2 ^ 575 + 3 then (0, .nan, false)
  else if top = 0 || top = 2 ^ 16 - 1 then (sInt 576 b, .finite, false)
  else (0, .nan, true)

/-- The exact value of an Exact element: V x 2^-272, or what its state stands for (R139, R140, R156). -/
def exactX (v : Int) (st : ExState) : XVal :=
  match st with
  | .finite => .ofFrac (exactValue v)
  | .pinf => .inf false
  | .ninf => .inf true
  | .nan => .nan

/-- The value of an element's encoding; a SPIN1 bit is +1 or -1 (R124), an INT48 value the low 48 bits (R145), an EXACT72
value V x 2^-272 or its state (R142, R156). -/
def ElemTy.value (t : ElemTy) (bits : Nat) : XVal :=
  match t with
  | .int8 => .ofInt (sInt 8 bits)
  | .int16 => .ofInt (sInt 16 bits)
  | .int32 => .ofInt (sInt 32 bits)
  | .int48 => .ofInt (sInt 48 bits)
  | .int64 => .ofInt (sInt 64 bits)
  | .spin1 => .ofInt (if bits % 2 = 1 then 1 else -1)
  | .exact72 => let d := decodeExact bits; exactX d.1 d.2.1
  | .e4m3 => fmtE4M3.decode bits
  | .e5m2 => fmtE5M2.decode bits
  | .bf16 => fmtBF16.decode bits
  | .fp16 => fmtFP16.decode bits
  | .fp32 => fmtFP32.decode bits

/-- PRELOAD_FMT of R123. -/
def preloadTy (c : Nat) : Option ElemTy :=
  match c with
  | 0 => some .fp32
  | 1 => some .int32
  | 2 => some .int48
  | 3 => some .exact72
  | 4 => some .bf16
  | _ => none

/-- The initial accumulator of an element with no preload. -/
def accZero (float exact : Bool) : Acc :=
  if exact then .exact 0 .finite else if float then .f32 .zero else .i48 0

/-- The initial accumulator of an element from its preload (R145). -/
def accPreload (float exact : Bool) (ty : ElemTy) (bits : Nat) : Acc × TeFlags :=
  if exact then
    if ty = .exact72 then
      let d := decodeExact bits
      (.exact d.1 d.2.1, ⟨false, d.2.2⟩)
    else
      let x := ty.value bits
      (.exact (exactUnits x) (ExState.ofX x), .none)
  else if float then (.f32 (ty.value bits), .none)
  else (.i48 (ty.value bits).frac.num, .none)

/-- An accumulator's value taken exactly (R155). -/
def Acc.value : Acc → XVal
  | .f32 v => v
  | .i48 v => .ofInt v
  | .exact v st => exactX v st

/-- The integer part of an accumulator, clamped to `n` bits (R143). -/
def accToInt (n : Nat) : Acc → Int × TeFlags
  | .i48 v => let c := clampInt n v; (c.1, ⟨c.2, false⟩)
  | .exact v .finite => let c := clampInt n (exactValue v).trunc; (c.1, ⟨c.2, false⟩)
  | .f32 (.fin v _) => let c := clampInt n v.trunc; (c.1, ⟨c.2, false⟩)
  | _ => (0, ⟨false, true⟩)

/-- The bytes of an accumulator in FP32 (R136, R143). -/
def accToFP32 (a : Acc) : Nat × TeFlags :=
  let r := fp32Sat a.value
  (fmtFP32.encode r.val, ⟨r.sat, r.nonfin⟩)

/-- An output element in an OUT_FMT of R125 (DENSE64 gives its clamped 64 bits): its bytes and the flags of R143. -/
def accOut (float : Bool) (fmt : Nat) (a : Acc) : List Byte × TeFlags :=
  match fmt with
  | 0 =>
    if float then let r := accToFP32 a; (leBytes 4 r.1, r.2)
    else let r := accToInt 48 a; (leBytes 8 (ofSInt 64 r.1), r.2)
  | 1 => let r := accToFP32 a; (leBytes 4 r.1, r.2)
  | 2 => let r := accToInt 32 a; (leBytes 4 (ofSInt 32 r.1), r.2)
  | 4 =>
    match a with
    | .exact v st => (leBytes 72 (encodeExact v st), .none)
    | _ => (leBytes 72 0, .none)
  | _ => let r := accToInt 64 a; (leBytes 8 (ofSInt 64 r.1), r.2)

/-- The largest power of two below `n`, at least 1: the left part of the tree of R147. -/
def leftHalf (n : Nat) : Nat := 2 ^ Nat.log2 (n - 1)

/-- `combine_fast` of R147 over FP32 partials. -/
def combineFloat : Nat → List XVal → XVal × TeFlags
  | _, [] => (.zero, .none)
  | _, [x] => (x, .none)
  | 0, x :: _ => (x, .none)
  | fuel + 1, xs =>
    let h := leftHalf xs.length
    let l := combineFloat fuel (xs.take h)
    let r := combineFloat fuel (xs.drop h)
    let s := fp32Sat (l.1.add r.1)
    (s.val, (l.2.or r.2).or ⟨s.sat, false⟩)

/-- `combine_fast` of R147 over INT48 partials. -/
def combineInt : Nat → List Int → Int × TeFlags
  | _, [] => (0, .none)
  | _, [x] => (x, .none)
  | 0, x :: _ => (x, .none)
  | fuel + 1, xs =>
    let h := leftHalf xs.length
    let l := combineInt fuel (xs.take h)
    let r := combineInt fuel (xs.drop h)
    let c := clampInt 48 (l.1 + r.1)
    (c.1, (l.2.or r.2).or ⟨c.2, false⟩)

/-- The exact sum of EXACT72 partials, states joined as in R140 (R147). -/
def combineExact (ps : List Nat) : Acc × TeFlags :=
  let r := ps.foldl
    (fun (a : Int × ExState × Bool) b => let d := decodeExact b; (a.1 + d.1, a.2.1.join d.2.1, a.2.2 || d.2.2))
    (0, .finite, false)
  (.exact r.1 r.2.1, ⟨false, r.2.2⟩)

/-- One element of a COMBINE from the encodings of its partials, in index order (R126, R147). -/
def combineElem (ty : ElemTy) (ps : List Nat) : Acc × TeFlags :=
  match ty with
  | .exact72 => combineExact ps
  | .int48 => let r := combineInt ps.length (ps.map (fun b => sInt 48 b)); (.i48 r.1, r.2)
  | _ => let r := combineFloat ps.length (ps.map fmtFP32.decode); (.f32 r.1, r.2)

end Sys2Proof.Machine
end

