-- ==== Sys2Proof/Machine/Chain.lean ====
section
/-! DEFINITION. Chains (chapter Prologues, Epilogues and Chained Products): the chain record, its validity, and the
arithmetic of every stage and of the prologue (R150 to R164). -/

namespace Sys2Proof.Machine

/-- A stage entry (R151). -/
structure Stage where
  kind : Nat
  fmt : Nat
  arg : Nat
  param : Nat
  va : Nat
deriving DecidableEq, Repr

/-- A chain record (R150). -/
structure ChainRec where
  nStages : Nat
  rounding : Nat
  proKind : Nat
  proAct : Nat
  proEps : Nat
  proLo : Nat
  proHi : Nat
  proVa : Nat
  tableVa : Nat
  stages : List Stage
deriving DecidableEq, Repr

/-- Stage entry `n` of a chain record (R151). -/
def parseStage (bs : List Byte) (n : Nat) : Stage :=
  let o := 64 + 16 * n
  ⟨byteAt bs o, byteAt bs (o + 1), byteAt bs (o + 2), fieldLe bs (o + 4) 4, fieldLe bs (o + 8) 8⟩

/-- The chain record of 192 bytes; the first STAGES entries are used (R150). -/
def parseChain (bs : List Byte) : ChainRec :=
  let n := byteAt bs 0
  { nStages := n, rounding := byteAt bs 1, proKind := byteAt bs 2, proAct := byteAt bs 3, proEps := fieldLe bs 8 4,
    proLo := fieldLe bs 12 4, proHi := fieldLe bs 16 4, proVa := fieldLe bs 24 8, tableVa := fieldLe bs 32 8,
    stages := (List.range (min n 8)).map (parseStage bs) }

/-- The lower bound of a clamp or user-table stage (R151). -/
def Stage.lo (s : Stage) : XVal := fmtFP32.decode s.param
/-- The upper bound of a clamp or user-table stage: bytes 8 to 11 (R151). -/
def Stage.hi (s : Stage) : XVal := fmtFP32.decode (s.va % 2 ^ 32)

/-- Whether ARG is defined for the stage's KIND (R151). -/
def Stage.argOk (s : Stage) : Bool :=
  match s.kind with
  | 1 | 2 => decide (s.arg ≤ 2)
  | 3 => decide (s.arg ≤ 7)
  | 4 | 5 => s.arg == 0
  | 6 => decide (s.arg ≤ 1)
  | 7 => s.arg == 3
  | _ => false

/-- A clamp or a user-table use of an activation needs lo < hi, a user table its table (R161, point 4). -/
def actBoundsOk (code : Nat) (lo hi : XVal) (tableVa : Nat) : Bool :=
  if code = 6 then lo.lt hi
  else if code = 7 then lo.lt hi && tableVa != 0
  else true

/-- R161 for a command with operand type `aTy` and output format `outFmt`. -/
def chainValid (c : ChainRec) (aTy : ElemTy) (outFmt : Nat) : Bool :=
  let st := c.stages
  let kinds := st.map Stage.kind
  -- 1: defined values
  decide (c.nStages ≤ 8) && decide (c.rounding ≤ 1) && decide (c.proKind ≤ 3)
  && st.all (fun s => decide (1 ≤ s.kind) && decide (s.kind ≤ 7) && decide (s.fmt ≤ 8) && s.argOk)
  && (if c.proKind = 1 || c.proKind = 2 then decide (c.proAct ≤ 7) else true)
  -- 2: QUANT last, at most one QUANT and one ROWSTAT
  && !(kinds.dropLast.contains 6) && decide (kinds.count 6 ≤ 1) && decide (kinds.count 5 ≤ 1)
  -- QUANT's FMT is INT8, E4M3 or E5M2 (R160)
  && st.all (fun s => s.kind != 6 || s.fmt == 4 || s.fmt == 5 || s.fmt == 6)
  -- 3: the last stage's FMT, and F40 intermediates in Once mode
  && (match st.getLast? with | some s => s.fmt != 0 | none => true)
  && (c.rounding != 1 || st.dropLast.all (fun s => s.fmt == 0))
  -- 4: bounds and the user table
  && st.all (fun s => s.kind != 3 || actBoundsOk s.arg s.lo s.hi c.tableVa)
  && (if c.proKind = 1 || c.proKind = 2 then
        actBoundsOk c.proAct (fmtFP32.decode c.proLo) (fmtFP32.decode c.proHi) c.tableVa else true)
  -- 5: NORM on a float A
  && (c.proKind != 3 || aTy == .bf16 || aTy == .fp16 || aTy == .e4m3 || aTy == .e5m2 || aTy == .fp32)
  -- 6: OUT_FMT
  && outFmt == 0

/-- The float format of a stage FMT code, where it is one (R152). -/
def stageFlt (fmt : Nat) : Option FltFmt :=
  match fmt with
  | 0 => some fmtF40
  | 1 => some fmtFP32
  | 2 => some fmtBF16
  | 3 => some fmtFP16
  | 4 => some fmtE4M3
  | 5 => some fmtE5M2
  | _ => none

/-- Bits of an integer stage FMT (R152). -/
def stageIntBits (fmt : Nat) : Nat :=
  match fmt with
  | 6 => 8
  | 7 => 16
  | _ => 32

/-- `round_to` of R154 for a stage FMT. -/
def roundTo (fmt : Nat) (x : XVal) : Rounded :=
  match stageFlt fmt with
  | some f => f.round x
  | none => roundToInt (stageIntBits fmt) x

/-- The bytes of a value in a stage FMT; F40 is never stored (R153). -/
def stageBytes (fmt : Nat) (x : XVal) : List Byte :=
  match stageFlt fmt with
  | some f => leBytes ((f.ebits + f.mbits + 1) / 8) (f.encode x)
  | none => leBytes (stageIntBits fmt / 8) (ofSInt (stageIntBits fmt) x.frac.num)

/-- The element type that matches a stage FMT (R268). -/
def stageElemTy (fmt : Nat) : Option ElemTy :=
  match fmt with
  | 1 => some .fp32
  | 2 => some .bf16
  | 3 => some .fp16
  | 4 => some .e4m3
  | 5 => some .e5m2
  | 6 => some .int8
  | 7 => some .int16
  | 8 => some .int32
  | _ => none

/-- Qmax of R160 for a QUANT FMT. -/
def quantMax (fmt : Nat) : Frac :=
  match stageFlt fmt with
  | some f => f.maxFin
  | none => ⟨127, 1⟩

/-- The user table's function (R158): y_0 at or below lo, y_255 at or above hi, the exact linear interpolation
between. -/
def userTable (ys : List XVal) (lo hi x : XVal) : XVal :=
  match x with
  | .nan => .nan
  | _ =>
    if !(lo.lt x) then ys.headD .nan
    else if !(x.lt hi) then ys.getD 255 .nan
    else
      let step := (hi.sub lo).div (.ofInt 255)
      let pos := (x.sub lo).div step
      let k := (pos.frac.num / (pos.frac.den : Int)).toNat
      if 255 ≤ k then ys.getD 255 .nan
      else
        let yk := ys.getD k .nan
        let yk1 := ys.getD (k + 1) .nan
        let xk := lo.add (step.mul (.ofInt k))
        yk.add (((yk1.sub yk).mul (x.sub xk)).div step)

/-- The enclosure of an irrational activation of a nonzero finite argument (R152). -/
def actEncl (code : Nat) (x : Frac) (p : Nat) : Encl :=
  match code with
  | 2 => geluEncl x p
  | 3 => sigmoidEncl x p
  | 4 => tanhEncl x p
  | _ => siluEncl x p

/-- The value an enclosure rounds to, where its two ends round alike. -/
def enclRound (rd : XVal → Rounded) (e : Encl) : Option Rounded :=
  let a := rd (.ofFrac (e.mid.sub e.err))
  let b := rd (.ofFrac (e.mid.add e.err))
  if a = b then some a else none

/-- The working precisions of an irrational activation, in the order in which they are tried. The last resolves e^-y for every y below
`actCut`. -/
def actPrecisions : List Nat := [160, 480, 6400]

/-- The rounding of an irrational activation: the enclosure is narrowed until it decides; should the last not decide, the result is a free
choice between what its two ends round to. -/
def actIrrational (rd : XVal → Rounded) (code : Nat) (x : Frac) : Rounded :=
  match actPrecisions.findSome? (fun p => enclRound rd (actEncl code x p)) with
  | some r => r
  | none =>
    let e := actEncl code x 6400
    if Config.actSide code x.num x.den then rd (.ofFrac (e.mid.add e.err)) else rd (.ofFrac (e.mid.sub e.err))

/-- f of R157 followed by its one rounding. -/
def actRound (rd : XVal → Rounded) (code : Nat) (lo hi : XVal) (table : List XVal) (x : XVal) : Rounded :=
  match code with
  | 0 => rd x
  | 1 =>
    match x with
    | .nan => rd .nan
    | x => if XVal.zero.lt x then rd x else rd .zero
  | 6 => rd ((x.max lo).min hi)
  | 7 => rd (userTable table lo hi x)
  | _ =>
    match x with
    | .nan => rd .nan
    | .inf n =>
      match code, n with
      | 2, true => rd (.fin ⟨0, 1⟩ true)      -- GELU-tanh of minus infinity is -0
      | 2, false => rd (.inf false)
      | 3, true => rd .zero
      | 3, false => rd (.ofInt 1)
      | 4, true => rd (.ofInt (-1))
      | 4, false => rd (.ofInt 1)
      | _, true => rd (.fin ⟨0, 1⟩ true)      -- the limit of x / (1 + e^-x), from below
      | _, false => rd (.inf false)
    | .fin v nz =>
      if v.isZero then
        (if code = 3 then rd (.ofFrac ⟨1, 2⟩) else rd (.fin v nz))
      else actIrrational rd code v

/-- What a stage reads from memory for one element: its scale, bias or residual (R156). -/
structure StageIn where
  operand : XVal
deriving DecidableEq, Repr

/-- A stage that is not QUANT, its result rounded by `rd` (R155 to R157). -/
def stageRound (rd : XVal → Rounded) (s : Stage) (table : List XVal) (operand : XVal) (w : XVal) : Rounded :=
  match s.kind with
  | 1 => rd (w.mul operand)
  | 2 => rd (w.add operand)
  | 7 => rd (w.add operand)
  | 3 => actRound rd s.arg s.lo s.hi table w
  | _ => rd w

/-- The format a stage's result is rounded to: F40 for the intermediates of a Once chain (R155). -/
def stageTarget (once last : Bool) (s : Stage) : Nat := if once && !last then 0 else s.fmt

/-- A row's exact sums (R159). -/
structure RowSum where
  s1 : Frac
  s2 : Frac
  bad : Bool
  count : Nat
deriving DecidableEq, Repr

def RowSum.empty : RowSum := ⟨⟨0, 1⟩, ⟨0, 1⟩, false, 0⟩

/-- A row's sums with one more value (R159). -/
def RowSum.add (r : RowSum) (x : XVal) : RowSum :=
  { s1 := r.s1.add x.frac, s2 := r.s2.add (x.frac.mul x.frac), bad := r.bad || !x.isFinite, count := r.count + 1 }

/-- A row's mean and variance as FP32, with SAT where a rounding saturates (R159). -/
def RowSum.finish (r : RowSum) (n : Nat) : Nat × Nat × Bool :=
  if r.bad then (fmtFP32.nanBits, fmtFP32.nanBits, false)
  else
    let nn : Frac := ⟨n, 1⟩
    let m := r.s1.div nn
    let v := (r.s2.div nn).sub (m.mul m)
    let rm := fmtFP32.round (.ofFrac m)
    let rv := fmtFP32.round (.ofFrac v)
    (fmtFP32.encode rm.val, fmtFP32.encode rv.val, rm.sat || rv.sat)

/-- The values and the scale of a QUANT group (R160). A scale that saturates sets SAT (R154); one that rounds to zero divides under IEEE
754-2019. -/
def quantGroup (fmt : Nat) (ws : List XVal) : List XVal × Nat × TeFlags :=
  if ws.any (fun w => !w.isFinite) then
    (ws.map (fun _ => if fmt = 6 then XVal.zero else XVal.nan), fmtFP32.nanBits, ⟨false, true⟩)
  else
    let a : Frac := ws.foldl (fun (m : Frac) (w : XVal) => m.max w.frac.abs) ⟨0, 1⟩
    if a.isZero then (ws.map (fun _ => XVal.zero), 0, .none)
    else
      let q := fmtFP32.round (.ofFrac (a.div (quantMax fmt)))
      let rs := ws.map (fun (w : XVal) => roundTo fmt (w.div q.val))
      (rs.map Rounded.val, fmtFP32.encode q.val, ⟨q.sat, rs.any Rounded.nonfin⟩)

/-- A NORM element: (x - mean) / sqrt(var + eps), rounded once to the operand's type; a row that has no root is NaN and
sets NONFIN (R163). -/
def normElem (f : FltFmt) (mean var eps x : XVal) : Rounded :=
  let d := var.add eps
  match mean, d, eps with
  | .nan, _, _ => ⟨.nan, false, true⟩
  | _, .nan, _ => ⟨.nan, false, true⟩
  | _, _, .nan => ⟨.nan, false, true⟩
  | m, .inf neg, _ =>
    if neg then ⟨.nan, false, true⟩ else f.round ((x.sub m).div (.inf false))
  | m, .fin v _, _ =>
    if !(Frac.lt ⟨0, 1⟩ v) then ⟨.nan, false, true⟩
    else
      match x.sub m with
      | .nan => f.round .nan
      | .inf n => f.round (.inf n)
      | .fin y nz =>
        if y.isZero then f.round (.fin y nz)
        else
          -- |x - mean| / sqrt d = sqrt((x - mean)^2 / d)
          let q := ((y.mul y).div v).sqrtSticky 700
          f.round (.ofFrac (if y.isNeg then q.neg else q))

/-- A prologue activation of one operand element, rounded to the operand's own type (R162). -/
def proAct (ty : ElemTy) (c : ChainRec) (table : List XVal) (x : XVal) : Rounded :=
  let rd : XVal → Rounded :=
    match ty.flt with
    | some f => f.round
    | none => match ty with
      | .int8 => roundToInt 8
      | .spin1 => fun y =>
        -- the manual gives SPIN1 no rounding of a value between -1 and +1: 0 is a free choice
        ⟨if y.isZero then (if Config.actSide 8 0 1 then .ofInt 1 else .ofInt (-1))
         else if y.lt .zero then .ofInt (-1) else .ofInt 1, false, false⟩
      | _ => roundToInt 16
  actRound rd c.proAct (fmtFP32.decode c.proLo) (fmtFP32.decode c.proHi) table x

end Sys2Proof.Machine
end

