-- ==== Sys2Proof/Machine/Layout.lean ====
section
/-! DEFINITION. Tensor descriptors (R266 to R278): their fields, well-formedness, and the way from a window index to a
byte address. -/

namespace Sys2Proof.Machine

/-- A dimension entry (R267). -/
structure Dim where
  bound : Nat
  extent : Nat
  origin : Int
  block : Nat
  pieceLo : Nat
  stride : Int
deriving DecidableEq, Repr

/-- A tensor descriptor (R266): `dims` holds six entries, those at or above RANK neutral. -/
structure Td where
  tyCode : Nat
  rank : Nat
  order : Nat
  trLog : Nat
  tcLog : Nat
  dist : Nat
  base : Nat
  fill : Nat
  ownerVa : Nat
  dims : List Dim
  va : Nat
deriving DecidableEq, Repr

/-- A dimension that is not used (R267). -/
def Dim.unused : Dim := ⟨1, 1, 0, 1, 0, 0⟩

def parseDim (bs : List Byte) (n : Nat) : Dim :=
  let o := 64 + 32 * n
  ⟨fieldLe bs o 4, fieldLe bs (o + 4) 4, sInt 32 (fieldLe bs (o + 8) 4), fieldLe bs (o + 12) 4,
   fieldLe bs (o + 16) 4, sInt 64 (fieldLe bs (o + 24) 8)⟩

/-- The descriptor of 256 bytes read at `va` (R266, R267). -/
def parseTd (va : Nat) (bs : List Byte) : Td :=
  let rank := byteAt bs 1
  { tyCode := byteAt bs 0, rank := rank, order := byteAt bs 2, trLog := byteAt bs 3 / 16, tcLog := byteAt bs 3 % 16,
    dist := byteAt bs 4, base := fieldLe bs 8 8, fill := fieldLe bs 16 16, ownerVa := fieldLe bs 32 8,
    dims := (List.range 6).map (fun n => if n < rank then parseDim bs n else Dim.unused), va := va }

def Td.dim (d : Td) (n : Nat) : Dim := d.dims.getD n Dim.unused

def Td.ty (d : Td) : ElemTy := (ElemTy.ofCode d.tyCode).getD .int8

/-- Blocks of dimension `n` of an owner-table descriptor (R278). -/
def Td.blocksIn (d : Td) (n : Nat) : Nat := ((d.dim n).bound + (d.dim n).block - 1) / (d.dim n).block

def Td.blockCount (d : Td) : Nat := ((List.range 6).map d.blocksIn).foldl (· * ·) 1

/-- Fill is always finite (R270): a floating-point FILL encodes no NaN and no infinity. -/
def Td.fillFinite (d : Td) : Bool :=
  match d.ty.flt with
  | some f => (f.decode d.fill).isFinite
  | none => true

/-- Well-formedness (R274), with the last sentence of R270. -/
def Td.wellFormed (d : Td) : Bool :=
  match ElemTy.ofCode d.tyCode with
  | none => false
  | some ty =>
    let used := d.dims.take d.rank
    -- 1
    decide (1 ≤ d.rank) && decide (d.rank ≤ 6) && decide (d.order ≤ 2) && decide (d.dist ≤ 2)
    && used.all (fun x => decide (1 ≤ x.bound) && decide (1 ≤ x.extent))
    -- 2
    && (d.dist == 1 || d.base % ty.align == 0) && used.all (fun x => x.stride % (ty.align : Int) == 0)
    && (ty != .spin1 || (d.order == 0 && (d.dim 0).stride == 0))
    -- 3
    && (d.order == 0 || (decide (2 ≤ d.rank) && (d.dim 0).stride == 0 && (d.dim 1).stride == 0 && ty != .spin1))
    -- 4
    && (d.dist != 1 || (d.ownerVa % 16 == 0 && d.base == 0 && used.all (fun x => decide (1 ≤ x.block))
          && decide (d.blockCount ≤ 2 ^ 20)))
    -- 5
    && (d.dist != 2 || used.all (fun x => decide (1 ≤ x.block)))
    -- 6
    && (ty == .exact72 || (if ty = .spin1 then decide (d.fill < 256) else decide (d.fill < 2 ^ (8 * ty.bytes)))) && d.fillFinite
    -- 7
    && d.va % 64 == 0
    -- 8
    && (if d.order = 0 then d.trLog == 0 && d.tcLog == 0 else decide (d.trLog ≤ 7) && decide (d.tcLog ≤ 7))

/-- The storage index of a window index, or none out of bounds (R271). -/
def Td.storage (d : Td) (idx : List Nat) : Option (List Int) :=
  let s := (List.range 6).map (fun n => (d.dim n).origin + (idx.getD n 0 : Nat))
  if (List.range 6).any (fun n => decide (s.getD n 0 < 0) || decide (((d.dim n).bound : Int) ≤ s.getD n 0)) then none
  else some s

/-- The block number of a storage index (R278). -/
def Td.blockNumber (d : Td) (s : List Int) : Nat :=
  ((List.range 6).foldl (fun (acc : Nat × Nat) n =>
    let b := (s.getD n 0).toNat / (d.dim n).block
    (acc.1 + b * acc.2, acc.2 * d.blocksIn n)) (0, 1)).1

/-- Storage indices within their block (R271). -/
def Td.inBlock (d : Td) (s : List Int) : List Int :=
  (List.range 6).map (fun n => s.getD n 0 % ((d.dim n).block : Int))

/-- Storage indices within the local piece, or none outside it (R271). -/
def Td.inPiece (d : Td) (s : List Int) : Option (List Int) :=
  if (List.range 6).any (fun n => decide (s.getD n 0 < ((d.dim n).pieceLo : Int))
      || decide (((d.dim n).pieceLo + (d.dim n).block : Int) ≤ s.getD n 0)) then none
  else some ((List.range 6).map (fun n => s.getD n 0 - ((d.dim n).pieceLo : Int)))

/-- The local bound L of dimension `n` (R271). -/
def Td.localBound (d : Td) (n : Nat) : Nat := if d.dist = 0 then (d.dim n).bound else (d.dim n).block

def ceilDiv (a b : Nat) : Nat := (a + b - 1) / b

/-- `offset` of R271, in bytes; a SPIN1 element's bit is `s0 mod 8` of its byte (R269). -/
def Td.offset (d : Td) (s : List Int) : Int :=
  let strided := fun (ns : List Nat) => (ns.map (fun n => s.getD n 0 * (d.dim n).stride)).sum
  if d.order = 0 then
    if d.ty = .spin1 then s.getD 0 0 / 8 + strided [1, 2, 3, 4, 5]
    else strided [0, 1, 2, 3, 4, 5]
  else
    let r := 2 ^ d.trLog
    let c := 2 ^ d.tcLog
    let ct := ceilDiv (d.localBound 0) c
    let rt := ceilDiv (d.localBound 1) r
    let s0 := (s.getD 0 0).toNat
    let s1 := (s.getD 1 0).toNat
    let t := if d.order = 1 then (s1 / r) * ct + s0 / c else (s0 / c) * rt + s1 / r
    ((t * r * c + (s1 % r) * c + s0 % c) * d.ty.bytes : Nat) + strided [2, 3, 4, 5]

/-- Where an element lies: out of bounds, at an address with a bit number, or in a block whose owner entry is needed. -/
inductive Loc where
  | out
  | at (addr : Int) (bit : Nat)
  | owned (block : Nat) (off : Int) (bit : Nat)
deriving DecidableEq, Repr

/-- `locate` of R271 up to the owner entry. -/
def Td.locate (d : Td) (idx : List Nat) : Loc :=
  match d.storage idx with
  | none => .out
  | some s =>
    let bit := if d.ty = .spin1 then ((s.getD 0 0) % 8).toNat else 0
    if d.dist = 1 then
      let l := d.inBlock s
      .owned (d.blockNumber s) (d.offset l) (if d.ty = .spin1 then ((l.getD 0 0) % 8).toNat else 0)
    else if d.dist = 2 then
      match d.inPiece s with
      | none => .out
      | some l => .at ((d.base : Int) + d.offset l) (if d.ty = .spin1 then ((l.getD 0 0) % 8).toNat else 0)
    else .at ((d.base : Int) + d.offset s) bit

/-- The encoding an out-of-bounds read returns (R270). -/
def Td.fillBits (d : Td) : Nat :=
  match d.ty with
  | .exact72 => ofSInt 576 (sInt 128 d.fill)
  | .spin1 => d.fill % 2
  | ty => d.fill % 2 ^ (8 * ty.bytes)

/-- The window index tuple of a position in canonical order: dimension 0 fastest (R283). -/
def Td.indexOf (d : Td) (n : Nat) : List Nat :=
  ((List.range 6).foldl (fun (acc : List Nat × Nat) k =>
    (acc.1 ++ [acc.2 % (d.dim k).extent], acc.2 / (d.dim k).extent)) ([], n)).1

/-- Elements of the window. -/
def Td.windowSize (d : Td) : Nat := ((List.range 6).map (fun n => (d.dim n).extent)).foldl (· * ·) 1

/-- Whether the EXTENTs are the listed ones in dimensions 0, 1, ... and 1 beyond (R276). -/
def Td.extentsAre (d : Td) (es : List Nat) : Bool :=
  (List.range 6).all (fun n => (d.dim n).extent == es.getD n 1)

end Sys2Proof.Machine
end

