-- ==== Sys2Proof/Machine/Tbl.lean ====
section
/-! DEFINITION. Plain-data containers of the state: `Tbl`, a total table with a value for every key that is not
listed, and `Map`, a partial one. Neither holds a function, so states compare and print. -/

namespace Sys2Proof.Machine

/-- A total table: `rest` is the value of every key `entries` does not list. -/
structure Tbl (K V : Type) where
  rest : V
  entries : List (K × V)
deriving DecidableEq, Repr

/-- A partial table. -/
structure Map (K V : Type) where
  entries : List (K × V)
deriving DecidableEq, Repr

/-- The first value listed for `k`. -/
def lookupEntry {K V : Type} [DecidableEq K] (k : K) : List (K × V) → Option V
  | [] => none
  | (k', v) :: es => if k' = k then some v else lookupEntry k es

/-- `es` with `k` bound to `v`: in place where `k` is listed, else at the end. -/
def putEntry {K V : Type} [DecidableEq K] (k : K) (v : V) : List (K × V) → List (K × V)
  | [] => [(k, v)]
  | (k', v') :: es => if k' = k then (k, v) :: es else (k', v') :: putEntry k v es

/-- `es` without the entries of `k`. -/
def dropEntry {K V : Type} [DecidableEq K] (k : K) (es : List (K × V)) : List (K × V) :=
  es.filter (fun e => !(decide (e.1 = k)))

/-- The table whose every value is `v`. -/
def Tbl.const {K V : Type} (v : V) : Tbl K V := ⟨v, []⟩

/-- The value at `k`. -/
def Tbl.get {K V : Type} [DecidableEq K] (t : Tbl K V) (k : K) : V := (lookupEntry k t.entries).getD t.rest

/-- The table with `v` at `k`. -/
def Tbl.set {K V : Type} [DecidableEq K] (t : Tbl K V) (k : K) (v : V) : Tbl K V :=
  { t with entries := putEntry k v t.entries }

/-- The table with the value at `k` changed by `f`. -/
def Tbl.modify {K V : Type} [DecidableEq K] (t : Tbl K V) (k : K) (f : V → V) : Tbl K V := t.set k (f (t.get k))

/-- The table with the value at every key of `ks` changed by `f`. -/
def Tbl.modifyAll {K V : Type} [DecidableEq K] (t : Tbl K V) (ks : List K) (f : K → V → V) : Tbl K V :=
  ks.foldl (fun t k => t.set k (f k (t.get k))) t

/-- The table with every value changed by `f`. -/
def Tbl.mapAll {K V : Type} (t : Tbl K V) (f : V → V) : Tbl K V :=
  ⟨f t.rest, t.entries.map (fun e => (e.1, f e.2))⟩

/-- The keys that satisfy `p` take the rest's value. -/
def Tbl.forget {K V : Type} (t : Tbl K V) (p : K → Bool) : Tbl K V := ⟨t.rest, t.entries.filter (fun e => !p e.1)⟩

/-- The empty partial table. -/
def Map.empty {K V : Type} : Map K V := ⟨[]⟩

/-- The value at `k`, where there is one. -/
def Map.get? {K V : Type} [DecidableEq K] (m : Map K V) (k : K) : Option V := lookupEntry k m.entries

/-- The partial table with `v` at `k`. -/
def Map.set {K V : Type} [DecidableEq K] (m : Map K V) (k : K) (v : V) : Map K V :=
  { m with entries := putEntry k v m.entries }

/-- The partial table without `k`. -/
def Map.erase {K V : Type} [DecidableEq K] (m : Map K V) (k : K) : Map K V := ⟨dropEntry k m.entries⟩

/-- The partial table with the value at `k`, where there is one, changed by `f`. -/
def Map.modify {K V : Type} [DecidableEq K] (m : Map K V) (k : K) (f : V → V) : Map K V :=
  match m.get? k with
  | some v => m.set k (f v)
  | none => m

/-- The entries that satisfy `p`. -/
def Map.filter {K V : Type} (m : Map K V) (p : K → V → Bool) : Map K V := ⟨m.entries.filter (fun e => p e.1 e.2)⟩

/-- The partial table with every value changed by `f`. -/
def Map.mapVals {K V : Type} (m : Map K V) (f : K → V → V) : Map K V := ⟨m.entries.map (fun e => (e.1, f e.1 e.2))⟩

/-- The keys, in the order their entries were made. -/
def Map.keys {K V : Type} (m : Map K V) : List K := m.entries.map Prod.fst

/-- The values, in the order their entries were made. -/
def Map.vals {K V : Type} (m : Map K V) : List V := m.entries.map Prod.snd

/-- `l` with the elements that satisfy `p` changed by `f`. -/
def mapWhere {A : Type} (p : A → Bool) (f : A → A) (l : List A) : List A := l.map (fun a => if p a then f a else a)

/-- The naturals `a`, `a + 1`, ... , `n` of them. -/
def upFrom (a n : Nat) : List Nat := (List.range n).map (· + a)

/-- `v`, or `m` where `v` is above it: a saturating counter's value. -/
def satTo (m v : Nat) : Nat := if v ≤ m then v else m

end Sys2Proof.Machine
end

