-- ==== Sys2Proof/Machine/StateMem.lean ====
section
/-! DEFINITION. State of the memories, the Gatehouse and the fault logic: chapters Memory and the Gatehouse (R211 to
R242) and Faults, Scrubbing and Degraded Service (R502 to R532).

A store address is a DPA of R224 (below 2^40), or, for byte `off` of the coupling store of SC `sc`, which has no DPA
(R223), 2^40 + sc x 2^22 + off. -/

namespace Sys2Proof.Machine

/-- What is wrong with a protected word: a correctable error, an uncorrectable error nobody has found, or the poison
syndrome (R503, R505, R506). -/
inductive ErrMark where
  | ce | ue | poison
deriving DecidableEq, Repr

/-- All memory of the tray. `cells` lists bytes by store address, in canonical form: addresses strictly rising, no
entry equal to what an unlisted address reads as. `marks` gives the protected words (by the address of their first
byte) that hold an error. -/
structure Mem where
  cells : List Host.Cell
  marks : Map Nat ErrMark
deriving DecidableEq, Repr

/-- A page as the Gatehouse tags it (R235): partition, base DVA and size (true for 2 MiB). -/
structure PageTag where
  part : Nat
  va : Nat
  big : Bool
deriving DecidableEq, Repr

/-- A translation cache entry: tag, page entry (R229), the requests that pin it (R237), and whether it holds an
uncorrectable error (R502). -/
structure CacheEnt where
  tag : PageTag
  entry : Nat
  pins : List Nat
  ue : Bool
deriving DecidableEq, Repr

/-- A walk, by the address it translates and the core that waits (R235): the entries it has still to read, by store address, the first of
them under way, and the tag of that read. -/
structure WalkReq where
  part : Nat
  va : Nat
  core : Nat
  path : List Nat
  tag : Nat
deriving DecidableEq, Repr

/-- The translation state of a node: 128 entries in order of use, oldest first, up to four walks in progress and the
misses that wait (R235). -/
structure GhNode where
  cache : List CacheEnt
  walks : List WalkReq
  waiting : List WalkReq
deriving DecidableEq, Repr

/-- One entry of a PT_UPDATE (R488): the page and its new entry. -/
structure PtEntry where
  va : Nat
  big : Bool
  entry : Nat
deriving DecidableEq, Repr

/-- A change of page tables that is held, or waits behind a held one (R240), or is `applied` and waits for accesses translated
before it (R239); the boot window's changes have no descriptor. -/
structure HeldPt where
  desc : Option Nat
  part : Nat
  entries : List PtEntry
  applied : Bool
deriving DecidableEq, Repr

/-- A page table of a partition in the table region (R636): its offset and whether it is a 4 KiB table. -/
structure TableAlloc where
  part : Nat
  off : Nat
  big : Bool
deriving DecidableEq, Repr

/-- A queued correction or poisoning (R505, R506): the bank that queues it and the words it acts on that no write has
replaced since. -/
structure Corr where
  bank : Nat
  words : List Nat
  toPoison : Bool
deriving DecidableEq, Repr

/-- Service states (R516). -/
inductive UnitState where
  | inService | fenced | offline | fused
deriving DecidableEq, Repr

/-- A unit's record (R516, R519, R588): state, generation, cause, error counts since die reset, tick of its last MEM_CE,
and ORIGIN. -/
structure UnitRec where
  st : UnitState
  gen : Half
  cause : Half
  ue : Nat
  ce : Nat
  lastCe : Option Nat
  origin : Bool
deriving DecidableEq, Repr

/-- A scrub pass of a unit's memory (R507, R510): where it stands, when it began, whether SCRUB_BEHIND was logged. -/
structure ScrubPass where
  pos : Nat
  start : Nat
  logged : Bool
deriving DecidableEq, Repr

/-- An event record before it is written as bytes (R526). -/
structure EventRec where
  code : Half
  severity : Nat
  die : Nat
  node : Nat
  part : Option Nat
  tick : Word
  arg1 : Word
  arg2 : Word
  lost : Bool
deriving DecidableEq, Repr

/-- A die's tray log: at most 4,096 records, oldest first, the slot of the oldest, and whether the next record carries LOST (R530). It is the
content of the die's system memory from offset 0x1FE00000 on (R636), whose bytes `TrayLog.region` gives. -/
structure TrayLog where
  recs : List EventRec
  first : Nat
  lost : Bool
deriving DecidableEq, Repr

/-- Fault and service state of a die and its units. Keys: 64 x die + unit for units, 16 x die + partition for rings. -/
structure Ras where
  units : Tbl Nat UnitRec
  scrubs : Tbl Nat ScrubPass
  corrections : List Corr
  logs : Tbl Nat TrayLog
  /-- Events on their way to the partition event rings of a die, in the order of arrival (R525). -/
  evtArrivals : Tbl Nat (List EventRec)
  evtLost : Tbl Nat Bool
  dieFenced : Tbl Nat Bool
  /-- The tick of the last heartbeat of Warden at each die (R523). -/
  heartbeat : Tbl Nat Nat
  /-- Dies that count Warden as not running (R523). -/
  wardenLost : Tbl Nat Bool
  /-- The tray is below the minimum service set (R524). -/
  noService : Bool
deriving DecidableEq, Repr

/-- An access of an agent that no command of the host or a stream repeats, and that waits for the bank that a row command holds (R253): the
line of a write, by partition, DVA and store address; or a host's read, by partition, node, port, function, DVA and length. -/
inductive Parked where
  | write (part va addr : Nat) (bytes : List Byte)
  | read (part node port func va len : Nat)
  /-- A doorbell notice behind the writes of its partition that wait (R454). -/
  | notice (part port func ring : Nat) (cq : Bool) (value tick : Word)
deriving DecidableEq, Repr

/-- Memory and translation state. Keys of `nodes`: node identifiers. -/
structure MemSys where
  mem : Mem
  nodes : Tbl Nat GhNode
  held : List HeldPt
  tables : List TableAlloc
  /-- Number of the next refresh of each eDRAM bank, 1,024 to an epoch, by 32 x MS + bank (R218). -/
  edramNext : Tbl Nat Nat
  /-- The eDRAM cycle in which the last refresh of each bank ends (R219). -/
  edramBusy : Tbl Nat Nat
  /-- Next bank to refresh of each pseudo channel, by 32 x HC + pseudo channel (R215). -/
  hbmNext : Tbl Nat Nat
  /-- Temperature of each stack in tenths of a degree (R213). -/
  hbmTemp : Tbl Nat Nat
  /-- Last tick of reproducible or scheduled traffic of each stack, in which it is not quiet (R215), with the request and
  the node that waits for it. -/
  hbmBusy : Tbl Nat (Option (Nat × Nat × Nat))
  /-- Parity errors, and severity reports of its on-die ECC, that each pseudo channel will raise on its next accesses (R213, R216). -/
  hbmParity : Tbl Nat Nat
  hbmSev : Tbl Nat Nat
  /-- Set only within a step, by an access that meets a bank that a row command holds (R253). -/
  waitHeld : Bool
  /-- Writes and reads of the host and of streams that wait for a bank that a row command holds, oldest first (R253). -/
  parked : List Parked
  /-- The GLB_BOOTMAP word whose window each partition's tables map (R607). -/
  boot : Tbl Nat (Option Nat)
deriving DecidableEq, Repr

end Sys2Proof.Machine
end

