-- ==== Sys2Proof/Machine/SuaTables.lean ====
section
/-! DEFINITION. The two fixed probability tables of R59, entry by entry: SIG, `min 65535 (rne (65536 sigma(-16 + i/32)))`
with 65,536 at entry 1,024, and EXW, `min 65535 (rne (65536 exp(-i/64)))` with 0 at entry 1,024. The entries are the
values of these real functions, rounded half to even. -/

namespace Sys2Proof.Machine

/-- Entries 0 to 63 of SIG (R59). -/
def sigTable0 : List Nat :=
  [0, 0, 0, 0, 0, 0, 0, 0, 0, 0, 0, 0, 0, 0, 0, 0,
   0, 0, 0, 0, 0, 0, 0, 0, 0, 0, 0, 0, 0, 0, 0, 0,
   0, 0, 0, 0, 0, 0, 0, 0, 0, 0, 0, 0, 0, 0, 0, 0,
   0, 0, 0, 0, 0, 0, 0, 0, 0, 0, 0, 0, 0, 0, 0, 0]

/-- Entries 64 to 127 of SIG (R59). -/
def sigTable1 : List Nat :=
  [0, 0, 0, 0, 0, 0, 0, 0, 0, 0, 0, 0, 0, 0, 0, 0,
   0, 0, 0, 0, 0, 0, 0, 0, 0, 0, 0, 0, 0, 0, 0, 0,
   0, 0, 0, 0, 0, 0, 0, 0, 0, 0, 0, 0, 0, 0, 0, 0,
   0, 0, 0, 0, 0, 0, 0, 0, 0, 0, 0, 0, 0, 0, 0, 0]

/-- Entries 128 to 191 of SIG (R59). -/
def sigTable2 : List Nat :=
  [0, 0, 0, 0, 0, 0, 0, 1, 1, 1, 1, 1, 1, 1, 1, 1,
   1, 1, 1, 1, 1, 1, 1, 1, 1, 1, 1, 1, 1, 1, 1, 1,
   1, 1, 1, 1, 1, 1, 1, 1, 1, 1, 1, 2, 2, 2, 2, 2,
   2, 2, 2, 2, 2, 2, 2, 2, 2, 2, 2, 3, 3, 3, 3, 3]

/-- Entries 192 to 255 of SIG (R59). -/
def sigTable3 : List Nat :=
  [3, 3, 3, 3, 3, 3, 4, 4, 4, 4, 4, 4, 4, 4, 5, 5,
   5, 5, 5, 5, 6, 6, 6, 6, 6, 6, 7, 7, 7, 7, 8, 8,
   8, 8, 9, 9, 9, 9, 10, 10, 10, 11, 11, 11, 12, 12, 13, 13,
   13, 14, 14, 15, 15, 16, 16, 17, 17, 18, 18, 19, 19, 20, 21, 21]

/-- Entries 256 to 319 of SIG (R59). -/
def sigTable4 : List Nat :=
  [22, 23, 23, 24, 25, 26, 27, 27, 28, 29, 30, 31, 32, 33, 34, 35,
   36, 37, 39, 40, 41, 42, 44, 45, 47, 48, 50, 51, 53, 54, 56, 58,
   60, 62, 64, 66, 68, 70, 72, 74, 77, 79, 82, 84, 87, 90, 92, 95,
   98, 101, 105, 108, 111, 115, 119, 122, 126, 130, 134, 139, 143, 148, 152, 157]

/-- Entries 320 to 383 of SIG (R59). -/
def sigTable5 : List Nat :=
  [162, 167, 172, 178, 184, 189, 195, 202, 208, 215, 221, 228, 236, 243, 251, 259,
   267, 275, 284, 293, 302, 312, 321, 332, 342, 353, 364, 376, 387, 400, 412, 425,
   439, 452, 467, 481, 497, 512, 528, 545, 562, 580, 598, 617, 636, 656, 677, 698,
   720, 743, 766, 790, 815, 840, 867, 894, 922, 951, 980, 1011, 1042, 1075, 1109, 1143]

/-- Entries 384 to 447 of SIG (R59). -/
def sigTable6 : List Nat :=
  [1179, 1215, 1253, 1292, 1333, 1374, 1417, 1461, 1506, 1553, 1601, 1650, 1701, 1754, 1808, 1864,
   1921, 1980, 2041, 2104, 2168, 2235, 2303, 2374, 2446, 2521, 2598, 2677, 2758, 2842, 2928, 3017,
   3108, 3202, 3298, 3398, 3500, 3605, 3713, 3824, 3938, 4055, 4176, 4299, 4427, 4557, 4692, 4830,
   4971, 5117, 5266, 5420, 5577, 5739, 5904, 6074, 6249, 6428, 6611, 6799, 6992, 7190, 7392, 7600]

/-- Entries 448 to 511 of SIG (R59). -/
def sigTable7 : List Nat :=
  [7812, 8030, 8252, 8481, 8714, 8953, 9197, 9447, 9702, 9964, 10230, 10503, 10782, 11066, 11357, 11653,
   11955, 12264, 12579, 12899, 13226, 13559, 13898, 14243, 14595, 14952, 15316, 15686, 16062, 16444, 16832, 17226,
   17625, 18031, 18442, 18859, 19282, 19710, 20143, 20582, 21025, 21474, 21928, 22386, 22849, 23316, 23788, 24263,
   24743, 25226, 25712, 26202, 26695, 27191, 27689, 28190, 28693, 29198, 29705, 30213, 30723, 31233, 31744, 32256]

/-- Entries 512 to 575 of SIG (R59). -/
def sigTable8 : List Nat :=
  [32768, 33280, 33792, 34303, 34813, 35323, 35831, 36338, 36843, 37346, 37847, 38345, 38841, 39334, 39824, 40310,
   40793, 41273, 41748, 42220, 42687, 43150, 43608, 44062, 44511, 44954, 45393, 45826, 46254, 46677, 47094, 47505,
   47911, 48310, 48704, 49092, 49474, 49850, 50220, 50584, 50941, 51293, 51638, 51977, 52310, 52637, 52957, 53272,
   53581, 53883, 54179, 54470, 54754, 55033, 55306, 55572, 55834, 56089, 56339, 56583, 56822, 57055, 57284, 57506]

/-- Entries 576 to 639 of SIG (R59). -/
def sigTable9 : List Nat :=
  [57724, 57936, 58144, 58346, 58544, 58737, 58925, 59108, 59287, 59462, 59632, 59797, 59959, 60116, 60270, 60419,
   60565, 60706, 60844, 60979, 61109, 61237, 61360, 61481, 61598, 61712, 61823, 61931, 62036, 62138, 62238, 62334,
   62428, 62519, 62608, 62694, 62778, 62859, 62938, 63015, 63090, 63162, 63233, 63301, 63368, 63432, 63495, 63556,
   63615, 63672, 63728, 63782, 63835, 63886, 63935, 63983, 64030, 64075, 64119, 64162, 64203, 64244, 64283, 64321]

/-- Entries 640 to 703 of SIG (R59). -/
def sigTable10 : List Nat :=
  [64357, 64393, 64427, 64461, 64494, 64525, 64556, 64585, 64614, 64642, 64669, 64696, 64721, 64746, 64770, 64793,
   64816, 64838, 64859, 64880, 64900, 64919, 64938, 64956, 64974, 64991, 65008, 65024, 65039, 65055, 65069, 65084,
   65097, 65111, 65124, 65136, 65149, 65160, 65172, 65183, 65194, 65204, 65215, 65224, 65234, 65243, 65252, 65261,
   65269, 65277, 65285, 65293, 65300, 65308, 65315, 65321, 65328, 65334, 65341, 65347, 65352, 65358, 65364, 65369]

/-- Entries 704 to 767 of SIG (R59). -/
def sigTable11 : List Nat :=
  [65374, 65379, 65384, 65388, 65393, 65397, 65402, 65406, 65410, 65414, 65417, 65421, 65425, 65428, 65431, 65435,
   65438, 65441, 65444, 65446, 65449, 65452, 65454, 65457, 65459, 65462, 65464, 65466, 65468, 65470, 65472, 65474,
   65476, 65478, 65480, 65482, 65483, 65485, 65486, 65488, 65489, 65491, 65492, 65494, 65495, 65496, 65497, 65499,
   65500, 65501, 65502, 65503, 65504, 65505, 65506, 65507, 65508, 65509, 65509, 65510, 65511, 65512, 65513, 65513]

/-- Entries 768 to 831 of SIG (R59). -/
def sigTable12 : List Nat :=
  [65514, 65515, 65515, 65516, 65517, 65517, 65518, 65518, 65519, 65519, 65520, 65520, 65521, 65521, 65522, 65522,
   65523, 65523, 65523, 65524, 65524, 65525, 65525, 65525, 65526, 65526, 65526, 65527, 65527, 65527, 65527, 65528,
   65528, 65528, 65528, 65529, 65529, 65529, 65529, 65530, 65530, 65530, 65530, 65530, 65530, 65531, 65531, 65531,
   65531, 65531, 65531, 65532, 65532, 65532, 65532, 65532, 65532, 65532, 65532, 65533, 65533, 65533, 65533, 65533]

/-- Entries 832 to 895 of SIG (R59). -/
def sigTable13 : List Nat :=
  [65533, 65533, 65533, 65533, 65533, 65533, 65534, 65534, 65534, 65534, 65534, 65534, 65534, 65534, 65534, 65534,
   65534, 65534, 65534, 65534, 65534, 65534, 65535, 65535, 65535, 65535, 65535, 65535, 65535, 65535, 65535, 65535,
   65535, 65535, 65535, 65535, 65535, 65535, 65535, 65535, 65535, 65535, 65535, 65535, 65535, 65535, 65535, 65535,
   65535, 65535, 65535, 65535, 65535, 65535, 65535, 65535, 65535, 65535, 65535, 65535, 65535, 65535, 65535, 65535]

/-- Entries 896 to 959 of SIG (R59). -/
def sigTable14 : List Nat :=
  [65535, 65535, 65535, 65535, 65535, 65535, 65535, 65535, 65535, 65535, 65535, 65535, 65535, 65535, 65535, 65535,
   65535, 65535, 65535, 65535, 65535, 65535, 65535, 65535, 65535, 65535, 65535, 65535, 65535, 65535, 65535, 65535,
   65535, 65535, 65535, 65535, 65535, 65535, 65535, 65535, 65535, 65535, 65535, 65535, 65535, 65535, 65535, 65535,
   65535, 65535, 65535, 65535, 65535, 65535, 65535, 65535, 65535, 65535, 65535, 65535, 65535, 65535, 65535, 65535]

/-- Entries 960 to 1023 of SIG (R59). -/
def sigTable15 : List Nat :=
  [65535, 65535, 65535, 65535, 65535, 65535, 65535, 65535, 65535, 65535, 65535, 65535, 65535, 65535, 65535, 65535,
   65535, 65535, 65535, 65535, 65535, 65535, 65535, 65535, 65535, 65535, 65535, 65535, 65535, 65535, 65535, 65535,
   65535, 65535, 65535, 65535, 65535, 65535, 65535, 65535, 65535, 65535, 65535, 65535, 65535, 65535, 65535, 65535,
   65535, 65535, 65535, 65535, 65535, 65535, 65535, 65535, 65535, 65535, 65535, 65535, 65535, 65535, 65535, 65535]

/-- Entries 1024 to 1024 of SIG (R59). -/
def sigTable16 : List Nat :=
  [65536]

/-- The table SIG of R59. -/
def sigTable : List Nat :=
  sigTable0 ++ sigTable1 ++ sigTable2 ++ sigTable3 ++ sigTable4 ++ sigTable5 ++ sigTable6 ++ sigTable7 ++ sigTable8 ++ sigTable9 ++ sigTable10 ++ sigTable11 ++ sigTable12 ++ sigTable13 ++ sigTable14 ++ sigTable15 ++ sigTable16

/-- Entry `i` of SIG. -/
def sigTableAt (i : Nat) : Nat := sigTable.getD i 0

/-- Entries 0 to 63 of EXW (R59). -/
def exwTable0 : List Nat :=
  [65535, 64520, 63520, 62535, 61565, 60611, 59671, 58746, 57835, 56939, 56056, 55187, 54331, 53489, 52660, 51843,
   51039, 50248, 49469, 48702, 47947, 47204, 46472, 45752, 45042, 44344, 43656, 42980, 42313, 41657, 41011, 40376,
   39750, 39133, 38527, 37929, 37341, 36762, 36192, 35631, 35079, 34535, 34000, 33473, 32954, 32443, 31940, 31445,
   30957, 30477, 30005, 29539, 29081, 28631, 28187, 27750, 27319, 26896, 26479, 26068, 25664, 25266, 24875, 24489]

/-- Entries 64 to 127 of EXW (R59). -/
def exwTable1 : List Nat :=
  [24109, 23736, 23368, 23005, 22649, 22298, 21952, 21611, 21276, 20947, 20622, 20302, 19987, 19677, 19372, 19072,
   18776, 18485, 18199, 17917, 17639, 17365, 17096, 16831, 16570, 16313, 16060, 15811, 15566, 15325, 15087, 14853,
   14623, 14396, 14173, 13953, 13737, 13524, 13314, 13108, 12905, 12705, 12508, 12314, 12123, 11935, 11750, 11568,
   11388, 11212, 11038, 10867, 10698, 10533, 10369, 10209, 10050, 9894, 9741, 9590, 9441, 9295, 9151, 9009]

/-- Entries 128 to 191 of EXW (R59). -/
def exwTable2 : List Nat :=
  [8869, 8732, 8596, 8463, 8332, 8203, 8076, 7950, 7827, 7706, 7586, 7469, 7353, 7239, 7127, 7016,
   6907, 6800, 6695, 6591, 6489, 6388, 6289, 6192, 6096, 6001, 5908, 5817, 5726, 5638, 5550, 5464,
   5380, 5296, 5214, 5133, 5054, 4975, 4898, 4822, 4747, 4674, 4601, 4530, 4460, 4391, 4323, 4256,
   4190, 4125, 4061, 3998, 3936, 3875, 3815, 3756, 3697, 3640, 3584, 3528, 3473, 3419, 3366, 3314]

/-- Entries 192 to 255 of EXW (R59). -/
def exwTable3 : List Nat :=
  [3263, 3212, 3162, 3113, 3065, 3018, 2971, 2925, 2879, 2835, 2791, 2748, 2705, 2663, 2622, 2581,
   2541, 2502, 2463, 2425, 2387, 2350, 2314, 2278, 2243, 2208, 2174, 2140, 2107, 2074, 2042, 2010,
   1979, 1948, 1918, 1888, 1859, 1830, 1802, 1774, 1746, 1719, 1693, 1666, 1641, 1615, 1590, 1566,
   1541, 1517, 1494, 1471, 1448, 1425, 1403, 1382, 1360, 1339, 1318, 1298, 1278, 1258, 1238, 1219]

/-- Entries 256 to 319 of EXW (R59). -/
def exwTable4 : List Nat :=
  [1200, 1182, 1163, 1145, 1128, 1110, 1093, 1076, 1059, 1043, 1027, 1011, 995, 980, 964, 950,
   935, 920, 906, 892, 878, 865, 851, 838, 825, 812, 800, 787, 775, 763, 751, 740,
   728, 717, 706, 695, 684, 673, 663, 653, 642, 633, 623, 613, 604, 594, 585, 576,
   567, 558, 550, 541, 533, 524, 516, 508, 500, 493, 485, 477, 470, 463, 456, 449]

/-- Entries 320 to 383 of EXW (R59). -/
def exwTable5 : List Nat :=
  [442, 435, 428, 421, 415, 408, 402, 396, 390, 384, 378, 372, 366, 360, 355, 349,
   344, 339, 333, 328, 323, 318, 313, 308, 303, 299, 294, 290, 285, 281, 276, 272,
   268, 264, 260, 256, 252, 248, 244, 240, 236, 233, 229, 226, 222, 219, 215, 212,
   209, 205, 202, 199, 196, 193, 190, 187, 184, 181, 178, 176, 173, 170, 168, 165]

/-- Entries 384 to 447 of EXW (R59). -/
def exwTable6 : List Nat :=
  [162, 160, 157, 155, 153, 150, 148, 146, 143, 141, 139, 137, 135, 133, 131, 129,
   127, 125, 123, 121, 119, 117, 115, 113, 112, 110, 108, 107, 105, 103, 102, 100,
   99, 97, 95, 94, 93, 91, 90, 88, 87, 86, 84, 83, 82, 80, 79, 78,
   77, 76, 74, 73, 72, 71, 70, 69, 68, 67, 66, 65, 64, 63, 62, 61]

/-- Entries 448 to 511 of EXW (R59). -/
def exwTable7 : List Nat :=
  [60, 59, 58, 57, 56, 55, 54, 54, 53, 52, 51, 50, 50, 49, 48, 47,
   47, 46, 45, 44, 44, 43, 42, 42, 41, 40, 40, 39, 39, 38, 37, 37,
   36, 36, 35, 35, 34, 34, 33, 32, 32, 31, 31, 31, 30, 30, 29, 29,
   28, 28, 27, 27, 27, 26, 26, 25, 25, 25, 24, 24, 23, 23, 23, 22]

/-- Entries 512 to 575 of EXW (R59). -/
def exwTable8 : List Nat :=
  [22, 22, 21, 21, 21, 20, 20, 20, 19, 19, 19, 19, 18, 18, 18, 17,
   17, 17, 17, 16, 16, 16, 16, 15, 15, 15, 15, 14, 14, 14, 14, 14,
   13, 13, 13, 13, 13, 12, 12, 12, 12, 12, 11, 11, 11, 11, 11, 11,
   10, 10, 10, 10, 10, 10, 9, 9, 9, 9, 9, 9, 9, 8, 8, 8]

/-- Entries 576 to 639 of EXW (R59). -/
def exwTable9 : List Nat :=
  [8, 8, 8, 8, 8, 7, 7, 7, 7, 7, 7, 7, 7, 7, 6, 6,
   6, 6, 6, 6, 6, 6, 6, 6, 6, 5, 5, 5, 5, 5, 5, 5,
   5, 5, 5, 5, 5, 5, 4, 4, 4, 4, 4, 4, 4, 4, 4, 4,
   4, 4, 4, 4, 4, 4, 3, 3, 3, 3, 3, 3, 3, 3, 3, 3]

/-- Entries 640 to 703 of EXW (R59). -/
def exwTable10 : List Nat :=
  [3, 3, 3, 3, 3, 3, 3, 3, 3, 3, 3, 3, 2, 2, 2, 2,
   2, 2, 2, 2, 2, 2, 2, 2, 2, 2, 2, 2, 2, 2, 2, 2,
   2, 2, 2, 2, 2, 2, 2, 2, 2, 2, 2, 2, 1, 1, 1, 1,
   1, 1, 1, 1, 1, 1, 1, 1, 1, 1, 1, 1, 1, 1, 1, 1]

/-- Entries 704 to 767 of EXW (R59). -/
def exwTable11 : List Nat :=
  [1, 1, 1, 1, 1, 1, 1, 1, 1, 1, 1, 1, 1, 1, 1, 1,
   1, 1, 1, 1, 1, 1, 1, 1, 1, 1, 1, 1, 1, 1, 1, 1,
   1, 1, 1, 1, 1, 1, 1, 1, 1, 1, 1, 1, 1, 1, 1, 1,
   1, 1, 1, 0, 0, 0, 0, 0, 0, 0, 0, 0, 0, 0, 0, 0]

/-- Entries 768 to 831 of EXW (R59). -/
def exwTable12 : List Nat :=
  [0, 0, 0, 0, 0, 0, 0, 0, 0, 0, 0, 0, 0, 0, 0, 0,
   0, 0, 0, 0, 0, 0, 0, 0, 0, 0, 0, 0, 0, 0, 0, 0,
   0, 0, 0, 0, 0, 0, 0, 0, 0, 0, 0, 0, 0, 0, 0, 0,
   0, 0, 0, 0, 0, 0, 0, 0, 0, 0, 0, 0, 0, 0, 0, 0]

/-- Entries 832 to 895 of EXW (R59). -/
def exwTable13 : List Nat :=
  [0, 0, 0, 0, 0, 0, 0, 0, 0, 0, 0, 0, 0, 0, 0, 0,
   0, 0, 0, 0, 0, 0, 0, 0, 0, 0, 0, 0, 0, 0, 0, 0,
   0, 0, 0, 0, 0, 0, 0, 0, 0, 0, 0, 0, 0, 0, 0, 0,
   0, 0, 0, 0, 0, 0, 0, 0, 0, 0, 0, 0, 0, 0, 0, 0]

/-- Entries 896 to 959 of EXW (R59). -/
def exwTable14 : List Nat :=
  [0, 0, 0, 0, 0, 0, 0, 0, 0, 0, 0, 0, 0, 0, 0, 0,
   0, 0, 0, 0, 0, 0, 0, 0, 0, 0, 0, 0, 0, 0, 0, 0,
   0, 0, 0, 0, 0, 0, 0, 0, 0, 0, 0, 0, 0, 0, 0, 0,
   0, 0, 0, 0, 0, 0, 0, 0, 0, 0, 0, 0, 0, 0, 0, 0]

/-- Entries 960 to 1023 of EXW (R59). -/
def exwTable15 : List Nat :=
  [0, 0, 0, 0, 0, 0, 0, 0, 0, 0, 0, 0, 0, 0, 0, 0,
   0, 0, 0, 0, 0, 0, 0, 0, 0, 0, 0, 0, 0, 0, 0, 0,
   0, 0, 0, 0, 0, 0, 0, 0, 0, 0, 0, 0, 0, 0, 0, 0,
   0, 0, 0, 0, 0, 0, 0, 0, 0, 0, 0, 0, 0, 0, 0, 0]

/-- Entries 1024 to 1024 of EXW (R59). -/
def exwTable16 : List Nat :=
  [0]

/-- The table EXW of R59. -/
def exwTable : List Nat :=
  exwTable0 ++ exwTable1 ++ exwTable2 ++ exwTable3 ++ exwTable4 ++ exwTable5 ++ exwTable6 ++ exwTable7 ++ exwTable8 ++ exwTable9 ++ exwTable10 ++ exwTable11 ++ exwTable12 ++ exwTable13 ++ exwTable14 ++ exwTable15 ++ exwTable16

/-- Entry `i` of EXW. -/
def exwTableAt (i : Nat) : Nat := exwTable.getD i 0

end Sys2Proof.Machine
end

