-- ==== Sys2Proof/Machine/SuaMath.lean ====
section
/-! DEFINITION. From fields to states, bit for bit (R60, R61) and the exchange decision (R81). -/

namespace Sys2Proof.Machine

/-- One inverse temperature: mantissa and exponent (R58). -/
structure Beta where
  m : Nat
  e : Int
deriving DecidableEq, Repr

/-- p of R60 for the shifted argument T. -/
def sigP (t : Int) : Nat :=
  if t < 0 then 0
  else if 262144 ≤ t then 65536
  else
    let i := t.toNat / 256
    let f := t.toNat % 256
    ((sigTableAt i : Int) + ((((sigTableAt (i + 1) : Int) - sigTableAt i) * f + 128) / 256)).toNat

/-- The probability of +1, in units of 2^-16 (R60). -/
def binaryP (h : Int) (e : Int) (b : Beta) : Nat :=
  sigP (shiftBy (h * b.m) (e + b.e + 14) + 131072)

/-- `binary_update` of R60: true for +1. -/
def binaryUpdate (h : Int) (e : Int) (b : Beta) (u : Word32) : Bool :=
  decide (u.toNat < binaryP h e b * 65536)

/-- The interpolated EXW weight of a value in units of 2^-14 (R61, R81). -/
def exwW (t : Int) : Nat :=
  if 262144 ≤ t then 0
  else
    let i := t.toNat / 256
    let f := t.toNat % 256
    ((exwTableAt i : Int) - ((((exwTableAt i : Int) - exwTableAt (i + 1)) * f + 128) / 256)).toNat

/-- The least of a list of field values. -/
def minInt (hs : List Int) : Int := hs.tail.foldl min (hs.headD 0)

/-- The weights of the q states (R61). -/
def pottsWeights (hs : List Int) (e : Int) (b : Beta) : List Nat :=
  hs.map (fun h => exwW (shiftBy ((h - minInt hs) * b.m) (e + b.e + 14)))

/-- The first state at which the running sum passes `t` (R61). -/
def pottsPick (t : Nat) : Nat → Nat → List Nat → Nat
  | _, a, [] => a
  | acc, a, w :: ws => if t < acc + w then a else pottsPick t (acc + w) (a + 1) ws

/-- `potts_update` of R61. -/
def pottsUpdate (hs : List Int) (e : Int) (b : Beta) (u : Word32) : Nat :=
  let ws := pottsWeights hs e b
  pottsPick (u.toNat * ws.sum / 2 ^ 32) 0 0 ws

/-- X of R81, in units of 2^-14. -/
def exchangeX (dk dk1 : Int) (bk bk1 : Beta) (e : Int) : Int :=
  let lo := min bk.e bk1.e
  let db := shiftBy bk.m (bk.e - lo) - shiftBy bk1.m (bk1.e - lo)
  shiftBy (db * (dk - dk1)) (lo + e + 13)

/-- `exchange_accept` of R81. -/
def exchangeAccept (dk dk1 : Int) (bk bk1 : Beta) (e : Int) (u : Word32) : Bool :=
  let x := exchangeX dk dk1 bk bk1 e
  if 0 ≤ x then true
  else if 262144 ≤ -x then false
  else decide (u.toNat < exwW (-x) * 65536)

end Sys2Proof.Machine
end

