-- ==== Sys2Proof/Machine/Zcg.lean ====
section
/-! DEFINITION. The ZCG counter generator (R111 to R116): the block function and the words each use draws. -/

namespace Sys2Proof.Machine

/-- Four 32-bit words: a key, a counter or a block. -/
structure Quad where
  a : Word32
  b : Word32
  c : Word32
  d : Word32
deriving DecidableEq, Repr

/-- The word with index `n`, counted modulo 4. -/
def Quad.at (q : Quad) (n : Nat) : Word32 :=
  match n % 4 with
  | 0 => q.a
  | 1 => q.b
  | 2 => q.c
  | _ => q.d

/-- The constant C of R113. -/
def zcgC : Word32 := 0x3C1B5A97#32

/-- The rotations of round `r` (R113). -/
def zcgRot (r : Nat) : Nat × Nat :=
  match r % 5 with
  | 0 => (16, 12)
  | 1 => (8, 20)
  | 2 => (24, 4)
  | 3 => (12, 16)
  | _ => (20, 8)

/-- `inject` of R113. -/
def zcgInject (x key : Quad) (j : Nat) : Quad :=
  ⟨x.a + key.at j, x.b + key.at (j + 1), x.c + key.at (j + 2), x.d + key.at (j + 3) + BitVec.ofNat 32 (j + 1) * zcgC⟩

/-- One round of R113 without its injection. -/
def zcgMix (x : Quad) (r : Nat) : Quad :=
  let a := x.a + x.b
  let d := (x.d ^^^ a).rotateLeft (zcgRot r).1
  let c := x.c + d
  let b := (x.b ^^^ c).rotateLeft (zcgRot r).2
  ⟨b, c, d, a⟩

/-- One round of R113, with the injection that follows rounds 4 and 9. -/
def zcgRound (key x : Quad) (r : Nat) : Quad :=
  if r = 4 then zcgInject (zcgMix x r) key 1
  else if r = 9 then zcgInject (zcgMix x r) key 2
  else zcgMix x r

/-- `zcg_block` of R113. -/
def zcgBlock (key ctr : Quad) : Quad := (List.range 10).foldl (zcgRound key) (zcgInject ctr key 0)

/-- The purpose tags of R115. -/
inductive Purpose where
  | update | init | exchange
deriving DecidableEq, Repr

/-- The PURPOSE field (R115). -/
def Purpose.tag : Purpose → Nat
  | .update => 1
  | .init => 2
  | .exchange => 3

/-- The counter of R114. -/
def zcgCounter (p : Purpose) (index sweep lane : Nat) : Quad :=
  ⟨BitVec.ofNat 32 index, BitVec.ofNat 32 sweep, BitVec.ofNat 32 (p.tag * 2 ^ 24 + lane % 16), 0⟩

/-- The word of a unit's update or re-initialisation: lane `r >> 2`, word `r & 3` (R115). -/
def zcgUnitWord (p : Purpose) (key : Quad) (g sweep r : Nat) : Word32 :=
  (zcgBlock key (zcgCounter p g sweep (r / 4))).at (r % 4)

/-- The word of an exchange decision for positions (k, k + 1) after sweep `m` (R115). -/
def zcgExchangeWord (key : Quad) (k m : Nat) : Word32 := (zcgBlock key (zcgCounter .exchange k m 0)).at 0

/-- The key of 16 seed bytes (R111). -/
def zcgKey (seed : List Byte) : Quad :=
  ⟨BitVec.ofNat 32 (fieldLe seed 0 4), BitVec.ofNat 32 (fieldLe seed 4 4), BitVec.ofNat 32 (fieldLe seed 8 4),
   BitVec.ofNat 32 (fieldLe seed 12 4)⟩

end Sys2Proof.Machine
end

