-- ==== Sys2Proof/Machine/StateCompute.lean ====
section
/-! DEFINITION. State of the compute blocks: SUAs and models (R40 to R98), Spindles (R99 to R120), tensor engines (R121
to R170), row logic (R243 to R265), copy engines (R281 to R285) and cores (R171 to R210). -/

namespace Sys2Proof.Machine

/-- A command as a target's queue holds it (R127, R189): the issuing core and request, the record's address, and the
notify flag. `ue` marks an uncorrectable error in the queue entry (R502). -/
structure CmdRef where
  core : Nat
  req : Nat
  va : Nat
  notify : Option Nat
  ue : Bool
deriving DecidableEq, Repr

/-- One SUA (R40, R52, R57): the states, field registers and dense shadows of its 32,768 slots, and the request whose
sweeps run on it (R70), and the CMD.SUA commands that have arrived and not ended, oldest first (R191). `ue` marks an
uncorrectable error in the stores (R502). -/
structure Sua where
  states : Tbl Nat Bool
  fields : Tbl Nat Int
  shadows : Tbl Nat Int
  running : Option Nat
  cmds : List CmdRef
  ue : Bool
deriving DecidableEq, Repr

/-- Where a resident model lies on one SC: the CST offset of its header and the end of its last array (R44). -/
structure ModelSite where
  sc : Nat
  hdr : Nat
  fin : Nat
deriving DecidableEq, Repr

/-- A resident model of a partition (R44, R94): its sites in ascending SC order, the admitted replica count, and
whether its next sweep is a full evaluation (R55). `halo` is each SC's copy of remote states, by (SC, halo index,
replica) (R65). -/
structure Model where
  part : Nat
  id : Nat
  sites : List ModelSite
  replicas : Nat
  nGlobal : Nat
  fullNext : Bool
  halo : Tbl (Nat × Nat × Nat) Nat
  /-- The last position map: the ladder position of each replica (R485). -/
  pos : List Nat
deriving DecidableEq, Repr

/-- A received flip whose upkeep waits (R68): the site's SC, the halo index, the replica and the new state. -/
structure OwedUpkeep where
  sc : Nat
  idx : Nat
  rep : Nat
  state : Nat
deriving DecidableEq, Repr

/-- Where an SC's exchange of a class stands (R64): none is under way; its flip records are in flight; it arrives at the barrier; it has
arrived, with the generation that the arrival returned (R186, R188). -/
inductive Exchange where
  | idle | records | arriving
  | arrived (gen : Half)
deriving DecidableEq, Repr

/-- A running sampling program (R71 to R91). `n` is the sweep in progress or last ended, `clsDone` the classes that have
begun on each SC, `sent` the flip records of each SC that are in flight, `exch` each SC's exchange. In sequential order (R67), `seqPos` is
how many units each replica has passed, and `repSent` the flip records of each replica that are in flight. `pos` gives the ladder
position of each replica. -/
structure Program where
  model : Nat
  spr : List Byte
  betas : List Byte
  replicas : Nat
  n : Nat
  sweeping : Bool
  full : Bool
  clsDone : Tbl Nat Nat
  sent : Tbl Nat Nat
  exch : Tbl Nat Exchange
  seqPos : Tbl Nat Nat
  repSent : Tbl Nat Nat
  owed : List OwedUpkeep
  pos : List Nat
  /-- Doubled energies of the replicas at the last energy point and its sweep (R78). -/
  energies : List Int
  energyAt : Option Nat
  roundDue : Bool
  restarts : Nat
  exchRounds : Nat
  attempts : List Nat
  accepts : List Nat
  samples : Nat
  samplesFull : Bool
  trace : Nat
  traceFull : Bool
  counted : Nat
  margSat : Bool
  /-- Marginal counts, in readout order (R88). -/
  marg : Tbl Nat Nat
  best : Option (Int × Nat × Nat × Nat × List Nat)
  nonGibbs : Bool
  liveKey : Option (List Byte)
  finished : Bool
  /-- Extended tick of the lead die in which the last sweep ended (R69). -/
  endTick : Nat
  /-- REPLAY: the step at which it stops, and whether it has stopped (R398). -/
  stopAt : Option Nat
  stopped : Bool
deriving DecidableEq, Repr

/-- Spindle states (R104). -/
inductive SpState where
  | off | startup | run | retired
deriving DecidableEq, Repr

/-- One Spindle (R101 to R105): state, pool with its oldest byte first, conditioned bits short of a byte, ticks of its
recent failures, the counts SEC_SPINDLESTAT shows (R120), and the last bit and run length of each of the four streams
(R102), jitter first. -/
structure Spindle where
  st : SpState
  pool : List Byte
  bits : List Bool
  failTicks : List Nat
  fails : Nat
  failStream : Nat
  failTest : Nat
  runs : List (Bool × Nat)
deriving DecidableEq, Repr

/-- A tile between its first stream cycle and its last drain cycle (R130): tile number, row and column of the tile grid,
TE cycles, the accumulators in row-major order, and the parameters of each stage over the tile (R166). -/
structure Tile where
  tm : Nat
  tn : Nat
  start : Nat
  complete : Option Nat
  accs : List Acc
  params : List (List XVal)
  flags : TeFlags
deriving DecidableEq, Repr

/-- A tile of per-tile QUANT on its way to memory (R165): the TE cycle after its last drain cycle, the tile, its values
in row-major order, the address and bits of its scale. -/
structure QuantTile where
  due : Nat
  tm : Nat
  tn : Nat
  vals : List XVal
  scaleVa : Nat
  scale : Nat
deriving DecidableEq, Repr

/-- An owner-table entry kept for a command (R279): table, block, node, presence, base. -/
structure OwnerEnt where
  tableVa : Nat
  block : Nat
  node : Nat
  present : Bool
  base : Nat
deriving DecidableEq, Repr

/-- The command a TE executes (R121 to R170). -/
structure TeRun where
  cmd : CmdRef
  record : List Byte
  aTd : Option Td
  bTd : Option Td
  outTd : Option Td
  preTd : Option Td
  resTds : List Td
  chain : Option ChainRec
  table : List XVal
  /-- Row statistics of a NORM prologue, read before any write of the command (R164). -/
  stats : List (Nat × Nat)
  /-- The dense target list (R148). -/
  targets : List Byte
  owners : List OwnerEnt
  next : Nat
  /-- Tiles that have begun streaming and not begun draining, oldest first. -/
  inFlight : List Tile
  tilesDone : Nat
  flags : TeFlags
  denseDrop : Bool
  rowSums : Tbl Nat RowSum
  /-- Quantised tiles that wait for their write (R165). -/
  quantBuf : List QuantTile
  lastWrite : Nat
  code : Option Half
deriving DecidableEq, Repr

/-- A tensor engine (R127, R130, R144): its queue, its command, the last stream and drain cycles of its latest tiles,
and the count SAT_CMDS of TE_MODECTL. -/
structure Te where
  queue : List CmdRef
  cur : Option TeRun
  lastStream : Nat
  lastDrain : Nat
  prevDrain : Nat
  tiles : Nat
  satCmds : Nat
deriving DecidableEq, Repr

/-- A dense contribution on its way to an SUA (R57, R148). -/
structure DenseMsg where
  part : Nat
  model : Nat
  unit : Nat
  rep : Nat
  value : Int
deriving DecidableEq, Repr

/-- The command an RLU runs (R243 to R263): its record, the store addresses of its rows, its bank, the next operation, the
eDRAM cycle in which that may begin, the sense amplifiers with the numbers of their poisoned words, the count slots (none:
received a count from a poisoned source), flags, the DVA of the first poisoned row, and the refreshes inserted. -/
structure RluRun where
  cmd : CmdRef
  record : List Byte
  rows : List Nat
  bank : Nat
  next : Nat
  ready : Nat
  sa : List Byte
  saBad : List Nat
  counts : List (Option Nat)
  corr : Bool
  poisonVa : Option Nat
  inserted : Nat
deriving DecidableEq, Repr

/-- A memory slice's row logic (R251 to R263): queue, running commands by bank, postponed refreshes by bank, and the
counts of RLU_SLICESTAT. -/
structure Rlu where
  queue : List CmdRef
  running : List RluRun
  /-- Commands whose operations have ended and whose bank is free again, and that have their counts and status still to write (R250). -/
  ending : List RluRun
  postponed : Tbl Nat Nat
  inserted : Nat
  poisoned : Nat
deriving DecidableEq, Repr

/-- A layout copy that runs (R282 to R285): its descriptors, the owner entries it keeps, its next batch, dropped writes, poison, the
extended tick from which its next batch may run (R284), and the code that ends it. -/
structure CopyRun where
  cmd : CmdRef
  record : List Byte
  src : Td
  dst : Td
  owners : List OwnerEnt
  batch : Nat
  dropped : Nat
  poison : Bool
  ready : Nat
  code : Option Half
deriving DecidableEq, Repr

/-- A copy engine (R281). -/
structure CopyEng where
  queue : List CmdRef
  cur : Option CopyRun
deriving DecidableEq, Repr

/-- Privilege modes (R172). -/
inductive Mode where
  | m | u
deriving DecidableEq, Repr

/-- The wait conditions of BF.WAIT and BAR.WAIT (R182, R187). -/
inductive WaitCond where
  | eq (v : Word32)
  | ne (v : Word32)
  | geu (v : Word32)
  | gen (g : Half)
deriving DecidableEq, Repr

/-- What a core waits for. `op` is a Beacon-class operation whose answer is due, by its tag; `watch` a wait at a home, issued at a
tick (R184), or, where `polling` holds the tick of its latest attempt, a poll (R183); `mem` an LR, SC or AMO; `walk` a translation. Without aq,
later ordinary accesses begin before an operation completes (R200): the core's pc has then passed the operation, which stands at `pc`. -/
inductive CoreWait where
  | none
  | op (tag : Nat) (rd : Nat) (aq : Bool) (pc : Word)
  | watch (node cell : Nat) (bar : Bool) (cond : WaitCond) (rd : Nat) (rs1 : Word) (issued : Nat) (tag : Nat)
      (polling : Option Nat) (aq : Bool) (pc : Word)
  | mem (tag : Nat) (rd : Nat) (log2 : Nat) (signed : Bool) (va : Word) (op : MemOp)
  | walk
deriving DecidableEq, Repr

/-- A load or a fetch whose answer is due: its tag, destination, width and sign, address, and where its instruction stands. -/
structure PendLoad where
  tag : Nat
  rd : Nat
  log2 : Nat
  signed : Bool
  va : Word
  op : MemOp
  pc : Word
deriving DecidableEq, Repr

/-- A 64-byte line of a cache, by its store address (R176, R177). -/
structure CacheLine where
  addr : Nat
  bytes : List Byte
  /-- A parity error in it (R502). -/
  bad : Bool
deriving DecidableEq, Repr

/-- A cluster core (R171 to R180): integer registers, pc, mode, machine CSRs, ZWAITLIM, the request it runs, its
reservation (a 64-byte line by DPA, R174), outstanding commands (R192), posted stores not yet performed (R189), a
translation a walk has brought it, loads and fetches under way, the registers as they stood at a wait that later loads have passed
(R200), its caches (R176, R177), and the parcels fetched at an address. -/
structure Core where
  x : Tbl Nat Word
  pc : Word
  mode : Mode
  mstatus : Word
  mtvec : Word
  mepc : Word
  mcause : Word
  mtval : Word
  mscratch : Word
  mie : Word
  mip : Word
  zwaitlim : Word32
  req : Option Nat
  resv : Option Nat
  cmds : Nat
  stores : Nat
  hostStores : Nat
  wait : CoreWait
  xlat : Option (PageTag × Nat × Nat)
  loads : List PendLoad
  ckpt : Tbl Nat Word
  icache : List CacheLine
  dcache : List CacheLine
  fetched : Option (Word × List Byte)
deriving DecidableEq, Repr

/-- A lock (R204, R209): state 0 FREE, 1 HELD, 2 BROKEN, its epoch, cause and owner. `badA`, `badB`: an uncorrectable
error in a copy (R502). -/
structure Lock where
  st : Nat
  epoch : Word32
  cause : Nat
  part : Nat
  port : Nat
  func : Nat
  core : Nat
  badA : Bool
  badB : Bool
deriving DecidableEq, Repr

/-- The compute blocks, by their tray-wide index (R25); locks by 256 x die + index; Spindles by 2 x die, plus 1 for the
CTL-S. -/
structure Compute where
  suas : Tbl Nat Sua
  models : List Model
  denseIn : Tbl Nat (List DenseMsg)
  spindles : Tbl Nat Spindle
  tes : Tbl Nat Te
  rlus : Tbl Nat Rlu
  copies : Tbl Nat CopyEng
  cores : Tbl Nat Core
  locks : Tbl Nat Lock
deriving DecidableEq, Repr

end Sys2Proof.Machine
end

