-- ==== Sys2Proof/Machine/StateNet.lean ====
section
/-! DEFINITION. State of the network: packets and routers (R286 to R317), Beacon units (R181 to R188, R310, R311),
partition meters and scheduled regions (R318 to R349). -/

namespace Sys2Proof.Machine

/-- Who waits for an answer: a core, a unit's command that made a notify increment, a block that has asked for a line for a
request from a node, or the SUA of an SC that arrives at its request's barrier (R188). -/
inductive Agent where
  | core (c : Nat)
  | notify (core req : Nat)
  | block (node : Nat) (req : Option Nat)
  | sua (sc req : Nat)
  | none
deriving DecidableEq, Repr

/-- Beacon-class operations as they travel to their home (R199). -/
inductive BOp where
  | get (cell : Nat)
  | set (cell : Nat) (v : Word32)
  | wait (cell : Nat) (cond : WaitCond)
  | arrive (ctr : Nat) (count : Nat)
  | barWait (ctr : Nat) (gen : Half)
  | lkAcq (lock : Nat)
  | lkRel (lock : Nat) (epoch : Word32)
  | lkInfo (lock : Nat)
  | notify (cell : Nat)
  | cancel (tag : Nat)
deriving DecidableEq, Repr

/-- How a Beacon-class operation was answered (R182, R183, R186, R180, R315). -/
inductive BAns where
  | value (v : Word)
  | noWatch
  | barrierTrap
  | targetTrap
  | poison
  | fenced
deriving DecidableEq, Repr

/-- A memory request of a core, after translation (R173, R174). -/
structure MemReq where
  op : MemOp
  dpa : Nat
  log2 : Nat
  signed : Bool
  data : Word
  va : Word
  /-- For host memory: port, function, host address, No Snoop, Relaxed Ordering (R229). -/
  host : Option (Nat × Nat × Nat × Bool × Bool)
deriving DecidableEq, Repr

/-- A core access's answer (R514, R317): a value, or the line of a fetch, with its store address and whether none of its words holds an
error. -/
inductive MemAns where
  | value (v : Word)
  | line (addr : Nat) (bytes : List Byte) (clean : Bool)
  | poison
  | fault (code : Half)
deriving DecidableEq, Repr

/-- The kinds of command a core issues (R189, R281, R433). -/
inductive CmdKind where
  | te | sua | rlu | copy | steer
deriving DecidableEq, Repr

/-- A doorbell notice of Lantern (R453): partition, function, ring, the word's value, and the tick in which the change was
observed. -/
structure DbNotice where
  part : Nat
  port : Nat
  func : Nat
  ring : Nat
  cq : Bool
  value : Word
  tick : Word
deriving DecidableEq, Repr

/-- What a packet carries (R293). -/
inductive Payload where
  | beacon (op : BOp) (agent : Agent) (tag : Nat)
  | beaconAns (ans : BAns) (agent : Agent) (tag : Nat)
  | mem (r : MemReq) (core tag : Nat)
  | memAns (a : MemAns) (core tag : Nat)
  /-- A 64-byte line, or a part of one, that a block other than a core reads or writes (R287, R293, R306): the tag of the access, the
  store address and length, and whether it is written. -/
  | line (write : Bool) (dpa n tag : Nat)
  /-- The answer to a line's request (R293); it may carry a code (R317). -/
  | lineAns (tag : Nat) (code : Option Half)
  | cmd (k : CmdKind) (c : CmdRef)
  | flip (model req rec : Nat)
  | dense (m : DenseMsg)
  | posMap (req : Nat) (pos : List Nat)
  | phase (srid k : Nat) (t : Nat)
  | event (e : EventRec)
  | doorbell (n : DbNotice)
  | eventNotice (sp : Nat) (stream event slot : Nat)
  | launch (req tick : Nat)
  | launchGo (req tick : Nat)
  | launchArmed (req die : Nat)
  | completion (desc : Nat)
  | cmdDone (core : Nat)
  /-- The response to a command's packet (R293): it has been taken; or it was not delivered (R317). -/
  | cmdTaken (tag : Nat)
  | cmdFenced (c : CmdRef) (tag : Nat)
deriving DecidableEq, Repr

/-- Block kinds a multicast names (R300). -/
inductive BlockKind where
  | ctlN | ctlS | hc | sp | hp | sl | sc | te | ms | routerOnly
deriving DecidableEq, Repr

/-- Where a packet goes: one node, or the nodes of a kind in a rectangle on the dies of a mask (R300). -/
inductive Dest where
  | node (n : Nat)
  | rect (x0 x1 y0 y1 dieMask : Nat) (kind : Option BlockKind)
deriving DecidableEq, Repr

/-- A packet (R286, R287, R321). `start` is the router cycle (8 x tick + cycle) from which it may enter its router. An entry of
a queue stands for the flits from `first` up to, but not with, `last`: those before have entered (R326), those after have not crossed a link
yet (R355). -/
structure Packet where
  id : Nat
  src : Nat
  dst : Dest
  vc : Nat
  flits : Nat
  part : Option Nat
  req : Option Nat
  tickRel : Bool
  srid : Option Nat
  payload : Payload
  /-- A data word of it has met an uncorrectable error on a link (R315). -/
  poison : Bool
  start : Nat
  first : Nat
  last : Nat
deriving DecidableEq, Repr

/-- A flit in an input buffer: its packet, its index, the router cycle it entered (8 x tick + cycle) and the outputs that
have still to send it (R301). -/
structure BufFlit where
  pkt : Packet
  idx : Nat
  entered : Nat
  outs : List Port
deriving DecidableEq, Repr

/-- A flit on a crossing, and the router cycle (8 x tick + cycle) in which it is handed over (R30, R290, R336). -/
structure CrossFlit where
  pkt : Packet
  idx : Nat
  due : Nat
deriving DecidableEq, Repr

/-- An input buffer's name: node, input port, VC, tick-released (R289). -/
structure BufKey where
  node : Nat
  inp : Port
  vc : Nat
  rel : Bool
deriving DecidableEq, Repr

/-- What an output port has done in its tick (R294): the tick, the next free cycle, VC0 flits and other flits sent by
kind, and the packet each VC and kind is in the middle of (R287). -/
structure PortTick where
  tick : Nat
  nextCycle : Nat
  vc0Rel : Nat
  vc0Free : Nat
  nRel : Nat
  nFree : Nat
  open_ : List (Nat × Bool × Nat)
deriving DecidableEq, Repr

/-- A phase a port knows (R339): the running phase and its start tick, and a notice that has not begun. -/
structure PortPhase where
  phase : Nat
  start : Nat
  noted : Option (Nat × Nat × Bool)
deriving DecidableEq, Repr

/-- A Beacon cell (R185, R502). -/
structure Cell where
  v : Word32
  poison : Bool
  ue : Bool
deriving DecidableEq, Repr

/-- A barrier counter (R186): generation, arrivals and latched count. -/
structure Counter where
  gen : Half
  arrivals : Nat
  latched : Option Nat
  poison : Bool
  ue : Bool
deriving DecidableEq, Repr

/-- A watch entry (R183, R311): cell or counter, condition, who waits and its tag; `ready` once its answer is due. -/
structure Watch where
  bar : Bool
  cell : Nat
  cond : WaitCond
  agent : Agent
  src : Nat
  tag : Nat
  part : Option Nat
  req : Option Nat
  rel : Bool
  answer : Option Word
deriving DecidableEq, Repr

/-- A port block of an installed schedule image (R344). -/
structure SchedPort where
  node : Nat
  port : Nat
  phase : Nat
  mask : Nat
  pattern : List Nat
deriving DecidableEq, Repr

/-- An installed scheduled region (R332 to R346). `removal` is set from the tick in which a SCHED_REMOVE of it is taken; `removing` is the descriptor of a SCHED_REMOVE that has been taken (R346). -/
structure Sched where
  srid : Nat
  part : Nat
  dieMask : Nat
  phases : List (Nat × Nat × Nat)
  ports : List SchedPort
  active : Bool
  broken : Bool
  running : Option Nat
  phase : Nat
  phaseStart : Nat
  late : Nat
  lateLogged : Bool
  removal : Bool
  removing : Option Nat
deriving DecidableEq, Repr

/-- A contender that waits for a CMEM bank (R299): SC, bank, its position among the twelve contenders, the tick in which its request
arrived, and what asks: the pc of a core, the identifier of a packet. -/
structure BankWait where
  sc : Nat
  bank : Nat
  pos : Nat
  since : Nat
  mark : Nat
deriving DecidableEq, Repr

/-- An access that awaits its answer (R316): its tag, requester, request, target node, the tick of issue, and what its
trap puts into mtval. -/
structure AwaitEnt where
  tag : Nat
  agent : Agent
  req : Option Nat
  dst : Nat
  issued : Nat
  cause : Nat
  tval : Word
deriving DecidableEq, Repr

/-- The network. Ports are keyed by node and port; meters by (partition, 16 x die + resource, node x 8 + port). -/
structure Net where
  nextId : Nat
  /-- Packets a block has handed to its router and that wait for a buffer slot or a meter (R289, R326). -/
  inject : Tbl Nat (List Packet)
  bufs : Tbl BufKey (List BufFlit)
  /-- The router cycle in which each local input last took flits, and how many (R288). -/
  injPos : Tbl Nat (Nat × Nat)
  /-- The tick of the last window access of a node to each slice (R308). -/
  winSent : Tbl (Nat × Nat) (Option Nat)
  /-- Slots freed in a router cycle (R289): the cycle and how many. -/
  freed : Tbl BufKey (Nat × Nat)
  schedBufs : Tbl (Nat × Port × Port) (List BufFlit)
  cross : Tbl (Nat × Port) (List CrossFlit)
  ports : Tbl (Nat × Port) PortTick
  phases : Tbl (Nat × Port × Nat) PortPhase
  /-- Phases of a running request that a port has left (R340): phase, start tick and end tick, oldest first. -/
  past : Tbl (Nat × Port × Nat) (List (Nat × Nat × Nat))
  /-- Flits an ejection port has sent and the block has not taken. -/
  eject : Tbl Nat (List BufFlit)
  /-- Operations a home port has delivered (R310). -/
  home : Tbl Nat (List Packet)
  /-- The router cycles in which those operations were delivered, in the same order. -/
  homeDue : Tbl Nat (List Nat)
  /-- The next router cycle in which a Beacon unit may perform an operation (R310), and in which it may answer a watch (R311). -/
  beaconNext : Tbl Nat Nat
  watchNext : Tbl Nat Nat
  near : Tbl (Nat × Nat) (List CrossFlit)
  /-- The latest router cycle of each near link that has taken flits, and how many (R304). -/
  nearPos : Tbl (Nat × Nat) (Nat × Nat)
  /-- Contenders that wait for a CMEM bank, and, by 16 x SC + bank, the tick of the last accesses of a bank and how many it has served
  in it (R299). -/
  bankWaits : List BankWait
  bankUsed : Tbl Nat (Nat × Nat)
  /-- Packets a block has received and not yet acted on, by node. -/
  inbox : Tbl Nat (List Packet)
  cells : Tbl (Nat × Nat) Cell
  counters : Tbl (Nat × Nat) Counter
  watches : Tbl (Nat × Nat) (Option Watch)
  /-- Watch answers in the order they are due (R311). -/
  answersDue : Tbl Nat (List Nat)
  fromSpent : Tbl (Nat × Nat) Nat
  toSpent : Tbl (Nat × Nat × Nat) Nat
  /-- By die, the tick in which its latest window began (R324). -/
  windowAt : Tbl Nat (Option Nat)
  scheds : List Sched
  /-- Outstanding accesses of requesters (R316). -/
  waiting : List AwaitEnt
  /-- Link errors corrected, by node (R315). -/
  linkCe : Tbl Nat Nat
deriving DecidableEq, Repr

end Sys2Proof.Machine
end

