-- ==== Sys2Proof/Machine/NodeMap.lean ====
section
/-! DEFINITION. The node map of R24, node identifiers (R5), tray-wide indices (R25), unit numbers (chapter Faults) and the
link map (R23). Indices are naturals; a node identifier is 64 x die + 8 x y + x. -/

namespace Sys2Proof.Machine

/-- Die of a node identifier (R5). -/
def nodeDie (n : Nat) : Nat := n / 64

/-- Row y of a node identifier (R5). -/
def nodeY (n : Nat) : Nat := n / 8 % 8

/-- Column x of a node identifier (R5). -/
def nodeX (n : Nat) : Nat := n % 8

/-- The identifier of a node (R5). -/
def nodeAt (d x y : Nat) : Nat := 64 * d + 8 * y + x

/-- Whether an identifier names a node: rows 6 and 7 name none (R6). -/
def nodeValid (n : Nat) : Bool := decide (n < 256) && decide (nodeY n ≤ 5)

/-- Nodes of a die in ascending identifier order. -/
def dieNodes (d : Nat) : List Nat := upFrom (64 * d) 48

/-- The nodes of the tray. -/
def allNodes : List Nat := dieNodes 0 ++ dieNodes 1 ++ dieNodes 2 ++ dieNodes 3

/-- The block at each node of a die, row by row (R24): kind and instance. -/
def nodeRow : Nat → List (BlockKind × Nat)
  | 0 => [(.ctlN, 0), (.hc, 0), (.sp, 0), (.hp, 0), (.sl, 1), (.sp, 1), (.hc, 1), (.ms, 4)]
  | 1 => [(.routerOnly, 0), (.sc, 0), (.sc, 1), (.te, 0), (.ms, 0), (.sc, 2), (.sc, 3), (.routerOnly, 0)]
  | 2 => [(.ms, 5), (.sc, 4), (.sc, 5), (.ms, 1), (.te, 1), (.sc, 6), (.sc, 7), (.routerOnly, 0)]
  | 3 => [(.ms, 6), (.sc, 8), (.sc, 9), (.te, 2), (.ms, 2), (.sc, 10), (.sc, 11), (.routerOnly, 0)]
  | 4 => [(.routerOnly, 0), (.sc, 12), (.sc, 13), (.ms, 3), (.te, 3), (.sc, 14), (.sc, 15), (.routerOnly, 0)]
  | 5 => [(.ctlS, 0), (.hc, 2), (.sl, 2), (.routerOnly, 0), (.routerOnly, 0), (.sl, 3), (.hc, 3), (.ms, 7)]
  | _ => []

/-- The block at a node (R24). -/
def blockAt (n : Nat) : BlockKind × Nat := ((nodeRow (nodeY n))[nodeX n]?).getD (.routerOnly, 0)

/-- Local identifiers (die 0) of the blocks of a kind, by instance (SL: k - 1) (R24). -/
def blockNodes : BlockKind → List Nat
  | .ctlN => [0x00]
  | .ctlS => [0x28]
  | .hc => [0x01, 0x06, 0x29, 0x2E]
  | .sp => [0x02, 0x05]
  | .hp => [0x03]
  | .sl => [0x04, 0x2A, 0x2D]
  | .sc => [0x09, 0x0A, 0x0D, 0x0E, 0x11, 0x12, 0x15, 0x16, 0x19, 0x1A, 0x1D, 0x1E, 0x21, 0x22, 0x25, 0x26]
  | .te => [0x0B, 0x14, 0x1B, 0x24]
  | .ms => [0x0C, 0x13, 0x1C, 0x23, 0x07, 0x10, 0x18, 0x2F]
  | .routerOnly => [0x08, 0x0F, 0x17, 0x1F, 0x20, 0x27, 0x2B, 0x2C]

/-- The node of instance `i` of a kind on die `d`. -/
def nodeOf (k : BlockKind) (d i : Nat) : Nat := 64 * d + (blockNodes k).getD i 0

/-- Node of an SC by its tray-wide index (R25). -/
def scNode (sc : Nat) : Nat := nodeOf .sc (sc / 16) (sc % 16)

/-- Node of a TE by its tray-wide index (R25). -/
def teNode (te : Nat) : Nat := nodeOf .te (te / 4) (te % 4)

/-- Node of an MS by its tray-wide index (R25). -/
def msNode (ms : Nat) : Nat := nodeOf .ms (ms / 8) (ms % 8)

/-- Node of an HC by its tray-wide index (R25). -/
def hcNode (hc : Nat) : Nat := nodeOf .hc (hc / 4) (hc % 4)

/-- Node of a stream port by its tray-wide index. -/
def spNode (sp : Nat) : Nat := nodeOf .sp (sp / 2) (sp % 2)

/-- Node of the host port of a die. -/
def hpNode (d : Nat) : Nat := nodeOf .hp d 0

/-- Node of the CTL-N of a die. -/
def ctlNode (d : Nat) : Nat := nodeOf .ctlN d 0

/-- Node of a core by its tray-wide index (R175). -/
def coreNode (c : Nat) : Nat := scNode (c / 8)

/-- The tray-wide index of the SC at a node. -/
def scAt (n : Nat) : Option Nat :=
  match blockAt n with
  | (.sc, i) => some (16 * nodeDie n + i)
  | _ => none

/-- The tray-wide index of the TE at a node. -/
def teAt (n : Nat) : Option Nat :=
  match blockAt n with
  | (.te, i) => some (4 * nodeDie n + i)
  | _ => none

/-- The tray-wide index of the MS at a node. -/
def msAt (n : Nat) : Option Nat :=
  match blockAt n with
  | (.ms, i) => some (8 * nodeDie n + i)
  | _ => none

/-- The tray-wide index of the HC at a node. -/
def hcAt (n : Nat) : Option Nat :=
  match blockAt n with
  | (.hc, i) => some (4 * nodeDie n + i)
  | _ => none

/-- The tray-wide index of the stream port at a node. -/
def spAt (n : Nat) : Option Nat :=
  match blockAt n with
  | (.sp, i) => some (2 * nodeDie n + i)
  | _ => none

/-- The unit number on its die of the block at a node, where it is a unit (chapter Faults). -/
def unitAt (n : Nat) : Option Nat :=
  match blockAt n with
  | (.sc, i) => some i
  | (.te, i) => some (16 + i)
  | (.ms, i) => some (20 + i)
  | (.hc, i) => some (28 + i)
  | (.sl, k) => some (31 + k)
  | _ => none

/-- The node of unit `u` of die `d`. -/
def unitNode (d u : Nat) : Nat :=
  if u < 16 then nodeOf .sc d u
  else if u < 20 then nodeOf .te d (u - 16)
  else if u < 28 then nodeOf .ms d (u - 20)
  else if u < 32 then nodeOf .hc d (u - 28)
  else nodeOf .sl d (u - 32)

/-- The link index between two dies: link k of die d reaches die d XOR k (R23). -/
def linkIndex (a b : Nat) : Nat := a ^^^ b

/-- Key of the link between two dies: 4 x lower + higher. -/
def linkKey (a b : Nat) : Nat := if a ≤ b then 4 * a + b else 4 * b + a

/-- Key of the direction from die `a` to die `b`. -/
def dirKey (a b : Nat) : Nat := 4 * a + b

/-- The neighbour of a node through a mesh port, where there is one. -/
def neighbour (n : Nat) : Port → Option Nat
  | .n => if nodeY n = 0 then none else some (n - 8)
  | .s => if 5 ≤ nodeY n then none else some (n + 8)
  | .e => if nodeX n = 7 then none else some (n + 1)
  | .w => if nodeX n = 0 then none else some (n - 1)
  | _ => none

/-- The input port at which a flit sent through a mesh output arrives. -/
def opposite : Port → Port
  | .n => .s
  | .s => .n
  | .e => .w
  | .w => .e
  | p => p

/-- A vertical link between rows 2 and 3 is a seam link (R22). -/
def isSeam (n : Nat) (p : Port) : Bool :=
  match p with
  | .s => decide (nodeY n = 2)
  | .n => decide (nodeY n = 3)
  | _ => false

/-- Number of a port in a schedule image (R344), and the position of an input under the tie rule (R297). -/
def portNo : Port → Nat
  | .l => 0
  | .n => 1
  | .e => 2
  | .s => 3
  | .w => 4
  | .h => 5
  | .sx => 6

/-- The port a schedule image names (R344). -/
def portOfNo : Nat → Option Port
  | 0 => some .l
  | 1 => some .n
  | 2 => some .e
  | 3 => some .s
  | 4 => some .w
  | 5 => some .h
  | 6 => some .sx
  | _ => none

/-- Two SCs, by tray-wide index, joined by a near link (R303). -/
def nearLink (a b : Nat) : Bool :=
  decide (a / 16 = b / 16) && decide (a ≠ b)
    && (decide (a / 2 = b / 2) || (decide (a % 8 < 4) && decide (b = a + 4)) || (decide (b % 8 < 4) && decide (a = b + 4)))

end Sys2Proof.Machine
end

