-- ==== Sys2Proof/Machine/Operands.lean ====
section
/-! DEFINITION. Operands of the cores: the registers of Xzor instructions (R178, R179), and which encodings a core implements
(R171). -/

namespace Sys2Proof.Machine

/-! ### Registers -/

/-- An integer register; x0 reads 0. -/
def Core.reg (k : Core) (r : RegNo) : Word := if r = 0 then 0 else k.x.get r.val

/-- A core with a value in an integer register; x0 ignores it. -/
def Core.setReg (k : Core) (r : Nat) (v : Word) : Core := if r = 0 then k else { k with x := k.x.set r v }

/-- An instruction of `len` bytes is done: the next one follows it. -/
def Core.advance (k : Core) (len : Nat) : Core := { k with pc := k.pc + BitVec.ofNat 64 len }

/-! ### Operand fields (R179) -/

/-- A flag operand: node and cell; none where a bit outside its fields is set. -/
def flagOperand (v : Nat) : Option (Nat × Nat) := if v < 2 ^ 14 then some (bitsOf v 13 6, bitsOf v 5 0) else none

/-- A barrier operand: node and counter. -/
def barrierOperand (v : Nat) : Option (Nat × Nat) := if v < 2 ^ 12 then some (bitsOf v 11 4, bitsOf v 3 0) else none

/-- A lock operand: die and index. -/
def lockOperand (v : Nat) : Option (Nat × Nat) := if v < 2 ^ 10 then some (bitsOf v 9 8, bitsOf v 7 0) else none

/-- A target operand: node, and the notify flag as a flag operand where NOTIFY is set. -/
def targetOperand (v : Nat) : Option (Nat × Option Nat) :=
  if v < 2 ^ 23 then some (bitsOf v 7 0, if bitOf v 22 then some (bitsOf v 21 8) else none) else none

/-- A count operand: participants. -/
def countOperand (v : Nat) : Option Nat := if v < 2 ^ 16 then some v else none

/-- A record VA: a device virtual address. -/
def recordOperand (v : Nat) : Option Nat := if v < 2 ^ 57 then some v else none

/-- The low 32 bits of a register. -/
def low32 (v : Word) : Word32 := BitVec.ofNat 32 v.toNat

/-! ### Encodings a core implements (R171, R178) -/

/-- An encoding of the Xzor table (R178): funct3, funct5, aq allowed, rl allowed, and which of rd, rs1, rs2 must be x0. -/
structure XzorRow where
  funct3 : Nat
  funct5 : Nat
  aq : Bool
  rl : Bool
  rdZero : Bool
  rs1Zero : Bool
  rs2Zero : Bool
deriving DecidableEq, Repr

/-- The Xzor instructions (R178). -/
def xzorTable : List XzorRow :=
  [⟨0, 0, true, false, false, false, true⟩, ⟨0, 1, true, true, false, false, false⟩, ⟨0, 2, true, false, false, false, false⟩,
   ⟨0, 3, true, false, false, false, false⟩, ⟨0, 4, true, false, false, false, false⟩,
   ⟨1, 0, false, false, false, false, false⟩, ⟨1, 1, false, false, false, false, false⟩,
   ⟨2, 0, false, false, false, false, true⟩, ⟨2, 1, false, false, false, false, false⟩, ⟨2, 2, false, false, false, false, true⟩,
   ⟨3, 0, false, false, true, false, false⟩, ⟨3, 1, false, false, true, false, false⟩, ⟨3, 2, false, false, true, false, false⟩,
   ⟨4, 0, false, false, false, true, true⟩, ⟨4, 1, false, false, true, true, true⟩, ⟨4, 2, false, false, true, true, true⟩,
   ⟨4, 3, false, false, true, true, true⟩]

/-- Whether a custom-0 word is an Xzor instruction. -/
def xzorLegal (w : Nat) : Bool :=
  xzorTable.any (fun r =>
    decide (bitsOf w 14 12 = r.funct3) && decide (bitsOf w 31 27 = r.funct5)
      && (r.aq || !bitOf w 26) && (r.rl || !bitOf w 25)
      && (!r.rdZero || decide (bitsOf w 11 7 = 0)) && (!r.rs1Zero || decide (bitsOf w 19 15 = 0))
      && (!r.rs2Zero || decide (bitsOf w 24 20 = 0)))

/-- The CSRs of a core: the machine registers of the privileged architecture (PRESUMED, assumption log 9) and the two of Xzor. -/
def csrList : List Nat :=
  [0x300, 0x301, 0x304, 0x305, 0x340, 0x341, 0x342, 0x343, 0x344, 0xF11, 0xF12, 0xF13, 0xF14, 0x800, 0xCC0]

/-- Whether a CSR instruction names a CSR that exists, that the mode may reach, and that it does not write where it is
read-only. -/
def csrLegal (md : Mode) (w : Nat) : Bool :=
  let a := bitsOf w 31 20
  let writes := decide (bitsOf w 13 12 = 1) || decide (bitsOf w 19 15 ≠ 0)
  csrList.contains a && (decide (md = .m) || decide (bitsOf a 9 8 = 0)) && !(writes && decide (bitsOf a 11 10 = 3))

/-- Whether a 16-bit encoding is of the C extension of RV64 without floating point. -/
def compressedLegal (c : Nat) : Bool :=
  let f3 := bitsOf c 15 13
  let rd := bitsOf c 11 7
  let rs2 := bitsOf c 6 2
  match c % 4, f3 with
  | 0, 0 => decide (bitsOf c 12 5 ≠ 0)
  | 0, 2 | 0, 3 | 0, 6 | 0, 7 => true
  | 1, 0 | 1, 2 | 1, 5 | 1, 6 | 1, 7 => true
  | 1, 1 => decide (rd ≠ 0)
  | 1, 3 => bitOf c 12 || decide (rs2 ≠ 0)
  | 1, 4 => !(decide (bitsOf c 11 10 = 3) && bitOf c 12 && bitOf c 6)
  | 2, 0 | 2, 6 | 2, 7 => true
  | 2, 2 | 2, 3 => decide (rd ≠ 0)
  | 2, 4 => bitOf c 12 || decide (rs2 ≠ 0) || decide (rd ≠ 0)
  | _, _ => false

/-- Whether an OP or OP-32 function is of RV64I or M. -/
def opLegal (f7 f3 : Nat) (word : Bool) : Bool :=
  if f7 = 0 then !word || [0, 1, 5].contains f3
  else if f7 = 0x20 then [0, 5].contains f3
  else decide (f7 = 1) && (!word || [0, 4, 5, 6, 7].contains f3)

/-- Whether a system word is ECALL, EBREAK, MRET in M-mode, WFI, or a legal CSR instruction. -/
def systemLegal (md : Mode) (w : Nat) : Bool :=
  match bitsOf w 14 12 with
  | 0 => [0x00000073, 0x00100073, 0x10500073].contains w || (decide (w = 0x30200073) && decide (md = .m))
  | 4 => false
  | _ => csrLegal md w

/-- Whether an AMO word is of the A extension. -/
def amoLegal (w : Nat) : Bool :=
  let f5 := bitsOf w 31 27
  [2, 3].contains (bitsOf w 14 12)
    && (if f5 = 2 then decide (bitsOf w 24 20 = 0) else [0, 1, 3, 4, 8, 0xC, 0x10, 0x14, 0x18, 0x1C].contains f5)

/-- Whether a core in a mode implements an encoding: RV64I, M, A, C, Zicsr or Xzor (R171). -/
def encodingLegal (md : Mode) (word : Word32) : Bool :=
  let w := word.toNat
  let f3 := bitsOf w 14 12
  let f7 := bitsOf w 31 25
  if w % 4 ≠ 3 then compressedLegal (w % 65536)
  else match bitsOf w 6 0 with
    | 0x37 | 0x17 | 0x6F => true
    | 0x67 => decide (f3 = 0)
    | 0x63 => !([2, 3].contains f3)
    | 0x03 => decide (f3 ≠ 7)
    | 0x23 => decide (f3 ≤ 3)
    | 0x13 => if f3 = 1 then decide (bitsOf w 31 26 = 0) else if f3 = 5 then [0, 0x10].contains (bitsOf w 31 26) else true
    | 0x1B => decide (f3 = 0) || (decide (f3 = 1) && decide (f7 = 0)) || (decide (f3 = 5) && [0, 0x20].contains f7)
    | 0x33 => opLegal f7 f3 false
    | 0x3B => opLegal f7 f3 true
    | 0x0F => decide (f3 = 0)
    | 0x73 => systemLegal md w
    | 0x2F => amoLegal w
    | 0x0B => xzorLegal w
    | _ => false

end Sys2Proof.Machine
end

