-- ==== Sys2Proof/Machine/Dpa.lean ====
section
/-! DEFINITION. The device physical address map (R224, R225, R636), the uniform-interleave hash (R307), the protected
words (R211), and memory as bytes in canonical form. -/

namespace Sys2Proof.Machine

/-- What a DPA names (R224): a stack offset, a slice offset, a CMEM offset or a tile offset, each with its tray-wide
index, or a hole. -/
inductive Place where
  | hbm (hc off : Nat)
  | edram (ms off : Nat)
  | cmem (sc off : Nat)
  | tile (te off : Nat)
  | cst (sc off : Nat)
  | hole
deriving DecidableEq, Repr

/-- Slice and slice offset of a window offset (R307). -/
def uniformSlice (w : Nat) : Nat × Nat :=
  let f := [9, 12, 15, 18, 21, 24, 27].foldl (fun f lo => f ^^^ (w / 2 ^ lo % 8)) 0
  ((w / 64 % 8) ^^^ f, w / 512 * 64 + w % 64)

/-- The place of a store address: a DPA (R224), or a byte of a coupling store at 2^40 + sc x 2^22 + off. -/
def placeOf (a : Nat) : Place :=
  if a < 0x8000000000 then
    (if a % 0x800000000 < 0x600000000 then .hbm (a / 0x800000000) (a % 0x800000000) else .hole)
  else if a < 0x8040000000 then .edram ((a - 0x8000000000) / 0x2000000) ((a - 0x8000000000) % 0x2000000)
  else if 0x8080000000 ≤ a ∧ a < 0x80C0000000 then
    (let d := (a - 0x8080000000) / 0x10000000
     let r := uniformSlice ((a - 0x8080000000) % 0x10000000)
     .edram (8 * d + r.1) r.2)
  else if 0x8100000000 ≤ a ∧ a < 0x8108000000 then .cmem ((a - 0x8100000000) / 0x200000) ((a - 0x8100000000) % 0x200000)
  else if 0x8110000000 ≤ a ∧ a < 0x8114000000 then .tile ((a - 0x8110000000) / 0x400000) ((a - 0x8110000000) % 0x400000)
  else if 0x10000000000 ≤ a ∧ a < 0x10010000000 then .cst ((a - 0x10000000000) / 0x400000) ((a - 0x10000000000) % 0x400000)
  else .hole

/-- The store address of a place. -/
def Place.addr : Place → Nat
  | .hbm hc off => hc * 0x800000000 + off
  | .edram ms off => 0x8000000000 + ms * 0x2000000 + off
  | .cmem sc off => 0x8100000000 + sc * 0x200000 + off
  | .tile te off => 0x8110000000 + te * 0x400000 + off
  | .cst sc off => 0x10000000000 + sc * 0x400000 + off
  | .hole => 0

/-- The one address of a byte: an address of the uniform-interleave window is that of its slice byte (R224). -/
def normAddr (a : Nat) : Nat :=
  match placeOf a with
  | .hole => a
  | p => p.addr

/-- Store address of a CMEM byte. -/
def cmemAddr (sc off : Nat) : Nat := (Place.cmem sc off).addr

/-- Store address of a coupling store byte. -/
def cstAddr (sc off : Nat) : Nat := (Place.cst sc off).addr

/-- Store address of a slice byte. -/
def edramAddr (ms off : Nat) : Nat := (Place.edram ms off).addr

/-- Store address of a tile memory byte. -/
def tileAddr (te off : Nat) : Nat := (Place.tile te off).addr

/-- System memory of die `d` (R225): base of its 512 MiB. -/
def sysBase (d : Nat) : Nat := 4 * d * 0x800000000 + 0x5E0000000

/-- Whether a store address lies in the system memory of a die, and which (R225). -/
def sysDie (a : Nat) : Option Nat :=
  match placeOf a with
  | .hbm hc off => if hc % 4 = 0 ∧ 0x5E0000000 ≤ off then some (hc / 4) else none
  | _ => none

/-- Die and unit number of the unit that holds a store address (chapter Faults). -/
def addrUnit (a : Nat) : Option (Nat × Nat) :=
  match placeOf a with
  | .hbm hc _ => some (hc / 4, 28 + hc % 4)
  | .edram ms _ => some (ms / 8, 20 + ms % 8)
  | .cmem sc _ => some (sc / 16, sc % 16)
  | .tile te _ => some (te / 4, 16 + te % 4)
  | .cst sc _ => some (sc / 16, sc % 16)
  | .hole => none

/-- Memory kind of R527: 0 HBM, 1 eDRAM, 2 CMEM, 3 tile memory, 4 CST. -/
def memKind (a : Nat) : Nat :=
  match placeOf a with
  | .hbm .. => 0
  | .edram .. => 1
  | .cmem .. => 2
  | .tile .. => 3
  | .cst .. => 4
  | .hole => 5

/-- ARG1 of a memory event (R527): the line's DPA, or the CST offset with bit 63 set. -/
def memArg (a : Nat) : Nat :=
  match placeOf a with
  | .cst _ off => 2 ^ 63 + off / 64 * 64
  | _ => a / 64 * 64

/-- Bytes of a protected word at an address (R211): 32 in HBM, 8 elsewhere. -/
def wordBytes (a : Nat) : Nat :=
  match placeOf a with
  | .hbm .. => 32
  | _ => 8

/-- The first byte of the protected word that holds an address. -/
def wordAt (a : Nat) : Nat := a / wordBytes a * wordBytes a

/-- The bank or pseudo channel a word belongs to for R505 and R635, with its unit, as one number. -/
def corrBank (a : Nat) : Nat :=
  match placeOf a with
  | .hbm hc off => hc * 32 + off / 256 % 32
  | .edram ms off => 0x10000 + ms * 32 + off / 1024 % 32
  | .cmem sc off => 0x20000 + sc * 16 + off / 8 % 16
  | .tile te off => 0x30000 + te * 16 + off / 8 % 16
  | .cst sc off => 0x40000 + sc * 16 + off / 8 % 16
  | .hole => 0x50000

/-! ### Memory as bytes -/

/-- The byte at an address; an address that is not listed reads 0 (R598). -/
def readCell : List Host.Cell → Nat → Byte
  | [], _ => 0
  | c :: cs, a => if c.1 = a then c.2 else if a < c.1 then 0 else readCell cs a

/-- The list with a byte at an address, kept in canonical form: a zero byte is not listed. -/
def writeCell : List Host.Cell → Nat → Byte → List Host.Cell
  | [], a, b => if b = 0 then [] else [(a, b)]
  | c :: cs, a, b =>
    if a < c.1 then (if b = 0 then c :: cs else (a, b) :: c :: cs)
    else if c.1 = a then (if b = 0 then cs else (a, b) :: cs)
    else c :: writeCell cs a b

/-- The canonical form: addresses strictly rising, no zero byte listed. -/
def cellsWf : List Host.Cell → Bool
  | [] => true
  | [c] => decide (c.2 ≠ 0)
  | c :: c' :: cs => decide (c.2 ≠ 0) && decide (c.1 < c'.1) && cellsWf (c' :: cs)

/-- Whether memory is in its canonical form. -/
def Mem.wf (m : Mem) : Bool := cellsWf m.cells

/-- The byte at a store address. -/
def Mem.byte (m : Mem) (a : Nat) : Byte := readCell m.cells (normAddr a)

/-- The `n` bytes from a store address. -/
def Mem.bytes (m : Mem) (a n : Nat) : List Byte := (List.range n).map (fun i => m.byte (a + i))

/-- Memory with a byte at a store address. -/
def Mem.setByte (m : Mem) (a : Nat) (b : Byte) : Mem := { m with cells := writeCell m.cells (normAddr a) b }

/-- Memory with bytes from a store address, whatever errors the words hold. -/
def Mem.put (m : Mem) : Nat → List Byte → Mem
  | _, [] => m
  | a, b :: bs => (m.setByte a b).put (a + 1) bs

/-- The mark of the word that holds an address. -/
def Mem.markAt (m : Mem) (a : Nat) : Option ErrMark := m.marks.get? (wordAt (normAddr a))

/-- Whether the word that holds an address has an uncorrectable error, found or not (R503, R506). -/
def Mem.bad (m : Mem) (a : Nat) : Bool :=
  match m.markAt a with
  | some .ue | some .poison => true
  | _ => false

/-- First bytes of the words that a run of `n` bytes at `a` touches, before normalisation. -/
def wordStarts (a n : Nat) : List Nat :=
  let wb := wordBytes a
  (List.range (if n = 0 then 0 else (a + n - 1) / wb - a / wb + 1)).map (fun i => a / wb * wb + i * wb)

/-- The words that a run of `n` bytes at `a` touches, by their first byte. -/
def wordsOf (a n : Nat) : List Nat := (wordStarts a n).map normAddr

/-- Words that a write of `n` bytes at `a` replaces whole (R504). -/
def wholeWords (a n : Nat) : List Nat :=
  ((wordStarts a n).filter (fun w => decide (a ≤ w) && decide (w + wordBytes a ≤ a + n))).map normAddr

/-- Every word of the 64-byte line of an address gets the poison syndrome (R503). -/
def Mem.poisonLine (m : Mem) (a : Nat) : Mem :=
  let l := normAddr a / 64 * 64
  { m with marks := (List.range (64 / wordBytes l)).foldl (fun k i => k.set (l + i * wordBytes l) .poison) m.marks }

/-- Zero data with valid check bits over the 64-byte line of an address (R512). -/
def Mem.zeroLine (m : Mem) (a : Nat) : Mem :=
  let l := normAddr a / 64 * 64
  { (m.put l (zeros 64)) with marks := m.marks.filter (fun w _ => !decide (l ≤ w ∧ w < l + 64)) }

/-- Memory with nothing listed and no error in the store addresses that satisfy `p`. -/
def Mem.clear (m : Mem) (p : Nat → Bool) : Mem :=
  ⟨m.cells.filter (fun c => !p c.1), m.marks.filter (fun w _ => !p w)⟩

end Sys2Proof.Machine
end

