-- ==== Sys2Proof/Machine/Codes.lean ====
section
/-! DEFINITION. The codes of R531 with their values, and the severity each event record carries (R526; which severity a code
has is the model's reading, assumption log 4). -/

namespace Sys2Proof.Machine

/-- The codes the tray reports (R531). -/
inductive Code where
  | ok
  | netFlitUe
  | netTimeout
  | netDestFenced
  | netMcastRange
  | regionOverlap
  | shareOver
  | schedFormat
  | schedOutside
  | schedConflict
  | schedLate
  | schedBroken
  | schedAbsent
  | linkReplay
  | linkDegraded
  | linkDown
  | launchLate
  | launchForm
  | tickSlip
  | pulseLost
  | admitShort
  | admitMode
  | progFormat
  | modelAbsent
  | cstFormat
  | cstRefRange
  | cstColourClash
  | zcgKatFail
  | coreTrap
  | lockBroken
  | teQueueFull
  | teCmdFormat
  | teExactFp32
  | teExactOff
  | teExactTerms
  | ghRange
  | ghNotPinned
  | ghTableFormat
  | ghNotMapped
  | ghAgent
  | ghPerm
  | ghTarget
  | ghAllot
  | ghAtomic
  | ghPinOver
  | rluQueueFull
  | rluFormat
  | rluHoldLong
  | rluBank
  | copyQueueFull
  | copyFormat
  | tdOwner
  | memCe
  | memUe
  | memPoison
  | ueScrub
  | ueLimit
  | scrubBehind
  | hbmTrainFail
  | strLinkDown
  | strLinkUp
  | strBindFormat
  | strBindDup
  | strBindFull
  | strUnbound
  | strGap
  | strRingFull
  | strSteerFormat
  | strSteerFull
  | strTxDown
  | strPtpGm
  | hpLinkDown
  | hpLinkUp
  | hpFlr
  | hpCplTimeout
  | hpUr
  | lanternFull
  | hpCacheFull
  | hpMemwinOverlap
  | hpMemwinLost
  | descFormat
  | ringFormat
  | ringOverrun
  | runArmFull
  | cfgBusy
  | cfgDenied
  | cfgNoSpace
  | spindleHealth
  | spindleRetired
  | entropyUnavail
  | lcTorn
  | lcDenied
  | imageAuthFail
  | debugUnlock
  | noService
  | stateSplit
  | mgtOffline
  | mgtOnline
  | throttle
  | powerLimit
  | coolantTemp
  | coolantFlow
  | wardenLost
  | fwUpdate
  | unitFenced
  | dieFenced
  | unitInternal
  | detNotExact
  | detTimingOpen
  | trailFull
  | replayMode
  | replayShape
  | replayStep
  | replayInput
deriving DecidableEq, Repr

/-- The value of a Gatehouse code (R232, R238), whose RESULT and AUX are a DVA and a node (R490). -/
def isGhCode (v : Half) : Bool := decide (v.toNat / 16 = 0x400)

/-- The value of a code (R531). -/
def Code.val : Code → Half
  | .ok => 0x0000
  | .netFlitUe => 0x1001
  | .netTimeout => 0x1002
  | .netDestFenced => 0x1003
  | .netMcastRange => 0x1004
  | .regionOverlap => 0x1010
  | .shareOver => 0x1011
  | .schedFormat => 0x1012
  | .schedOutside => 0x1013
  | .schedConflict => 0x1014
  | .schedLate => 0x1015
  | .schedBroken => 0x1016
  | .schedAbsent => 0x1017
  | .linkReplay => 0x1020
  | .linkDegraded => 0x1021
  | .linkDown => 0x1022
  | .launchLate => 0x1023
  | .launchForm => 0x1024
  | .tickSlip => 0x1030
  | .pulseLost => 0x1031
  | .admitShort => 0x2001
  | .admitMode => 0x2002
  | .progFormat => 0x2003
  | .modelAbsent => 0x2004
  | .cstFormat => 0x2010
  | .cstRefRange => 0x2011
  | .cstColourClash => 0x2012
  | .zcgKatFail => 0x2020
  | .coreTrap => 0x2030
  | .lockBroken => 0x2031
  | .teQueueFull => 0x3001
  | .teCmdFormat => 0x3002
  | .teExactFp32 => 0x3003
  | .teExactOff => 0x3004
  | .teExactTerms => 0x3005
  | .ghRange => 0x4001
  | .ghNotPinned => 0x4002
  | .ghTableFormat => 0x4003
  | .ghNotMapped => 0x4004
  | .ghAgent => 0x4005
  | .ghPerm => 0x4006
  | .ghTarget => 0x4007
  | .ghAllot => 0x4008
  | .ghAtomic => 0x4009
  | .ghPinOver => 0x400A
  | .rluQueueFull => 0x4010
  | .rluFormat => 0x4011
  | .rluHoldLong => 0x4012
  | .rluBank => 0x4013
  | .copyQueueFull => 0x4020
  | .copyFormat => 0x4021
  | .tdOwner => 0x4022
  | .memCe => 0x4030
  | .memUe => 0x4031
  | .memPoison => 0x4032
  | .ueScrub => 0x4033
  | .ueLimit => 0x4034
  | .scrubBehind => 0x4035
  | .hbmTrainFail => 0x4036
  | .strLinkDown => 0x5001
  | .strLinkUp => 0x5002
  | .strBindFormat => 0x5010
  | .strBindDup => 0x5011
  | .strBindFull => 0x5012
  | .strUnbound => 0x5013
  | .strGap => 0x5020
  | .strRingFull => 0x5021
  | .strSteerFormat => 0x5030
  | .strSteerFull => 0x5031
  | .strTxDown => 0x5032
  | .strPtpGm => 0x5040
  | .hpLinkDown => 0x6001
  | .hpLinkUp => 0x6002
  | .hpFlr => 0x6003
  | .hpCplTimeout => 0x6004
  | .hpUr => 0x6005
  | .lanternFull => 0x6010
  | .hpCacheFull => 0x6011
  | .hpMemwinOverlap => 0x6020
  | .hpMemwinLost => 0x6021
  | .descFormat => 0x6030
  | .ringFormat => 0x6031
  | .ringOverrun => 0x6032
  | .runArmFull => 0x6033
  | .cfgBusy => 0x6040
  | .cfgDenied => 0x6041
  | .cfgNoSpace => 0x6042
  | .spindleHealth => 0x7001
  | .spindleRetired => 0x7002
  | .entropyUnavail => 0x7003
  | .lcTorn => 0x7010
  | .lcDenied => 0x7011
  | .imageAuthFail => 0x7020
  | .debugUnlock => 0x7030
  | .noService => 0x8001
  | .stateSplit => 0x8002
  | .mgtOffline => 0x8003
  | .mgtOnline => 0x8004
  | .throttle => 0x8010
  | .powerLimit => 0x8011
  | .coolantTemp => 0x8012
  | .coolantFlow => 0x8013
  | .wardenLost => 0x8020
  | .fwUpdate => 0x8030
  | .unitFenced => 0x8040
  | .dieFenced => 0x8041
  | .unitInternal => 0x8042
  | .detNotExact => 0x9001
  | .detTimingOpen => 0x9002
  | .trailFull => 0x9003
  | .replayMode => 0x9010
  | .replayShape => 0x9011
  | .replayStep => 0x9012
  | .replayInput => 0x9013

/-- Severity of a code's event record (R526): 0 INFO, 1 CORRECTED, 2 REQUEST, 3 DATA, 4 UNIT, 5 DIE, 6 TRAY. -/
def Code.severity : Code → Nat
  | .ok | .schedLate | .strLinkDown | .strLinkUp | .strGap | .strRingFull | .strPtpGm | .hpLinkDown | .hpLinkUp |
    .hpFlr | .cfgBusy | .cfgDenied | .cfgNoSpace | .lcDenied | .trailFull => 0
  | .linkReplay | .memCe => 1
  | .memUe | .memPoison | .ueScrub => 3
  | .linkDegraded | .linkDown | .zcgKatFail | .ueLimit | .scrubBehind | .hbmTrainFail | .spindleHealth |
    .spindleRetired | .stateSplit | .mgtOffline | .mgtOnline | .unitFenced | .unitInternal => 4
  | .tickSlip | .pulseLost | .imageAuthFail | .debugUnlock | .throttle | .powerLimit | .wardenLost | .dieFenced => 5
  | .lcTorn | .noService | .coolantTemp | .coolantFlow | .fwUpdate => 6
  | _ => 2

end Sys2Proof.Machine
end

