-- ==== Sys2Proof/Machine/StateReq.lean ====
section
/-! DEFINITION. State of the Sundya links and of launch (R350 to R372), of rings, descriptors and requests (R470 to
R501), and of the Pebble Trail (R389 to R399). -/

namespace Sys2Proof.Machine

/-- Link states, numbered as NET_LINKSTAT shows them (R372). -/
inductive LinkSt where
  | off | training | up32 | up16 | down
deriving DecidableEq, Repr

/-- STATE of NET_LINKSTAT. -/
def LinkSt.code : LinkSt → Nat
  | .off => 0
  | .training => 1
  | .up32 => 2
  | .up16 => 3
  | .down => 4

/-- A flit in a replay buffer or in flight (R355, R356): its sequence number, packet, index, the router cycle (8 x tick + cycle) in which it
is due at the far die (R353, R354), and how often it has been replayed (R357). -/
structure LinkFlit where
  seq : Nat
  pkt : Packet
  idx : Nat
  due : Nat
  sched : Bool
  replays : Nat
  /-- An uncorrectable error in the replay buffer's copy (R502). -/
  ue : Bool
deriving DecidableEq, Repr

/-- What a word in flight is: a TICK check word (R365), an alignment word (R363), or the READY word of a request's barrier launch (R369). -/
inductive WordKind where
  | check | align
  | ready (req : Nat)
deriving DecidableEq, Repr

/-- A word in flight, with the sender's TICK and the tick of handover (R363, R365, R369); `delayed` once a replay or a retrain has held
it up. -/
structure LinkWord where
  kind : WordKind
  tick : Word
  due : Word
  delayed : Bool
deriving DecidableEq, Repr

/-- One direction of a link (R350 to R356): next sequence number, flits sent and not yet handed over, words in flight, flits sent in the
tick. -/
structure LinkDir where
  nextSeq : Nat
  flight : List LinkFlit
  words : List LinkWord
  sentTick : Nat
  sentCount : Nat
deriving DecidableEq, Repr

/-- One link (R357, R358, R372). `replays` and `degrades` count since the reset of the lower die, `replaysHi` and `degradesHi` since that of
the higher. `retrainStart`: the tick of the lower die in which a retrain under way began; `degrading`: it is that of a degrade (R357). -/
structure Link where
  st : LinkSt
  half : Bool
  replays : Nat
  degrades : Nat
  replaysHi : Nat
  degradesHi : Nat
  errLo : Nat
  errHi : Nat
  retrainStart : Option Nat
  degrading : Bool
  /-- Latest comparison of each end: agree or not (R37), for the lower die and the higher. -/
  cmpLo : Option Bool
  cmpHi : Option Bool
deriving DecidableEq, Repr

/-- Launch of a request (R366 to R371). -/
structure Launch where
  barrier : Bool
  /-- A of R367. -/
  admitted : Nat
  /-- T of R367. -/
  tick : Nat
  armed : List Nat
  goHeld : List Nat
  goSent : Bool
  /-- For each die whose last unit has been armed, the tick by which its own READY, sent to itself over its widest-delay link, would have
  been handed over (R369). -/
  selfReady : List (Nat × Nat)
  started : List (Nat × Nat)
deriving DecidableEq, Repr

/-- Reproducibility modes (R373, R478). -/
inductive RMode where
  | free | fixed | any
deriving DecidableEq, Repr

/-- Steps of a request (R494). -/
inductive ReqStep where
  | arm | waitEvent | waitRegion | launch | run | ending | done
deriving DecidableEq, Repr

/-- A stall logged in a reproducible span (R385, R392): kind, ticks from the launch, cost, node, place. -/
structure Stall where
  kind : Nat
  offset : Nat
  cost : Nat
  node : Nat
  where_ : Nat
deriving DecidableEq, Repr

/-- An input entry of the trail record (R391): kind, index, the length digested, the digest. -/
structure InputEnt where
  kind : Nat
  index : Nat
  len : Nat
  digest : List Byte
deriving DecidableEq, Repr

/-- What a REPLAY replays (R396, R486): REQ_SEQ and launch tick of the record, whether the launch keeps its phase modulo 48,000, the
step it stops at, where its output goes, and the address of the supplied copy of its event (R397). -/
structure ReplayOf where
  seqNo : Nat
  launchTick : Nat
  phase48 : Bool
  step : Nat
  outVa : Nat
  outBytes : Nat
  copyVa : Option Nat
deriving DecidableEq, Repr

/-- A request (R71, R478, R494): identity, mode, container fields, seed, launch, run, and how it ends. -/
structure Request where
  id : Nat
  desc : Nat
  part : Nat
  port : Nat
  func : Nat
  seqNo : Nat
  mode : RMode
  step : ReqStep
  model : Nat
  sprVa : Nat
  outVa : Nat
  outBytes : Nat
  arg : Nat
  entry : Nat
  nodes : List Nat
  pinVa : Nat
  pinCount : Nat
  srid : Option Nat
  progHash : List Byte
  placeHash : List Byte
  seed : List Byte
  drawn : Bool
  live : Bool
  replicas : Nat
  lowered : Bool
  takePartial : Bool
  armIndex : Option Nat
  /-- The taken event: (SP, stream, event, slot, DVA of its record). -/
  event : Option (Nat × Nat × Nat × Nat × Nat)
  launch : Launch
  prog : Option Program
  /-- First error: tick, code, RESULT and AUX (R490, R491). -/
  err : Option (Nat × Half × Word × Nat)
  poisonLogged : Bool
  stalls : List Stall
  /-- Its host-bound writes so far: port, function and Relaxed Ordering (R461). -/
  hostOut : List (Nat × Nat × Bool)
  timingOpen : Bool
  inputs : List InputEnt
  linkUsed : Nat
  linkHalf : Nat
  launchedAt : Option Word
  endedAt : Option Word
  replay : Option ReplayOf
  trailDue : Bool
  /-- The digests of the regions its container declares resident (R391), as of admission. -/
  declared : List (Nat × List Byte)
deriving DecidableEq, Repr

/-- A descriptor that is taken and has not completed (R474 to R477). -/
structure Desc where
  id : Nat
  part : Nat
  sq : Nat
  cq : Nat
  kind : Nat
  bytes : List Byte
  tag : Word
  irqNow : Bool
  port : Nat
  func : Nat
  /-- Its row has acted on it; it may still wait for a condition. -/
  started : Bool
  /-- Its completion ring has been deleted: it makes no entry (R501). -/
  orphan : Bool
  /-- What Steward has read for it and acts on later: the entries of an UPDATE_COUPLINGS (R483). -/
  data : List Byte
deriving DecidableEq, Repr

/-- An entry that is formed and not yet written (R490, R492): the descriptor and ring, the 32 bytes without PHASE, IRQ_NOW;
whether it has reached the port of its ring, whether it still needs a flush, and the read that is its flush (R461). -/
structure DueEntry where
  desc : Nat
  part : Nat
  cq : Nat
  bytes : List Byte
  irqNow : Bool
  arrived : Bool
  flush : Bool
  flushId : Option Nat
deriving DecidableEq, Repr

/-- A notice at Steward (R474): ring, and the count it carries; `seen` once its count has been checked and taken over, while
descriptors of it still wait. -/
structure Notice where
  part : Nat
  ring : Nat
  cq : Bool
  value : Word32
  seen : Bool
deriving DecidableEq, Repr

/-- One ring (R470 to R473, R492, R493). The register fields are in the register file; here are its counts, its state,
and what a CQ has to announce: unannounced entries, the tick of the oldest, and a pending IRQ_NOW. -/
structure Ring where
  st : Nat
  code : Half
  port : Nat
  func : Nat
  tail : Word32
  head : Word32
  write : Word32
  unannounced : Nat
  oldest : Nat
  irqNow : Bool
deriving DecidableEq, Repr

/-- Requests and rings. Ring keys: 128 x partition + 64 x (CQ) + q. Notices by admitting die, descriptors and requests in
the order they were taken. -/
structure ReqSys where
  rings : Tbl Nat Ring
  notices : Tbl Nat (List Notice)
  descs : List Desc
  nextDesc : Nat
  requests : List Request
  nextReq : Nat
  due : List DueEntry
  /-- Requests of each partition so far, for REQ_SEQ (R390). -/
  seqs : Tbl Nat Nat
deriving DecidableEq, Repr

/-- Links by 4 x lower die + higher die, directions by 4 x sender + receiver. -/
structure LinkSys where
  links : Tbl Nat Link
  dirs : Tbl Nat LinkDir
deriving DecidableEq, Repr

end Sys2Proof.Machine
end

