-- ==== Sys2Proof/Machine/StateIo.lean ====
section
/-! DEFINITION. State of the stream ports (R401 to R438) and the PTP instances (R413 to R415), and of the host ports
(R439 to R469). -/

namespace Sys2Proof.Machine

/-- An open event (R420 to R423): its fragments taken so far, its storage, its deadline; `closing` once it has closed
and its write-back is due; the digest engine's state is the bytes in storage. -/
structure Event where
  num : Word
  fragCount : Nat
  refused : Bool
  slot : Nat
  dataOff : Nat
  got : List Nat
  lastLen : Nat
  ghDrop : Bool
  detTrunc : Bool
  user : Nat
  firstTs : Word
  lastTs : Word
  detTime : Word
  deadline : Nat
  /-- The stream state of the event: the 192 bytes as last written back before it opened (R418). -/
  streamState : List Byte
deriving DecidableEq, Repr

/-- A closed event on its way to its record and its notice (R427): status bits, closing tick, whether the record is written and the
notice sent. -/
structure ClosedEvent where
  ev : Event
  status : Nat
  closedAt : Word
  written : Bool
  noticed : Bool
deriving DecidableEq, Repr

/-- A binding (R416, R417): the 64 bytes of the context's binding half, the stream state the port keeps, open events in
opening order and closed ones in slot order, armed RUNs oldest first (R481). -/
structure Binding where
  sp : Nat
  stream : Nat
  part : Nat
  ctxVa : Nat
  half : List Byte
  haveEvent : Bool
  stalled : Bool
  lastEvent : Word
  nextSeq : Nat
  recWrite : Nat
  dataWrite : Nat
  lastRx : Word
  /-- The 16 counters of R417 in order. -/
  counters : List Nat
  writtenBack : List Byte
  refusalLogged : Bool
  /-- The tick of the bind (R424), and REC_READ and DATA_READ as last read (R421). -/
  boundAt : Nat
  recRead : Nat
  dataRead : Nat
  /-- Unbound: it takes no frames and goes once its closed events have been announced (R419). -/
  unbound : Bool
  open_ : List Event
  closed : List ClosedEvent
  armed : List Nat
deriving DecidableEq, Repr

/-- A steering request in the queue (R433, R434). -/
structure SteerReq where
  cmd : CmdRef
  bytes : List Byte
deriving DecidableEq, Repr

/-- A stream port (R403, R431, R434): link, ingress bytes held by partition, steering queue and sequence number. -/
structure Sp where
  linkUp : Bool
  held : Tbl Nat Nat
  steer : List SteerReq
  steerSeq : Word32
deriving DecidableEq, Repr

/-- A digest that is due for a taken event (R430): request, port, stream, event, partition, its stream state, its storage. -/
structure DigestDue where
  req : Nat
  sp : Nat
  stream : Nat
  event : Word
  part : Nat
  state : List Byte
  dataVa : Nat
  dataLen : Nat
deriving DecidableEq, Repr

/-- A die's PTP instance (R413 to R415). -/
structure Ptp where
  grandmaster : Nat
  /-- The last Announce of each sender (R415). -/
  announces : List Announce
  lastSync : Nat
  inLock : Nat
  state : Nat
  gen : Nat
  offset : Word32
  mapTick : Word
  mapNs : Word
  mapStep : Word
  /-- Timestamp of a two-step Sync that waits for its Follow_Up, and of the last Delay_Req. -/
  syncTs : Option (Word × Byte)
  delayReq : Option (Word × Byte)
  /-- What the last Delay_Resp has measured: the Delay_Req's timestamp and the time at which the time transmitter received it. -/
  delay : Option (Word × Byte × Word)
deriving DecidableEq, Repr

/-- State of a cache line a port holds (R450, R455): shared, exclusive, modified or invalid. -/
inductive Mesi where
  | m | e | s | i
deriving DecidableEq, Repr

/-- One armed word of a doorbell line: word, partition, ring, CQ (R449). -/
structure ArmedWord where
  word : Nat
  part : Nat
  ring : Nat
  cq : Bool
  last : Word
deriving DecidableEq, Repr

/-- A Lantern entry (R449 to R451). -/
structure LanternEnt where
  func : Nat
  line : Nat
  words : List ArmedWord
  /-- Snooped away, its re-read under way (R450). -/
  rereading : Bool
  pollDue : Nat
  ue : Bool
deriving DecidableEq, Repr

/-- A held completion line of a CACHE CQ (R455 to R458). -/
structure CcLine where
  func : Nat
  part : Nat
  cq : Nat
  line : Nat
  st : Mesi
  data : List Byte
  holdDue : Option Nat
  /-- RdOwn asked and not granted. -/
  asking : Bool
  /-- DirtyEvict sent, GO_WritePull not yet come (R456, R458). -/
  evicting : Bool
  snooped : Bool
  ue : Bool
  /-- Its ring has been deleted: it is given up and not obtained again. -/
  orphan : Bool
deriving DecidableEq, Repr

/-- Why a port has a host read outstanding: a poll, a flush, or a core's load (R451, R461, R466). -/
inductive HostReadFor where
  | poll (line : Nat)
  | flush (part cq : Nat)
  | core (core tag : Nat)
deriving DecidableEq, Repr

/-- An outbound read (R466): id, function, host address, length, purpose, tick of issue. -/
structure HostRead where
  id : Nat
  func : Nat
  addr : Nat
  len : Nat
  why : HostReadFor
  issued : Nat
deriving DecidableEq, Repr

/-- A host port (R439 to R467). -/
structure Hp where
  linkUp : Bool
  cxl : Bool
  perst : Bool
  lantern : List LanternEnt
  lines : List CcLine
  reads : List HostRead
  nextRead : Nat
  dbDrop : Nat
  nDrop : Nat
  /-- The tick of the last poll read (R451). -/
  lastPoll : Option Nat
  /-- HP_MEMWIN_LOST has been logged (R465). -/
  winLost : Bool
  decoder : Option Nat
  dropped : Nat
  /-- 256-bit masks and pending bits of MSI-X: (function, vector) (R633). -/
  masked : Tbl (Nat × Nat) Bool
  pendingMsi : Tbl (Nat × Nat) Bool
  table : Tbl (Nat × Nat) (Word × Word32)
deriving DecidableEq, Repr

/-- What leaves the tray. -/
inductive Output where
  /-- A host-bound write of a port: function, address, bytes, No Snoop, Relaxed Ordering, Poison. -/
  | hostWrite (port func addr : Nat) (bytes : List Byte) (ns ro ep : Bool)
  /-- An outbound read. -/
  | hostRead (port func addr len id : Nat)
  /-- A read completion to a host: data, with Poison, or an error status. -/
  | hostData (port func : Nat) (bytes : List Byte) (ep : Bool)
  | hostCa (port func : Nat)
  | hostUr (port func : Nat)
  /-- An MSI-X message. -/
  | msix (port func vector : Nat) (addr : Word) (data : Word32)
  /-- CXL.cache messages of a port: RdShared, RdOwn, DirtyEvict, CleanEvict, and answers to snoops. -/
  | cxlReq (port : Nat) (kind : String) (line : Nat)
  | cxlRsp (port : Nat) (kind : String) (line : Nat)
  | cxlData (port line : Nat) (bytes : List Byte) (ep bogus : Bool)
  /-- A frame sent by a stream port, without its FCS. -/
  | frame (sp : Nat) (bytes : List Byte)
  | delayReq (d : Nat)
  /-- An answer on the management path or an SPDM response: responder, completion code, bytes. -/
  | mgmt (who : Nat) (cc : Nat) (bytes : List Byte)
  /-- A PlatformEventMessage to the event receiver (R567). -/
  | platformEvent (eid : Byte) (bytes : List Byte)
deriving DecidableEq, Repr

/-- Streams and host ports; SPs by tray-wide index, HPs by port. -/
structure IoSys where
  sps : Tbl Nat Sp
  bindings : List Binding
  digests : List DigestDue
  ptp : Tbl Nat Ptp
  hps : Tbl Nat Hp
  outputs : List Output
deriving DecidableEq, Repr

end Sys2Proof.Machine
end

