-- ==== Sys2Proof/Machine/StateSys.lean ====
section
/-! DEFINITION. State of the clocks and bring-up (R35 to R39, R593 to R614), the set-up registers (R15 to R20, R615 to
R633), identity and life cycle (R533 to R562), and Warden with power, coolant and firmware (R563 to R592). -/

namespace Sys2Proof.Machine

/-- A die's clock and bring-up. `wraps` counts wraps of TICK since it was last set (R634). `step` is the last step begun
(R605); `age` counts Pulse edges since the core supply was applied (R596), `stepAge` those since the step began. -/
structure DieClk where
  supplied : Bool
  tick : Word
  wraps : Nat
  locked : Bool
  aligned : Bool
  step : Nat
  age : Nat
  stepAge : Nat
  ready : Bool
  resets : Nat
  /-- Which of HC0 to HC3 have trained stacks since the reset (R213). -/
  trained : List Nat
deriving DecidableEq, Repr

/-- Names of the set-up registers (R623 to R627). -/
inductive RegName where
  | glbAdmin | glbTick | glbSelf | glbReady | glbIdent | glbClusterfuse | glbUnitreset | glbLockmap | glbBootmap
  | glbPartreset | rasScrubctl | rasUnitstat | rasEvtbase | rasEvtctl | rasEvtidx | mgtPowerlimit | mgtThrottlestat
  | mgtUnitreq | secLcstate | secImagestat | secClearstat | secSpindlectl | secSpindlestat | secCapctl
  | strPtpctl | strPtpstat | strPtpmapTick | strPtpmapNs | strPtpmapStep | strPhydelay
  | strPortctl | strMac | strSteerdst | strRxquota | strRxframes | strRxlen | strRxfcs | strRxpause | strRxnotmine
  | strRxptp | strRxparse | strRxhdr | strRxunbound | strTxsteer | strTxdrop
  | teModectl | rluSlicestat | netLinkctl | netLinkstat | netShare | netSeamshare | netSchedstat | netRegion
  | hpLanternctl | hpLanternstat | hpMemwin | hpFuncctl | hpAperture
  | memPtbase | memOobdrop | memAllot | detTrailbase | detTrailctl | detTrailidx
  | suaReplicacap | teBudget
  | ringSqctl | ringSqbase | ringSqdb | ringSqidx | ringCqctl | ringCqbase | ringCqdb | ringCqidx | ringCqcoal
deriving DecidableEq, Repr

/-- One register. For a register of a die, `a` is the die, `b` the instance on it (unit, TE, MS, link k, CTL, SP, function,
resource, column, partition), `c` a second index (MEM_ALLOT i, group g, quota half). For a register of a partition, `a`
is the partition and `b` the ring. -/
structure RegKey where
  name : RegName
  a : Nat
  b : Nat
  c : Nat
deriving DecidableEq, Repr

/-- Which units ran in the first cycle of the present tick (R498): tensor engines, locks held, partitions, partitions with a scheduled
region, links by their dies, stream ports, functions by port, windows by port, and dies whose raw capture runs. -/
structure RunSnap where
  tes : List Nat
  locks : List Nat
  parts : List Nat
  regions : List Nat
  links : List (Nat × Nat)
  ports : List Nat
  funcs : List (Nat × Nat)
  windows : List Nat
  captures : List Nat
deriving DecidableEq, Repr

/-- No unit runs. -/
def RunSnap.none : RunSnap := ⟨[], [], [], [], [], [], [], [], []⟩

/-- The register file. `vis` is what a read returns, shadows included; `app` what the hardware uses; a register in
neither has its reset value. `due`: registers whose LIVE and LOCKED fields take effect at the next tick (R497). `holds`
are lower halves by function and register (R16), `latches` the upper halves of GLB_TICK (R629), `ran` what ran when the tick began. -/
structure Regs where
  vis : Map RegKey Word
  app : Map RegKey Word
  due : List RegKey
  holds : Map (Nat × Nat × RegKey) Nat
  latches : Map (Nat × Nat × RegKey) Nat
  ran : RunSnap
deriving DecidableEq, Repr

/-- An image that a die runs (R538, R542): SVN, key slot, copy (0 A, 1 B), measurement. -/
structure RunImage where
  svn : Nat
  key : Nat
  copy : Nat
  digest : List Byte
deriving DecidableEq, Repr

/-- A CTR_DRBG (R536): instantiated, its seed material, generate calls since the last reseed. -/
structure Drbg where
  inst : Bool
  seed : List Byte
  calls : Nat
deriving DecidableEq, Repr

/-- A raw capture (R560): streams and samples. -/
structure Capture where
  streams : Nat
  samples : Nat
deriving DecidableEq, Repr

/-- An SPDM responder (R544): how far the negotiation came (0 none, 1 version, 2 capabilities, 3 algorithms) and its
open sessions. -/
structure SpdmSt where
  negotiated : Nat
  sessions : List Nat
  nextSession : Nat
deriving DecidableEq, Repr

/-- Identity state of a die (R533 to R561). `captures` by CTL (0 N, 1 S). -/
structure DieSec where
  keyOk : Bool
  drbg : Drbg
  lc : Option LcState
  slotsUsed : Nat
  torn : Nat
  debug : Nat
  steward : Option RunImage
  runtime : Option RunImage
  dirtyUnits : List Nat
  dirtyFrames : List Nat
  captures : Map Nat Capture
deriving DecidableEq, Repr

/-- Fuses of the tray: they are programmed once and never return to 0. -/
structure Fuses where
  /-- Grade: true for a ZT4-56 (R2). -/
  grade56 : Bool
  serials : Tbl Nat Nat
  traySerial : List Byte
  macs : Tbl Nat Nat
  phyDelay : Tbl Nat Word
  /-- Fused-off SCs of each die, as a 16-bit mask (R3). -/
  fusedScs : Tbl Nat Nat
  /-- The UDS block of each die: 48 bytes of data and its check word, none while blank (R533). -/
  uds : Tbl Nat (Option (List Byte × List Byte))
  svn : Tbl Nat Nat
  revoked : Tbl Nat Nat
  /-- Key digests by slot (R539), the digest of the authorisation key (R553) and of the boot ROM (R545). -/
  keyDigests : Tbl Nat (List Byte)
  authDigest : List Byte
  romDigest : Tbl Nat (List Byte)
deriving DecidableEq, Repr

/-- A journal slot in one bank (R554). -/
structure JournalWord where
  trans : Word
  commit : Word
deriving DecidableEq, Repr

/-- A report of a unit's state (R588). -/
structure UnitReport where
  st : UnitState
  origin : Nat
  gen : Half
  resets : Nat
deriving DecidableEq, Repr

/-- A unit-state request held until D10 (R601): die, unit, ONLINE. -/
structure HeldReq where
  die : Nat
  unit : Nat
  online : Bool
deriving DecidableEq, Repr

/-- Warden (R563 to R591). `journal` is keyed by 32 x bank + slot; `cache` by 64 x die + unit; `images` by 3 x kind +
(0 copy A, 1 copy B, 2 staging). -/
structure Warden where
  powered : Bool
  running : Bool
  pulse : Bool
  inputOk : Bool
  /-- The input has been out of range (R578); the supply was removed for a coolant condition, and that condition is still there; the
  flow is low; COOLANT_TEMP has been logged in this excursion (R580). -/
  inputFault : Bool
  coolantOff : Bool
  flowLow : Bool
  coolantBad : Bool
  tempLogged : Bool
  journal : Tbl Nat JournalWord
  lc : LcState
  nonce : Option (List Byte)
  trayKey : Bool
  cache : Tbl Nat (Option UnitReport)
  mgtOffline : List Nat
  held : List HeldReq
  evtReceiver : Option Byte
  eid : Option Nat
  dieEids : Option Nat
  unitBytes : Nat
  /-- Sensor readings: last value and maximum since it was read (R568). -/
  sensors : Tbl Nat (Nat × Nat)
  images : Tbl Nat (List Byte)
  /-- Activation under way: image kind and last verified step (R585). -/
  activating : Option (Nat × Nat)
  verified : List Nat
  capW : Tbl Nat Nat
  resetQueue : List Nat
  /-- Unit tests that run for an ONLINE request (R590, R597): 64 x die + unit and whether it came in band. -/
  testing : List (Nat × Bool)
  /-- Warden's own event records, for dies that cannot log (R520). -/
  log : List EventRec
deriving DecidableEq, Repr

/-- Power state of a die (R571 to R576). `level` is that of the islands that are not held; `pending` a decided level and the extended
tick of its decision; `changed` the tick in which the last change took effect; `coolSince` the tick since which the condition for a
faster level has held; `islands` the level of each node; `readTj` the temperature that MGT_THROTTLESTAT shows. Powers are in mW,
temperatures in tenths of a degree. -/
structure DiePower where
  level : Nat
  pending : Option (Nat × Nat)
  changed : Option Nat
  coolSince : Option Nat
  islands : Tbl Nat Nat
  /-- The requests whose islands a hard action has released (R575). -/
  released : List Nat
  p1ms : Nat
  tj : Nat
  readTj : Nat
  steps : Nat
  hard : Nat
  /-- A hard action was taken in the present tick: in the next, scheduled regions with a port on the die break (R575). -/
  breaking : Bool
  /-- The supply was removed at the hot limit (R576). -/
  tripped : Bool
deriving DecidableEq, Repr

/-- Clocks, registers, identity, Warden and power. -/
structure Sys where
  clk : Tbl Nat DieClk
  regs : Regs
  sec : Tbl Nat DieSec
  /-- A tray bring-up runs (R600), and its reference die, once one has reached D9. -/
  trayBring : Bool
  refDie : Option Nat
  /-- Responders: dies 0 to 3, Warden 4. -/
  spdm : Tbl Nat SpdmSt
  fuses : Fuses
  warden : Warden
  power : Tbl Nat DiePower
deriving DecidableEq, Repr

end Sys2Proof.Machine
end

