-- ==== Sys2Proof/Machine/Registers.lean ====
section
/-! DEFINITION. The set-up registers as data: fields with access, class and reset (the register tables of every chapter,
R15 to R20), BAR0 offsets (R615, R616, R623 to R627) and writer kinds (R618). Reserved bits have no field: they read 0 and
ignore writes (R17). -/

namespace Sys2Proof.Machine

/-- Access types. -/
inductive Access where
  | ro | rw | w1s
deriving DecidableEq, Repr

/-- Timing classes (R19). -/
inductive TClass where
  | none | live | boundary | locked
deriving DecidableEq, Repr

/-- One field: bits [hi:lo], access, class, reset value (0 for `fuse`). -/
structure Field where
  hi : Nat
  lo : Nat
  acc : Access
  cls : TClass
  rst : Nat
deriving DecidableEq, Repr

/-- The fields of a register, from the most significant bit down. -/
def fieldsOf : RegName → List Field
  | .glbAdmin => [⟨3, 0, .rw, .live, 15⟩]
  | .glbTick => [⟨63, 0, .ro, .none, 0⟩]
  | .glbSelf => [⟨63, 63, .ro, .none, 0⟩, ⟨19, 16, .ro, .none, 0⟩, ⟨11, 8, .ro, .none, 0⟩, ⟨2, 2, .ro, .none, 0⟩,
      ⟨1, 0, .ro, .none, 0⟩]
  | .glbReady => [⟨63, 63, .ro, .none, 0⟩, ⟨62, 62, .ro, .none, 0⟩, ⟨61, 61, .ro, .none, 0⟩,
      ⟨47, 40, .ro, .none, 0⟩, ⟨15, 8, .ro, .none, 0⟩, ⟨3, 0, .ro, .none, 0⟩]
  | .glbIdent => [⟨63, 32, .ro, .none, 0⟩, ⟨23, 16, .ro, .none, 0⟩, ⟨15, 8, .ro, .none, 0⟩, ⟨4, 4, .ro, .none, 0⟩,
      ⟨1, 0, .ro, .none, 0⟩]
  | .glbClusterfuse => [⟨36, 32, .ro, .none, 0⟩, ⟨15, 0, .ro, .none, 0⟩]
  | .glbUnitreset => [⟨63, 63, .w1s, .live, 0⟩, ⟨47, 32, .ro, .none, 0⟩, ⟨5, 0, .rw, .live, 0⟩]
  | .glbLockmap => [⟨63, 63, .rw, .locked, 0⟩, ⟨59, 56, .rw, .locked, 0⟩, ⟨55, 55, .rw, .locked, 0⟩,
      ⟨51, 48, .rw, .locked, 0⟩, ⟨47, 47, .rw, .locked, 0⟩, ⟨43, 40, .rw, .locked, 0⟩, ⟨39, 39, .rw, .locked, 0⟩,
      ⟨35, 32, .rw, .locked, 0⟩, ⟨31, 31, .rw, .locked, 0⟩, ⟨27, 24, .rw, .locked, 0⟩, ⟨23, 23, .rw, .locked, 0⟩,
      ⟨19, 16, .rw, .locked, 0⟩, ⟨15, 15, .rw, .locked, 0⟩, ⟨11, 8, .rw, .locked, 0⟩, ⟨7, 7, .rw, .locked, 0⟩,
      ⟨3, 0, .rw, .locked, 0⟩]
  | .glbBootmap => [⟨63, 63, .rw, .locked, 0⟩, ⟨55, 52, .rw, .locked, 0⟩, ⟨51, 21, .rw, .locked, 0⟩,
      ⟨6, 5, .ro, .none, 0⟩, ⟨4, 1, .ro, .none, 0⟩]
  | .glbPartreset => [⟨63, 63, .w1s, .live, 0⟩]
  | .rasScrubctl => [⟨63, 56, .rw, .live, 16⟩, ⟨55, 48, .rw, .live, 24⟩, ⟨47, 32, .rw, .live, 1000⟩,
      ⟨19, 0, .rw, .live, 62500⟩]
  | .rasUnitstat => [⟨63, 48, .ro, .none, 0⟩, ⟨47, 32, .ro, .none, 0⟩, ⟨31, 24, .ro, .none, 0⟩,
      ⟨23, 4, .ro, .none, 0⟩, ⟨1, 0, .ro, .none, 0⟩]
  | .rasEvtbase => [⟨56, 12, .rw, .locked, 0⟩]
  | .rasEvtctl => [⟨63, 63, .rw, .locked, 0⟩, ⟨47, 32, .ro, .none, 0⟩, ⟨4, 0, .rw, .locked, 4⟩]
  | .rasEvtidx => [⟨63, 32, .ro, .none, 0⟩, ⟨31, 0, .rw, .live, 0⟩]
  | .mgtPowerlimit => [⟨57, 48, .rw, .live, 40⟩, ⟨41, 32, .ro, .none, 560⟩, ⟨31, 24, .rw, .live, 95⟩,
      ⟨9, 0, .rw, .live, 600⟩]
  | .mgtThrottlestat => [⟨63, 48, .ro, .none, 0⟩, ⟨47, 40, .ro, .none, 0⟩, ⟨39, 32, .ro, .none, 0⟩,
      ⟨31, 16, .ro, .none, 0⟩, ⟨15, 8, .ro, .none, 0⟩, ⟨1, 0, .ro, .none, 0⟩]
  | .mgtUnitreq => [⟨63, 63, .w1s, .live, 0⟩, ⟨57, 56, .rw, .live, 0⟩, ⟨47, 32, .ro, .none, 0⟩,
      ⟨31, 16, .rw, .live, 0⟩, ⟨5, 0, .rw, .live, 0⟩]
  | .secLcstate => [⟨55, 48, .ro, .none, 0⟩, ⟨47, 40, .ro, .none, 0⟩, ⟨35, 32, .ro, .none, 4⟩,
      ⟨7, 6, .ro, .none, 0⟩]
  | .secImagestat => [⟨63, 56, .ro, .none, 0⟩, ⟨55, 48, .ro, .none, 0⟩, ⟨47, 40, .ro, .none, 0⟩,
      ⟨39, 36, .ro, .none, 0⟩, ⟨35, 34, .ro, .none, 0⟩, ⟨33, 32, .ro, .none, 0⟩, ⟨1, 1, .ro, .none, 0⟩,
      ⟨0, 0, .ro, .none, 0⟩]
  | .secClearstat => [⟨63, 48, .ro, .none, 0⟩, ⟨31, 0, .ro, .none, 0⟩]
  | .secSpindlectl => [⟨26, 16, .rw, .locked, 793⟩, ⟨15, 8, .rw, .locked, 41⟩, ⟨2, 1, .rw, .locked, 1⟩,
      ⟨0, 0, .rw, .live, 1⟩]
  | .secSpindlestat => [⟨63, 32, .ro, .none, 0⟩, ⟨21, 12, .ro, .none, 0⟩, ⟨11, 8, .ro, .none, 0⟩,
      ⟨7, 6, .ro, .none, 0⟩, ⟨1, 0, .ro, .none, 0⟩]
  | .secCapctl => [⟨63, 63, .w1s, .locked, 0⟩, ⟨59, 56, .rw, .locked, 0⟩, ⟨20, 0, .rw, .locked, 0⟩]
  | .strPtpctl => [⟨63, 63, .rw, .locked, 0⟩, ⟨8, 8, .rw, .locked, 0⟩, ⟨7, 0, .rw, .locked, 0⟩]
  | .strPtpstat => [⟨63, 32, .ro, .none, 0⟩, ⟨31, 16, .ro, .none, 0⟩, ⟨1, 0, .ro, .none, 0⟩]
  | .strPtpmapTick => [⟨63, 0, .ro, .none, 0⟩]
  | .strPtpmapNs => [⟨63, 0, .ro, .none, 0⟩]
  | .strPtpmapStep => [⟨63, 0, .ro, .none, 17179869184⟩]
  | .strPhydelay => [⟨63, 0, .ro, .none, 0⟩]
  | .strPortctl => [⟨63, 63, .rw, .locked, 0⟩, ⟨47, 32, .rw, .locked, 47811⟩, ⟨31, 16, .rw, .locked, 34997⟩,
      ⟨8, 8, .rw, .locked, 0⟩, ⟨7, 7, .rw, .live, 0⟩, ⟨6, 6, .rw, .locked, 1⟩, ⟨2, 2, .rw, .locked, 1⟩,
      ⟨1, 1, .rw, .locked, 1⟩, ⟨0, 0, .rw, .locked, 1⟩]
  | .strMac => [⟨47, 0, .rw, .locked, 0⟩]
  | .strSteerdst => [⟨60, 60, .rw, .boundary, 0⟩, ⟨59, 48, .rw, .boundary, 0⟩, ⟨47, 0, .rw, .boundary, 0⟩]
  | .strRxquota => [⟨63, 56, .rw, .boundary, 0⟩, ⟨55, 48, .rw, .boundary, 0⟩, ⟨47, 40, .rw, .boundary, 0⟩,
      ⟨39, 32, .rw, .boundary, 0⟩, ⟨31, 24, .rw, .boundary, 0⟩, ⟨23, 16, .rw, .boundary, 0⟩,
      ⟨15, 8, .rw, .boundary, 0⟩, ⟨7, 0, .rw, .boundary, 0⟩]
  | .strRxframes => [⟨63, 0, .ro, .none, 0⟩]
  | .strRxlen => [⟨63, 0, .ro, .none, 0⟩]
  | .strRxfcs => [⟨63, 0, .ro, .none, 0⟩]
  | .strRxpause => [⟨63, 0, .ro, .none, 0⟩]
  | .strRxnotmine => [⟨63, 0, .ro, .none, 0⟩]
  | .strRxptp => [⟨63, 0, .ro, .none, 0⟩]
  | .strRxparse => [⟨63, 0, .ro, .none, 0⟩]
  | .strRxhdr => [⟨63, 0, .ro, .none, 0⟩]
  | .strRxunbound => [⟨63, 0, .ro, .none, 0⟩]
  | .strTxsteer => [⟨63, 0, .ro, .none, 0⟩]
  | .strTxdrop => [⟨63, 0, .ro, .none, 0⟩]
  | .teModectl => [⟨47, 32, .ro, .none, 0⟩, ⟨20, 16, .ro, .none, 0⟩, ⟨0, 0, .rw, .locked, 1⟩]
  | .rluSlicestat => [⟨63, 48, .ro, .none, 0⟩, ⟨47, 32, .ro, .none, 0⟩, ⟨4, 0, .ro, .none, 0⟩]
  | .netLinkctl => [⟨1, 1, .rw, .locked, 0⟩, ⟨0, 0, .w1s, .locked, 0⟩]
  | .netLinkstat => [⟨63, 32, .ro, .none, 0⟩, ⟨31, 24, .ro, .none, 0⟩, ⟨4, 4, .ro, .none, 0⟩, ⟨2, 0, .ro, .none, 0⟩]
  | .netShare => [⟨63, 63, .ro, .none, 0⟩, ⟨62, 56, .rw, .boundary, 0⟩, ⟨54, 48, .rw, .boundary, 0⟩,
      ⟨47, 47, .ro, .none, 0⟩, ⟨46, 40, .rw, .boundary, 0⟩, ⟨38, 32, .rw, .boundary, 0⟩, ⟨31, 31, .ro, .none, 0⟩,
      ⟨30, 24, .rw, .boundary, 0⟩, ⟨22, 16, .rw, .boundary, 0⟩, ⟨15, 15, .ro, .none, 0⟩,
      ⟨14, 8, .rw, .boundary, 0⟩, ⟨6, 0, .rw, .boundary, 0⟩]
  | .netSeamshare => [⟨63, 63, .ro, .none, 0⟩, ⟨62, 56, .rw, .boundary, 0⟩, ⟨54, 48, .rw, .boundary, 0⟩,
      ⟨47, 47, .ro, .none, 0⟩, ⟨46, 40, .rw, .boundary, 0⟩, ⟨38, 32, .rw, .boundary, 0⟩, ⟨31, 31, .ro, .none, 0⟩,
      ⟨30, 24, .rw, .boundary, 0⟩, ⟨22, 16, .rw, .boundary, 0⟩, ⟨15, 15, .ro, .none, 0⟩,
      ⟨14, 8, .rw, .boundary, 0⟩, ⟨6, 0, .rw, .boundary, 0⟩]
  | .netSchedstat => [⟨63, 32, .ro, .none, 0⟩, ⟨19, 16, .ro, .none, 0⟩, ⟨7, 4, .ro, .none, 0⟩,
      ⟨1, 0, .ro, .none, 0⟩]
  | .netRegion => [⟨63, 63, .rw, .locked, 0⟩, ⟨11, 9, .rw, .locked, 0⟩, ⟨8, 6, .rw, .locked, 0⟩,
      ⟨5, 3, .rw, .locked, 0⟩, ⟨2, 0, .rw, .locked, 0⟩]
  | .hpLanternctl => [⟨31, 16, .rw, .live, 1024⟩, ⟨7, 0, .rw, .live, 16⟩]
  | .hpLanternstat => [⟨63, 48, .ro, .none, 0⟩, ⟨47, 32, .ro, .none, 0⟩, ⟨25, 16, .ro, .none, 0⟩,
      ⟨6, 0, .ro, .none, 0⟩]
  | .hpMemwin => [⟨63, 63, .rw, .locked, 0⟩, ⟨17, 16, .rw, .locked, 0⟩, ⟨15, 8, .rw, .locked, 0⟩,
      ⟨7, 0, .rw, .locked, 0⟩]
  | .hpFuncctl => [⟨63, 63, .rw, .locked, 0⟩, ⟨3, 0, .rw, .locked, 0⟩]
  | .hpAperture => [⟨56, 30, .rw, .live, 0⟩]
  | .memPtbase => [⟨63, 63, .ro, .none, 0⟩, ⟨28, 12, .ro, .none, 0⟩]
  | .memOobdrop => [⟨63, 0, .ro, .none, 0⟩]
  | .memAllot => [⟨63, 63, .rw, .locked, 0⟩, ⟨50, 32, .rw, .locked, 0⟩, ⟨18, 0, .rw, .locked, 0⟩]
  | .detTrailbase => [⟨56, 10, .rw, .locked, 0⟩]
  | .detTrailctl => [⟨63, 63, .rw, .locked, 0⟩, ⟨47, 16, .ro, .none, 0⟩, ⟨8, 8, .rw, .boundary, 0⟩,
      ⟨4, 0, .rw, .locked, 4⟩]
  | .detTrailidx => [⟨63, 32, .ro, .none, 0⟩, ⟨31, 0, .rw, .live, 0⟩]
  | .suaReplicacap => [⟨6, 0, .rw, .boundary, 64⟩]
  | .teBudget => [⟨31, 0, .rw, .boundary, 4294967295⟩]
  | .ringSqctl => [⟨63, 63, .rw, .boundary, 0⟩, ⟨62, 62, .ro, .none, 0⟩, ⟨51, 50, .ro, .none, 0⟩,
      ⟨49, 46, .ro, .none, 0⟩, ⟨45, 44, .ro, .none, 0⟩, ⟨31, 16, .ro, .none, 0⟩, ⟨5, 5, .rw, .locked, 0⟩,
      ⟨4, 0, .rw, .locked, 4⟩]
  | .ringSqbase => [⟨56, 12, .rw, .locked, 0⟩]
  | .ringSqdb => [⟨51, 6, .rw, .locked, 0⟩, ⟨5, 3, .rw, .locked, 0⟩]
  | .ringSqidx => [⟨63, 0, .ro, .none, 0⟩]
  | .ringCqctl => [⟨63, 63, .rw, .boundary, 0⟩, ⟨62, 62, .ro, .none, 0⟩, ⟨51, 50, .ro, .none, 0⟩,
      ⟨49, 46, .ro, .none, 0⟩, ⟨45, 44, .ro, .none, 0⟩, ⟨31, 16, .ro, .none, 0⟩, ⟨15, 8, .rw, .live, 0⟩,
      ⟨7, 7, .rw, .live, 0⟩, ⟨6, 6, .rw, .locked, 0⟩, ⟨5, 5, .rw, .locked, 0⟩, ⟨4, 0, .rw, .locked, 4⟩]
  | .ringCqbase => [⟨56, 12, .rw, .locked, 0⟩]
  | .ringCqdb => [⟨51, 6, .rw, .locked, 0⟩, ⟨5, 3, .rw, .locked, 0⟩]
  | .ringCqidx => [⟨63, 0, .ro, .none, 0⟩]
  | .ringCqcoal => [⟨31, 16, .rw, .live, 0⟩, ⟨8, 0, .rw, .live, 1⟩]

/-- The value of a register after the reset of its domain, fuse fields 0 (R18). -/
def resetWord (n : RegName) : Word := BitVec.ofNat 64 ((fieldsOf n).foldl (fun w f => putBits w f.hi f.lo f.rst) 0)

/-- Writer kinds (R618). -/
inductive Writer where
  | admin | die | serving | own | steward | mgmt | none
deriving DecidableEq, Repr

/-- The writer kind of a register (R623 to R627). -/
def writerOf : RegName → Writer
  | .glbAdmin | .glbLockmap | .strRxquota | .netShare | .netSeamshare | .hpFuncctl | .netRegion | .memAllot
  | .suaReplicacap | .teBudget => .admin
  | .glbUnitreset | .rasScrubctl | .mgtPowerlimit | .mgtUnitreq | .secSpindlectl | .strPtpctl | .teModectl | .netLinkctl
  | .strPortctl | .strMac | .strSteerdst | .hpLanternctl | .hpMemwin => .die
  | .detTrailbase | .detTrailctl | .detTrailidx | .rasEvtbase | .rasEvtctl | .rasEvtidx | .glbBootmap | .glbPartreset
  | .ringSqctl | .ringSqbase | .ringSqdb | .ringSqidx | .ringCqctl | .ringCqbase | .ringCqdb | .ringCqidx
  | .ringCqcoal => .serving
  | .hpAperture => .own
  | .memPtbase => .steward
  | .secCapctl => .mgmt
  | _ => .none

/-- A register of a die's per-die partition block (R626): offset in the block. -/
def partBlockReg (d p off : Nat) : Option RegKey :=
  if off = 0x000 then some ⟨.netRegion, d, p, 0⟩
  else if off = 0x008 then some ⟨.memPtbase, d, p, 0⟩
  else if off = 0x010 then some ⟨.memOobdrop, d, p, 0⟩
  else if 0x040 ≤ off ∧ off < 0x080 then some ⟨.memAllot, d, p, (off - 0x040) / 8⟩
  else if off = 0x080 then some ⟨.detTrailbase, d, p, 0⟩
  else if off = 0x088 then some ⟨.detTrailctl, d, p, 0⟩
  else if off = 0x090 then some ⟨.detTrailidx, d, p, 0⟩
  else if off = 0x0A0 then some ⟨.rasEvtbase, d, p, 0⟩
  else if off = 0x0A8 then some ⟨.rasEvtctl, d, p, 0⟩
  else if off = 0x0B0 then some ⟨.rasEvtidx, d, p, 0⟩
  else none

/-- The names of an SP block at steps of 8 from 0x30 (R625). -/
def spCounters : List RegName :=
  [.strRxframes, .strRxlen, .strRxfcs, .strRxpause, .strRxnotmine, .strRxptp, .strRxparse, .strRxhdr, .strRxunbound,
   .strTxsteer, .strTxdrop]

/-- A register of an SP block (R625). -/
def spBlockReg (d n off : Nat) : Option RegKey :=
  if off = 0x00 then some ⟨.strPortctl, d, n, 0⟩
  else if off = 0x08 then some ⟨.strMac, d, n, 0⟩
  else if off = 0x10 then some ⟨.strSteerdst, d, n, 0⟩
  else if off = 0x18 then some ⟨.strRxquota, d, n, 0⟩
  else if off = 0x20 then some ⟨.strRxquota, d, n, 1⟩
  else if 0x30 ≤ off then (spCounters[(off - 0x30) / 8]?).map (fun r => ⟨r, d, n, 0⟩)
  else none

/-- A register of the HP block (R625). -/
def hpBlockReg (d off : Nat) : Option RegKey :=
  if off = 0x000 then some ⟨.hpLanternctl, d, 0, 0⟩
  else if off = 0x008 then some ⟨.hpLanternstat, d, 0, 0⟩
  else if off = 0x010 then some ⟨.hpMemwin, d, 0, 0⟩
  else if 0x100 ≤ off ∧ off < 0x180 then some ⟨.hpFuncctl, d, (off - 0x100) / 8, 0⟩
  else if 0x200 ≤ off ∧ off < 0x280 then some ⟨.hpAperture, d, (off - 0x200) / 8, 0⟩
  else none

/-- The first registers of a die window, by their offset over 8 (R624). -/
def dieLowReg (d : Nat) : Nat → Option RegKey
  | 0 => some ⟨.glbIdent, d, 0, 0⟩
  | 1 => some ⟨.glbClusterfuse, d, 0, 0⟩
  | 2 => some ⟨.glbUnitreset, d, 0, 0⟩
  | 3 => some ⟨.glbTick, d, 0, 0⟩
  | 4 => some ⟨.rasScrubctl, d, 0, 0⟩
  | 5 => some ⟨.mgtPowerlimit, d, 0, 0⟩
  | 6 => some ⟨.mgtThrottlestat, d, 0, 0⟩
  | 7 => some ⟨.mgtUnitreq, d, 0, 0⟩
  | 8 => some ⟨.secLcstate, d, 0, 0⟩
  | 9 => some ⟨.secImagestat, d, 0, 0⟩
  | 10 => some ⟨.secClearstat, d, 0, 0⟩
  | 12 => some ⟨.secSpindlectl, d, 0, 0⟩
  | 13 => some ⟨.secSpindlestat, d, 0, 0⟩
  | 14 => some ⟨.secSpindlectl, d, 1, 0⟩
  | 15 => some ⟨.secSpindlestat, d, 1, 0⟩
  | 16 => some ⟨.secCapctl, d, 0, 0⟩
  | 17 => some ⟨.secCapctl, d, 1, 0⟩
  | 24 => some ⟨.strPtpctl, d, 0, 0⟩
  | 25 => some ⟨.strPtpstat, d, 0, 0⟩
  | 26 => some ⟨.strPtpmapTick, d, 0, 0⟩
  | 27 => some ⟨.strPtpmapNs, d, 0, 0⟩
  | 28 => some ⟨.strPtpmapStep, d, 0, 0⟩
  | 29 => some ⟨.strPhydelay, d, 0, 0⟩
  | _ => none

/-- A register of a die window (R624). -/
def dieWindowReg (d off : Nat) : Option RegKey :=
  if off < 0x0100 then dieLowReg d (off / 8)
  else if 0x1000 ≤ off ∧ off < 0x1118 then some ⟨.rasUnitstat, d, (off - 0x1000) / 8, 0⟩
  else if 0x1400 ≤ off ∧ off < 0x1500 then some ⟨.glbLockmap, d, (off - 0x1400) / 8, 0⟩
  else if 0x2000 ≤ off ∧ off < 0x2020 then some ⟨.teModectl, d, (off - 0x2000) / 8, 0⟩
  else if 0x2100 ≤ off ∧ off < 0x2140 then some ⟨.rluSlicestat, d, (off - 0x2100) / 8, 0⟩
  else if 0x2200 ≤ off ∧ off < 0x2230 then
    (if off % 16 < 8 then some ⟨.netLinkctl, d, (off - 0x2200) / 16 + 1, 0⟩
     else some ⟨.netLinkstat, d, (off - 0x2200) / 16 + 1, 0⟩)
  else if 0x3000 ≤ off ∧ off < 0x3200 then spBlockReg d ((off - 0x3000) / 256) (off % 256)
  else if 0x4000 ≤ off ∧ off < 0x5000 then hpBlockReg d (off - 0x4000)
  else if 0x8000 ≤ off ∧ off < 0x8140 then some ⟨.netShare, d, (off - 0x8000) / 32, (off - 0x8000) / 8 % 4⟩
  else if 0x8200 ≤ off ∧ off < 0x8300 then some ⟨.netSeamshare, d, (off - 0x8200) / 32, (off - 0x8200) / 8 % 4⟩
  else if 0x8400 ≤ off ∧ off < 0x8480 then some ⟨.netSchedstat, d, (off - 0x8400) / 8, 0⟩
  else if 0x10000 ≤ off ∧ off < 0x20000 then partBlockReg d ((off - 0x10000) / 0x1000) (off % 0x1000)
  else none

/-- A ring register by its offset in the ring's 128 bytes over 8 (R627). -/
def ringReg (p q : Nat) : Nat → Option RegKey
  | 0 => some ⟨.ringSqctl, p, q, 0⟩
  | 1 => some ⟨.ringSqbase, p, q, 0⟩
  | 2 => some ⟨.ringSqdb, p, q, 0⟩
  | 3 => some ⟨.ringSqidx, p, q, 0⟩
  | 8 => some ⟨.ringCqctl, p, q, 0⟩
  | 9 => some ⟨.ringCqbase, p, q, 0⟩
  | 10 => some ⟨.ringCqdb, p, q, 0⟩
  | 11 => some ⟨.ringCqidx, p, q, 0⟩
  | 12 => some ⟨.ringCqcoal, p, q, 0⟩
  | _ => none

/-- A register of a partition window (R627). -/
def partWindowReg (p off : Nat) : Option RegKey :=
  if off = 0x0000 then some ⟨.glbBootmap, p, 0, 0⟩
  else if off = 0x0008 then some ⟨.glbPartreset, p, 0, 0⟩
  else if off = 0x0010 then some ⟨.suaReplicacap, p, 0, 0⟩
  else if off = 0x0018 then some ⟨.teBudget, p, 0, 0⟩
  else if 0x2000 ≤ off ∧ off < 0x4000 then ringReg p ((off - 0x2000) / 128) (off % 128 / 8)
  else none

/-- A register of the global page as function (port, func) sees it (R623). -/
def globalReg (port func off : Nat) : Option RegKey :=
  if off = 0x000 then (if func = 0 then some ⟨.glbAdmin, 0, 0, 0⟩ else none)
  else if off = 0x008 then some ⟨.glbTick, port, 0, 0⟩
  else if off = 0x010 then some ⟨.glbSelf, port, func, 0⟩
  else if 0x040 ≤ off ∧ off < 0x060 then some ⟨.glbReady, (off - 0x040) / 8, 0, 0⟩
  else if off = 0x080 then some ⟨.hpAperture, port, func, 0⟩
  else none

/-- What an offset of BAR0 names: a register, an MSI-X table or PBA byte, or nothing (R615 to R617). -/
inductive BarTarget where
  | reg (k : RegKey)
  | msix (off : Nat)
  | pba (off : Nat)
  | reserved
deriving DecidableEq, Repr

/-- A register target, or a reserved offset. -/
def BarTarget.ofReg : Option RegKey → BarTarget
  | some k => .reg k
  | none => .reserved

/-- A PF's BAR0 (R615); `off` is the offset of an 8-byte word. -/
def pfTarget (port off : Nat) : BarTarget :=
  if off < 0x1000 then .ofReg (globalReg port 0 off)
  else if 0x100000 ≤ off ∧ off < 0x500000 then .ofReg (dieWindowReg (off / 0x100000 - 1) (off % 0x100000))
  else if 0x500000 ≤ off ∧ off < 0x600000 then .ofReg (partWindowReg ((off - 0x500000) / 0x10000) (off % 0x10000))
  else if 0x700000 ≤ off ∧ off < 0x700410 then .msix (off - 0x700000)
  else if 0x708000 ≤ off ∧ off < 0x708010 then .pba (off - 0x708000)
  else .reserved

/-- A VF's BAR0 (R616), for the partition it serves, none while its EN is 0. -/
def vfTarget (port func : Nat) (part : Option Nat) (off : Nat) : BarTarget :=
  if off < 0x1000 then .ofReg (globalReg port func off)
  else if 0x10000 ≤ off ∧ off < 0x14000 then
    .ofReg (part.bind (fun p => partBlockReg ((off - 0x10000) / 0x1000) p (off % 0x1000)))
  else if 0x20000 ≤ off ∧ off < 0x30000 then .ofReg (part.bind (fun p => partWindowReg p (off - 0x20000)))
  else if 0x30000 ≤ off ∧ off < 0x30410 then .msix (off - 0x30000)
  else if 0x38000 ≤ off ∧ off < 0x38010 then .pba (off - 0x38000)
  else .reserved

/-- Registers of a partition, wherever they are held (the window of R627): keyed by partition, not by die. -/
def RegName.ofPartition : RegName → Bool
  | .glbBootmap | .glbPartreset | .suaReplicacap | .teBudget | .ringSqctl | .ringSqbase | .ringSqdb | .ringSqidx
  | .ringCqctl | .ringCqbase | .ringCqdb | .ringCqidx | .ringCqcoal => true
  | _ => false

/-- Registers of the per-die partition block (R626). -/
def RegName.ofPartBlock : RegName → Bool
  | .netRegion | .memPtbase | .memOobdrop | .memAllot | .detTrailbase | .detTrailctl | .detTrailidx | .rasEvtbase
  | .rasEvtctl | .rasEvtidx => true
  | _ => false

/-- Registers Warden holds (R605, R628, R631) or that lie on no die. -/
def RegName.ofTray : RegName → Bool
  | .glbAdmin | .glbReady | .glbSelf | .suaReplicacap | .teBudget => true
  | _ => false

/-- The partition a register belongs to, where it belongs to one. -/
def RegKey.part (k : RegKey) : Option Nat :=
  if k.name.ofPartition then some k.a else if k.name.ofPartBlock then some k.b else none

end Sys2Proof.Machine
end

