-- ==== Sys2Proof/Machine/Resets.lean ====
section
/-! DEFINITION. The values of each piece of state after its reset: the Reset columns of the register tables (R18) lie in
Machine/Registers.lean; here are the state that no register holds. Where the manual gives no value, the value is the
model's (assumption log 1). -/

namespace Sys2Proof.Machine

/-- Memory with nothing listed and no error. -/
def Mem.reset : Mem := ⟨[], Map.empty⟩

/-- A node's translation state with nothing cached. -/
def GhNode.reset : GhNode := ⟨[], [], []⟩

/-- A unit's record before its first change (R516). -/
def UnitRec.reset : UnitRec := ⟨.inService, 0, 0, 0, 0, none, false⟩

/-- Fault state with nothing logged. -/
def Ras.reset : Ras :=
  { units := .const UnitRec.reset, scrubs := .const ⟨0, 0, false⟩, corrections := [], logs := .const ⟨[], 0, false⟩
    evtArrivals := .const [], evtLost := .const false, dieFenced := .const false, heartbeat := .const 0
    wardenLost := .const false, noService := false }

/-- Memory state at power-on. -/
def MemSys.reset : MemSys :=
  { mem := Mem.reset, nodes := .const GhNode.reset, held := [], tables := [], edramNext := .const 0, edramBusy := .const 0
    hbmNext := .const 0, hbmTemp := .const 0, hbmBusy := .const none
    hbmParity := .const 0, hbmSev := .const 0, waitHeld := false, parked := [], boot := .const none }

/-- An SUA with every state 0 (R598). -/
def Sua.reset : Sua := ⟨.const false, .const 0, .const 0, none, [], false⟩

/-- A Spindle out of die reset (R104). -/
def Spindle.reset : Spindle := ⟨.off, [], [], [], 0, 0, 0, List.replicate 4 (false, 0)⟩

/-- An idle tensor engine. -/
def Te.reset : Te := ⟨[], none, 0, 0, 0, 0, 0⟩

/-- Idle row logic. -/
def Rlu.reset : Rlu := ⟨[], [], [], .const 0, 0, 0⟩

/-- An idle copy engine. -/
def CopyEng.reset : CopyEng := ⟨[], none⟩

/-- A halted core; ZWAITLIM resets to 262,144 (R184). -/
def Core.reset : Core :=
  { x := .const 0, pc := 0, mode := .m, mstatus := 0, mtvec := 0, mepc := 0, mcause := 0, mtval := 0, mscratch := 0
    mie := 0, mip := 0, zwaitlim := 262144, req := none, resv := none, cmds := 0, stores := 0, hostStores := 0
    wait := .none, xlat := none, loads := [], ckpt := .const 0, icache := [], dcache := [], fetched := none }

/-- A free lock (R206). -/
def Lock.reset : Lock := ⟨0, 0, 0, 0, 0, 0, 0, false, false⟩

/-- Compute state at power-on. -/
def Compute.reset : Compute :=
  { suas := .const Sua.reset, models := [], denseIn := .const [], spindles := .const Spindle.reset, tes := .const Te.reset
    rlus := .const Rlu.reset, copies := .const CopyEng.reset, cores := .const Core.reset, locks := .const Lock.reset }

/-- A cleared Beacon cell (R598). -/
def Cell.reset : Cell := ⟨0, false, false⟩

/-- A cleared barrier counter (R598). -/
def Counter.reset : Counter := ⟨0, 0, none, false, false⟩

/-- A port that has sent nothing. -/
def PortTick.reset : PortTick := ⟨0, 0, 0, 0, 0, 0, []⟩

/-- A port in no phase. -/
def PortPhase.reset : PortPhase := ⟨0, 0, none⟩

/-- The network with nothing in it. -/
def Net.reset : Net :=
  { nextId := 0, inject := .const [], bufs := .const [], injPos := .const (0, 0), winSent := .const none, freed := .const (0, 0), schedBufs := .const []
    cross := .const [], ports := .const PortTick.reset, phases := .const PortPhase.reset, past := .const [], eject := .const []
    home := .const [], homeDue := .const [], beaconNext := .const 0, watchNext := .const 0, near := .const [], nearPos := .const (0, 0)
    bankWaits := [], bankUsed := .const (0, 0), inbox := .const [], cells := .const Cell.reset
    counters := .const Counter.reset, watches := .const none, answersDue := .const [], fromSpent := .const 0
    toSpent := .const 0, windowAt := .const none, scheds := [], waiting := [], linkCe := .const 0 }

/-- A link that is OFF. -/
def Link.reset : Link :=
  { st := .off, half := false, replays := 0, degrades := 0, replaysHi := 0, degradesHi := 0, errLo := 0, errHi := 0, retrainStart := none
    degrading := false, cmpLo := none, cmpHi := none }

/-- A direction with nothing in flight. -/
def LinkDir.reset : LinkDir := ⟨0, [], [], 0, 0⟩

/-- Links at power-on. -/
def LinkSys.reset : LinkSys := ⟨.const Link.reset, .const LinkDir.reset⟩

/-- A ring that is OFF. -/
def Ring.reset : Ring := ⟨0, 0, 0, 0, 0, 0, 0, 0, 0, false⟩

/-- No request. -/
def ReqSys.reset : ReqSys := ⟨.const Ring.reset, .const [], [], 0, [], 0, [], .const 0⟩

/-- A stream port with its link down. -/
def Sp.reset : Sp := ⟨false, .const 0, [], 0⟩

/-- A PTP instance that is OFF; STEP resets to 4.0 ns per tick. -/
def Ptp.reset : Ptp := ⟨0, [], 0, 0, 0, 0, 0, 0, 0, 0x400000000, none, none, none⟩

/-- A host port with its link down and PERST# asserted. -/
def Hp.reset : Hp :=
  { linkUp := false, cxl := false, perst := true, lantern := [], lines := [], reads := [], nextRead := 0, dbDrop := 0
    nDrop := 0, lastPoll := none, winLost := false, decoder := none, dropped := 0, masked := .const true, pendingMsi := .const false
    table := .const (0, 0) }

/-- Streams and host ports at power-on. -/
def IoSys.reset : IoSys := ⟨.const Sp.reset, [], [], .const Ptp.reset, .const Hp.reset, []⟩

/-- A die without core supply. -/
def DieClk.reset : DieClk := ⟨false, 0, 0, false, false, 0, 0, 0, false, 0, []⟩

/-- Every register at its Reset column. -/
def Regs.reset : Regs := ⟨Map.empty, Map.empty, [], Map.empty, Map.empty, RunSnap.none⟩

/-- A generator that is not instantiated. -/
def Drbg.reset : Drbg := ⟨false, [], 0⟩

/-- A die that has not heard from Warden (R550: 4 until received). -/
def DieSec.reset : DieSec := ⟨false, Drbg.reset, none, 0, 0, 0, none, none, [], [], Map.empty⟩

/-- A responder before GET_VERSION. -/
def SpdmSt.reset : SpdmSt := ⟨0, [], 0⟩

/-- A power state at T0 (R570). -/
def DiePower.reset : DiePower := ⟨0, none, none, none, .const 0, [], 0, 0, 0, 0, 0, false, false⟩

/-- The fuses of the tray the model starts from: a ZT4-64 with blank UDS blocks (R630), and whatever key digests it was made with. -/
def Fuses.reset : Fuses :=
  { grade56 := false, serials := .const 0, traySerial := List.replicate 16 0, macs := .const 0, phyDelay := .const 0
    fusedScs := .const 0, uds := .const none, svn := .const 0, revoked := .const 0
    keyDigests := ⟨[], [(0, Config.keyDigest 0), (1, Config.keyDigest 1), (2, Config.keyDigest 2), (3, Config.keyDigest 3)]⟩
    authDigest := Config.keyDigest 4
    romDigest := .const (List.replicate 48 0) }

/-- The images in Warden's flash at manufacture: copies A and B of each kind, and empty staging areas (R583, R584). -/
def factoryImages : Tbl Nat (List Byte) :=
  ⟨[], [(0, Config.factoryImage 0), (1, Config.factoryImage 0), (3, Config.factoryImage 1), (4, Config.factoryImage 1),
    (6, Config.factoryImage 2), (7, Config.factoryImage 2)]⟩

/-- Warden before power-on, its journal blank (R554) and its flash as it was made. -/
def Warden.reset : Warden :=
  { powered := false, running := false, pulse := false, inputOk := true, inputFault := false, coolantOff := false
    coolantBad := false, flowLow := false, tempLogged := false, journal := .const ⟨0, 0⟩, lc := .raw, nonce := none
    trayKey := false, cache := .const none, mgtOffline := [], held := []
    evtReceiver := none, eid := none, dieEids := none, unitBytes := 64, sensors := .const (0, 0), images := factoryImages
    activating := none, verified := [], capW := .const 560, resetQueue := [], testing := [], log := [] }

/-- Clocks, registers, identity, Warden and power at power-on. -/
def Sys.reset : Sys :=
  { clk := .const DieClk.reset, regs := Regs.reset, sec := .const DieSec.reset, trayBring := false, refDie := none, spdm := .const SpdmSt.reset
    fuses := Fuses.reset, warden := Warden.reset, power := .const DiePower.reset }

end Sys2Proof.Machine
end

