-- ==== Sys2Proof/Machine/State.lean ====
section
/-! DEFINITION. The state of the tray, plain data, with the queue of waiting commands; its value at reset; and the ways a
step can stop. -/

namespace Sys2Proof.Machine

/-- The tray. `pending` is the queue of commands, first in, first out. `free` counts the free values taken so far: it is
the model's own field (assumption log 2). -/
structure State where
  pending : List Instr
  free : Nat
  sys : Sys
  ras : Ras
  mem : MemSys
  comp : Compute
  net : Net
  link : LinkSys
  req : ReqSys
  io : IoSys
deriving DecidableEq, Repr

/-- Why a step faults. -/
inductive Fault where
  /-- Raised by every command that names a router whose node identifier has row 6 or 7: it names no node (R6). Safe: the
  machine stops where the hardware has no such router. -/
  | noSuchNode
deriving DecidableEq, Repr

/-- Why a step is refused. -/
inductive Refusal where
  /-- Raised by the arm of a command whose meaning the model does not have. Safe: nothing can be proved of its effect. -/
  | notModelled (mnemonic : String)
deriving DecidableEq, Repr

/-- The tray as input power is applied to it, before Warden has started (R593): every register at its Reset column, no
command waiting. Values the manual does not give are the model's (assumption log 1). -/
def State.reset : State :=
  { pending := [], free := 0, sys := Sys.reset, ras := Ras.reset, mem := MemSys.reset, comp := Compute.reset
    net := Net.reset, link := LinkSys.reset, req := ReqSys.reset, io := IoSys.reset }

end Sys2Proof.Machine
end

