-- ==== Sys2Proof/Machine/Ops.lean ====
section
/-! DEFINITION. The named operations every meaning uses: time, free values, registers, who holds what, packets handed to a
router, event records, and how a request is ended. -/

namespace Sys2Proof.Machine

/-- What a meaning answers. -/
abbrev Out := Host.Outcome State Fault Refusal

/-- `f s` where the condition holds, `s` where the event is not due (assumption log 3). -/
def whenB (c : Bool) (s : State) (f : State → State) : State := if c then f s else s

/-- `f x s` where there is an `x`, `s` where there is none. -/
def withSome {A : Type} (o : Option A) (s : State) (f : A → State → State) : State :=
  match o with
  | some x => f x s
  | none => s

/-- The state after `f` has acted for every element of a list in turn. -/
def eachOf {A : Type} (l : List A) (f : A → State → State) (s : State) : State := l.foldl (fun s x => f x s) s

/-! ### Parts of the state -/

/-- Change the clock of a die. -/
def State.modClk (s : State) (d : Nat) (f : DieClk → DieClk) : State :=
  { s with sys := { s.sys with clk := s.sys.clk.modify d f } }

/-- Change the identity state of a die. -/
def State.modSec (s : State) (d : Nat) (f : DieSec → DieSec) : State :=
  { s with sys := { s.sys with sec := s.sys.sec.modify d f } }

/-- Change the power state of a die. -/
def State.modPower (s : State) (d : Nat) (f : DiePower → DiePower) : State :=
  { s with sys := { s.sys with power := s.sys.power.modify d f } }

/-- Change Warden. -/
def State.modWarden (s : State) (f : Warden → Warden) : State :=
  { s with sys := { s.sys with warden := f s.sys.warden } }

/-- Change the fuses. -/
def State.modFuses (s : State) (f : Fuses → Fuses) : State := { s with sys := { s.sys with fuses := f s.sys.fuses } }

/-- Change the register file. -/
def State.modRegs (s : State) (f : Regs → Regs) : State := { s with sys := { s.sys with regs := f s.sys.regs } }

/-- Change the fault state. -/
def State.modRas (s : State) (f : Ras → Ras) : State := { s with ras := f s.ras }

/-- Change the network. -/
def State.modNet (s : State) (f : Net → Net) : State := { s with net := f s.net }

/-- Change the memory state. -/
def State.modMem (s : State) (f : MemSys → MemSys) : State := { s with mem := f s.mem }

/-- Change the compute blocks. -/
def State.modComp (s : State) (f : Compute → Compute) : State := { s with comp := f s.comp }

/-- Change the requests and rings. -/
def State.modReqs (s : State) (f : ReqSys → ReqSys) : State := { s with req := f s.req }

/-- Change the streams and host ports. -/
def State.modIo (s : State) (f : IoSys → IoSys) : State := { s with io := f s.io }

/-- Change a core. -/
def State.modCore (s : State) (c : Nat) (f : Core → Core) : State :=
  s.modComp (fun k => { k with cores := k.cores.modify c f })

/-- Change a tensor engine. -/
def State.modTe (s : State) (n : Nat) (f : Te → Te) : State := s.modComp (fun k => { k with tes := k.tes.modify n f })

/-- Change a slice's row logic. -/
def State.modRlu (s : State) (n : Nat) (f : Rlu → Rlu) : State :=
  s.modComp (fun k => { k with rlus := k.rlus.modify n f })

/-- Change a copy engine. -/
def State.modCopy (s : State) (n : Nat) (f : CopyEng → CopyEng) : State :=
  s.modComp (fun k => { k with copies := k.copies.modify n f })

/-- Change an SUA. -/
def State.modSua (s : State) (n : Nat) (f : Sua → Sua) : State :=
  s.modComp (fun k => { k with suas := k.suas.modify n f })

/-- Change a Spindle. -/
def State.modSpindle (s : State) (n : Nat) (f : Spindle → Spindle) : State :=
  s.modComp (fun k => { k with spindles := k.spindles.modify n f })

/-- Change a lock. -/
def State.modLock (s : State) (n : Nat) (f : Lock → Lock) : State :=
  s.modComp (fun k => { k with locks := k.locks.modify n f })

/-- Change the models of an identifier. -/
def State.modModel (s : State) (part id : Nat) (f : Model → Model) : State :=
  s.modComp (fun k => { k with models := mapWhere (fun m => m.part == part && m.id == id) f k.models })

/-- Change the request `id`. -/
def State.modReq (s : State) (id : Nat) (f : Request → Request) : State :=
  s.modReqs (fun r => { r with requests := mapWhere (fun q => q.id == id) f r.requests })

/-- Change a ring. -/
def State.modRing (s : State) (k : Nat) (f : Ring → Ring) : State :=
  s.modReqs (fun r => { r with rings := r.rings.modify k f })

/-- Change a stream port. -/
def State.modSp (s : State) (n : Nat) (f : Sp → Sp) : State := s.modIo (fun o => { o with sps := o.sps.modify n f })

/-- Change a host port. -/
def State.modHp (s : State) (n : Nat) (f : Hp → Hp) : State := s.modIo (fun o => { o with hps := o.hps.modify n f })

/-- Change a PTP instance. -/
def State.modPtp (s : State) (n : Nat) (f : Ptp → Ptp) : State := s.modIo (fun o => { o with ptp := o.ptp.modify n f })

/-- Change a link. -/
def State.modLink (s : State) (k : Nat) (f : Link → Link) : State :=
  { s with link := { s.link with links := s.link.links.modify k f } }

/-- Change a direction of a link. -/
def State.modDir (s : State) (k : Nat) (f : LinkDir → LinkDir) : State :=
  { s with link := { s.link with dirs := s.link.dirs.modify k f } }

/-- Change a scheduled region. -/
def State.modSched (s : State) (srid : Nat) (f : Sched → Sched) : State :=
  s.modNet (fun n => { n with scheds := mapWhere (fun c => c.srid == srid) f n.scheds })

/-- Something leaves the tray. -/
def State.emit (s : State) (o : Output) : State := s.modIo (fun i => { i with outputs := i.outputs ++ [o] })

/-! ### Free values and time -/

/-- The next free value's number, and the state that has used it. -/
def State.takeFree (s : State) : Nat × State := (s.free, { s with free := s.free + 1 })

/-- TICK of a die (R35). -/
def State.tickOf (s : State) (d : Nat) : Nat := (s.sys.clk.get d).tick.toNat

/-- The extended count of R634. -/
def State.extTick (s : State) (d : Nat) : Nat := s.tickOf d + 2 ^ 64 * (s.sys.clk.get d).wraps

/-- The tick `n` after the present one, modulo 2^64. -/
def State.tickAfter (s : State) (d n : Nat) : Nat := (s.tickOf d + n) % 2 ^ 64

/-- How many ticks lie from `a` to the present tick of die `d`. -/
def State.since (s : State) (d a : Nat) : Nat := (s.tickOf d + 2 ^ 64 - a % 2 ^ 64) % 2 ^ 64

/-- Router cycles from `c` to `now`; cycle numbers, 8 x tick + cycle, wrap with TICK (R35). -/
def cycleAge (now c : Nat) : Nat := (now + 2 ^ 67 - c % 2 ^ 67) % 2 ^ 67

/-- Whether a router cycle has been reached. -/
def cycleReached (now c : Nat) : Bool := decide (cycleAge now c < 2 ^ 66)

/-- The first cycle from `c` on with room for another item where `x`, the latest used cycle and its count, allows `w` a cycle; and the
use that leaves. -/
def nextSlot (x : Nat × Nat) (c w : Nat) : Nat × Nat :=
  if cycleReached c x.1 && decide (x.1 ≠ c) then (c, 1) else if x.2 < w then (x.1, x.2 + 1) else (x.1 + 1, 1)

/-! ### Registers -/

/-- The value a register has where nothing has been written: its reset, with the fuse fields of R18. -/
def State.resetOf (s : State) (k : RegKey) : Word :=
  match k.name with
  | .strMac => BitVec.ofNat 64 (s.sys.fuses.macs.get (2 * k.a + k.b))
  | .strPhydelay => s.sys.fuses.phyDelay.get k.a
  | n => resetWord n

/-- What a read of the stored register returns, shadows included. -/
def State.visWord (s : State) (k : RegKey) : Nat := ((s.sys.regs.vis.get? k).getD (s.resetOf k)).toNat

/-- What the hardware uses. -/
def State.appWord (s : State) (k : RegKey) : Nat := ((s.sys.regs.app.get? k).getD (s.resetOf k)).toNat

/-- Bits [hi:lo] of the applied register. -/
def State.appF (s : State) (n : RegName) (a b c hi lo : Nat) : Nat := bitsOf (s.appWord ⟨n, a, b, c⟩) hi lo

/-- The hardware sets bits [hi:lo] of a register. -/
def State.hwSet (s : State) (k : RegKey) (hi lo v : Nat) : State :=
  s.modRegs (fun r => { r with
    vis := r.vis.set k (BitVec.ofNat 64 (putBits (s.visWord k) hi lo v))
    app := r.app.set k (BitVec.ofNat 64 (putBits (s.appWord k) hi lo v)) })

/-- The hardware adds 1 to a saturating count in bits [hi:lo] of a register. -/
def State.hwCount (s : State) (k : RegKey) (hi lo : Nat) : State :=
  s.hwSet k hi lo (satTo (2 ^ (hi + 1 - lo) - 1) (bitsOf (s.visWord k) hi lo + 1))

/-- The registers that satisfy `p` return to reset. -/
def State.dropRegs (s : State) (p : RegKey → Bool) : State :=
  s.modRegs (fun r => { r with
    vis := r.vis.filter (fun k _ => !p k), app := r.app.filter (fun k _ => !p k)
    due := r.due.filter (fun k => !p k), holds := r.holds.filter (fun k _ => !p k.2.2)
    latches := r.latches.filter (fun k _ => !p k.2.2) })

/-! ### Service -/

/-- Key of a unit. -/
def unitKey (d u : Nat) : Nat := 64 * d + u

/-- The record of a unit. -/
def State.unitRec (s : State) (d u : Nat) : UnitRec := s.ras.units.get (unitKey d u)

/-- Whether an SC is fused off (R3). -/
def State.scFused (s : State) (d i : Nat) : Bool := bitOf (s.sys.fuses.fusedScs.get d) i

/-- Whether a die is fenced (R520). -/
def State.dieFencedB (s : State) (d : Nat) : Bool := s.ras.dieFenced.get d

/-- Whether a die is up: ready, and not fenced (R583, R622). -/
def State.dieUp (s : State) (d : Nat) : Bool := (s.sys.clk.get d).ready && !s.dieFencedB d

/-- Whether a die takes BAR accesses and frames: it is up, and the tray is not in NO_SERVICE (R520, R524, R602). -/
def State.dieServes (s : State) (d : Nat) : Bool := s.dieUp d && !s.ras.noService

/-- Whether a unit is in service (R516), on a die that is up (R583). -/
def State.unitUp (s : State) (d u : Nat) : Bool := decide ((s.unitRec d u).st = .inService) && s.dieUp d

/-- Whether the block at a node is enabled and in service: router-only nodes have none; CTL, HP and SP nodes follow
their die. -/
def State.blockUp (s : State) (n : Nat) : Bool :=
  match unitAt n with
  | some u => s.unitUp (nodeDie n) u
  | none => decide (blockAt n ≠ (.routerOnly, 0)) && s.dieUp (nodeDie n)

/-- Change a unit's record. -/
def State.modUnit (s : State) (d u : Nat) (f : UnitRec → UnitRec) : State :=
  s.modRas (fun r => { r with units := r.units.modify (unitKey d u) f })

/-! ### Partitions (R318 to R320) -/

/-- The rectangle of a partition's enabled region on a die: X0, X1, Y0, Y1. -/
def State.region (s : State) (p d : Nat) : Option (Nat × Nat × Nat × Nat) :=
  let w := s.appWord ⟨.netRegion, d, p, 0⟩
  if bitOf w 63 then some (bitsOf w 2 0, bitsOf w 8 6, bitsOf w 5 3, bitsOf w 11 9) else none

/-- Whether a node lies in a rectangle. -/
def inRect (n : Nat) (r : Nat × Nat × Nat × Nat) : Bool :=
  decide (r.1 ≤ nodeX n) && decide (nodeX n ≤ r.2.1) && decide (r.2.2.1 ≤ nodeY n) && decide (nodeY n ≤ r.2.2.2)

/-- Shared nodes belong to no partition (R319). -/
def sharedNode (n : Nat) : Bool :=
  match blockAt n with
  | (.hc, _) | (.hp, _) | (.sp, _) | (.sl, _) | (.ctlN, _) | (.ctlS, _) => true
  | _ => false

/-- Whether a node lies in an enabled rectangle of a partition. -/
def State.inRegion (s : State) (p n : Nat) : Bool := (s.region p (nodeDie n)).any (inRect n)

/-- Whether partition `p` owns a node (R319). -/
def State.owns (s : State) (p n : Nat) : Bool := !sharedNode n && s.inRegion p n

/-- The partition that owns a node. -/
def State.ownerOf (s : State) (n : Nat) : Option Nat := (List.range 16).find? (fun p => s.owns p n)

/-- The dies that hold a region of a partition; a fenced die, or one in reset, holds none (R521, R583). -/
def State.regionDies (s : State) (p : Nat) : List Nat :=
  (List.range 4).filter (fun d => (s.region p d).isSome && s.dieUp d)

/-- The admitting die of a partition (R93). -/
def State.admitDie (s : State) (p : Nat) : Option Nat := (s.regionDies p).head?

/-- The partition a function serves (R443). -/
def State.funcPart (s : State) (port func : Nat) : Option Nat :=
  let w := s.appWord ⟨.hpFuncctl, port, func, 0⟩
  if bitOf w 63 then some (bitsOf w 3 0) else none

/-! ### Requests -/

/-- The request `id`. -/
def State.findReq (s : State) (id : Nat) : Option Request := s.req.requests.find? (fun r => r.id == id)

/-- A request runs from its launch to its completion entry (R494; assumption log 5). -/
def Request.running (r : Request) : Bool :=
  match r.step with
  | .launch | .run | .ending => true
  | _ => false

/-- An armed RUN that has not taken an event (R481). -/
def Request.armed (r : Request) : Bool := decide (r.step = .waitEvent)

/-- A reproducible request (R373). -/
def Request.reproducible (r : Request) : Bool := decide (r.mode ≠ .free)

/-- Whether any request of a partition runs. -/
def State.partRuns (s : State) (p : Nat) : Bool := s.req.requests.any (fun r => r.part == p && r.running)

/-- A REPLAY that has stopped at its step (R398): no command of it starts, no core of it goes on. -/
def Request.halted (r : Request) : Bool := r.prog.any (·.stopped)

/-- Whether a command belongs to a request that has stopped. -/
def State.cmdHeld (s : State) (x : CmdRef) : Bool := (s.findReq x.req).any (·.halted)

/-- Whether a request is within its span (R383): it has launched, and a unit of it has still to act. -/
def Request.inSpan (r : Request) : Bool :=
  r.launchedAt.isSome && (match r.step with
    | .run => true
    | .ending => r.endedAt.isNone
    | _ => false)

/-- Whether stalls of a request are logged (R215, R262, R360): it is reproducible, or its traffic is that of a scheduled region. -/
def Request.timed (r : Request) : Bool := r.reproducible || r.srid.isSome

/-- A request that has been admitted and has not begun to end. -/
def Request.admitted (r : Request) : Bool :=
  match r.step with
  | .waitEvent | .waitRegion | .launch | .run => true
  | _ => false

/-- The dies of a request's nodes. -/
def Request.dies (r : Request) : List Nat := (List.range 4).filter (fun d => r.nodes.any (fun n => nodeDie n == d))

/-- The lead node: the first SC of the node list (R479). -/
def Request.lead (r : Request) : Nat := (r.nodes.find? (fun n => (scAt n).isSome)).getD (r.nodes.headD 0)

/-- The SCs of a request, in ascending index order. -/
def Request.scs (r : Request) : List Nat := (List.range 64).filter (fun sc => r.nodes.any (fun n => scAt n == some sc))

/-- The cores of a request. -/
def Request.cores (r : Request) : List Nat := r.scs.flatMap (fun sc => upFrom (8 * sc) 8)

/-- The scheduled region `srid`. -/
def State.findSched (s : State) (srid : Nat) : Option Sched := s.net.scheds.find? (fun c => c.srid == srid)

/-! ### Packets handed to a router -/

/-- The nodes that a packet is for: the one it names, or every enabled node in service of its rectangle and kind (R301). -/
def State.receivers (s : State) (dst : Dest) : List Nat :=
  match dst with
  | .node n => [n]
  | .rect x0 x1 y0 y1 mask kind => allNodes.filter (fun n =>
      bitOf mask (nodeDie n) && inRect n (x0, x1, y0, y1) && kind.any (fun k => decide ((blockAt n).1 = k)) && s.blockUp n)

/-- Whether a sender and every receiver are nodes of an image's ports (R332). -/
def Sched.carries (c : Sched) (a : Nat) (ns : List Nat) : Bool :=
  !ns.isEmpty && (a :: ns).all (fun n => c.ports.any (fun q => q.node == n))

/-- The two SCs of the near link that joins two nodes, where one does and the packet may use it (R304). -/
def nearPair (src : Nat) (dst : Dest) (vc : Nat) : Option (Nat × Nat) :=
  match dst with
  | .node b =>
    match scAt src, scAt b with
    | some x, some y => if vc ≠ 0 ∧ nearLink x y then some (x, y) else none
    | _, _ => none
  | .rect .. => none

/-- The scheduled region that carries a packet of a request from a node (R332). -/
def State.carrier (s : State) (req : Option Nat) (src : Nat) (dst : Dest) : Option Nat :=
  (req.bind s.findReq).bind (fun r => r.srid.bind (fun i => (s.findSched i).bind (fun c =>
    if c.active && !c.broken && c.carries src (s.receivers dst) && c.running == some r.id then some i else none)))

/-- The packet a block makes (R286, R321): its crossing mode follows its request (R31), and it is a scheduled flit where the request's
scheduled region carries it (R332); a near link is no port of an image. -/
def State.packetOf (s : State) (src : Nat) (dst : Dest) (vc flits : Nat) (part req : Option Nat) (pay : Payload) (start : Nat) : Packet :=
  let srid := s.carrier req src dst
  { id := s.net.nextId, src := src, dst := dst, vc := vc, flits := flits, part := part, req := req
    tickRel := srid.isSome || (req.bind s.findReq).any (·.reproducible)
    srid := if (nearPair src dst vc).isSome then none else srid, payload := pay, poison := false, start := start, first := 0, last := flits }

/-- A packet takes a near link (R304): 4 flits, or 128 bytes, per router cycle; a free-running head arrives 4 cycles after it leaves its
block, a tick-released packet is handed over as at a crossing (R30). -/
def State.sendNear (s : State) (k : Nat × Nat) (p : Packet) : State :=
  let first := nextSlot (s.net.nearPos.get k) p.start 4
  let used := (List.range (p.flits - 1)).foldl (fun x _ => nextSlot x x.1 4) first
  let c := first.1
  let due := if p.tickRel then 8 * (c / 8 + (if 6 ≤ c % 8 then 2 else 1)) else c + 4
  s.modNet (fun n => { n with
    nextId := n.nextId + 1, near := n.near.modify k (· ++ [⟨p, 0, due⟩]), nearPos := n.nearPos.set k used })

/-- A block hands a packet over from a router cycle on (R286, R321). A packet between two SCs of a near link takes it (R304); one to the
block of its own node reaches it without a crossing (R28); every other goes to the node's router. -/
def State.sendAt (s : State) (src : Nat) (dst : Dest) (vc flits : Nat) (part req : Option Nat) (pay : Payload) (start : Nat) : State :=
  let p := s.packetOf src dst vc flits part req pay start
  let isOp := match pay with | .beacon .. => true | .beaconAns .. => true | _ => false
  match nearPair src dst vc with
  | some k => s.sendNear k p
  | none =>
    if decide (dst = .node src) && !isOp then
      let fs : List BufFlit := (List.range flits).map (fun i => ⟨p, i, start, []⟩)
      s.modNet (fun n => { n with nextId := n.nextId + 1, eject := n.eject.modify src (· ++ fs) })
    else s.modNet (fun n => { n with nextId := n.nextId + 1, inject := n.inject.modify src (· ++ [p]) })

/-- A block hands a packet over in the present tick. -/
def State.send (s : State) (src : Nat) (dst : Dest) (vc flits : Nat) (part req : Option Nat) (pay : Payload) : State :=
  s.sendAt src dst vc flits part req pay (8 * s.tickOf (nodeDie src))

/-! ### Event records (R525 to R530) -/

/-- A record as its 32 bytes (R526). -/
def EventRec.bytes (r : EventRec) (phase : Bool) : List Byte :=
  leBytes 2 r.code.toNat ++ leBytes 1 r.severity ++ leBytes 1 r.die ++ leBytes 1 r.node
    ++ leBytes 1 (match r.part with | some p => 128 + p | none => 0) ++ zeros 1
    ++ leBytes 1 (eventFlagBits r.lost phase) ++ leBytes 8 r.tick.toNat ++ leBytes 8 r.arg1.toNat
    ++ leBytes 8 r.arg2.toNat

/-- A die's tray log takes a record: 4,096 records, the oldest overwritten, LOST on the next one written (R530). -/
def TrayLog.add (l : TrayLog) (r : EventRec) : TrayLog :=
  if l.recs.length < 4096 then { l with recs := l.recs ++ [r] }
  else { recs := l.recs.drop 1 ++ [{ r with lost := true }], first := (l.first + 1) % 4096, lost := true }

/-- The tray log as it lies in system memory (R530, R636): 4,096 slots of 32 bytes, the records one slot after another from that of the
oldest; a slot that holds none reads 0. -/
def TrayLog.region (l : TrayLog) : List Byte :=
  (List.range 4096).flatMap (fun k => match l.recs[(k + 4096 - l.first) % 4096]? with
    | some r => r.bytes false
    | none => zeros 32)

/-- A record that arises. -/
def State.mkEvent (s : State) (d node : Nat) (part : Option Nat) (c : Code) (a1 a2 : Nat) : EventRec :=
  { code := c.val, severity := c.severity, die := d, node := node, part := part, tick := (s.sys.clk.get d).tick
    arg1 := BitVec.ofNat 64 a1, arg2 := BitVec.ofNat 64 a2, lost := false }

/-- Warden passes records of severity UNIT, DIE or TRAY to the event receiver, where one is set (R567). -/
def State.platformEvent (s : State) (r : EventRec) : State :=
  match s.sys.warden.evtReceiver with
  | some e => if 4 ≤ r.severity && s.sys.warden.running then s.emit (.platformEvent e (r.bytes false)) else s
  | none => s

/-- A code that the manual says is logged (R525): into the tray log of the die where it arises, to Warden's receiver
(R567), and, where it names a partition, on VC0 to the partition's admitting die. -/
def State.log (s : State) (d node : Nat) (part : Option Nat) (c : Code) (a1 a2 : Nat) : State :=
  let r := s.mkEvent d node part c a1 a2
  let s1 := (s.modRas (fun k => { k with logs := k.logs.modify d (·.add r) })).platformEvent r
  match part.bind s.admitDie with
  | none => s1
  | some ad =>
    let src := if node = 255 then ctlNode d else node
    if nodeDie src = ad then s1.modRas (fun k => { k with evtArrivals := k.evtArrivals.modify ad (· ++ [r]) })
    else s1.send src (.node (ctlNode ad)) 0 1 part none (.event r)

/-- A code that Warden logs (R520, R539). -/
def State.wardenLog (s : State) (d : Nat) (c : Code) (a1 a2 : Nat) : State :=
  let r := s.mkEvent d 255 none c a1 a2
  (s.modWarden (fun w => { w with log := w.log ++ [r] })).platformEvent r

/-! ### How a request ends (R491) -/

/-- The earlier of two errors by tick, and in one tick the lower code (R491). -/
def firstErr (old : Option (Nat × Half × Word × Nat)) (t : Nat) (c : Half) (result : Word) (aux : Nat) :
    Nat × Half × Word × Nat :=
  match old with
  | none => (t, c, result, aux)
  | some o => if o.1 = t ∧ c < o.2.1 then (t, c, result, aux) else o

/-- A core that waits at a home sends a cancel as its wait ends (R184). -/
def State.cancelWait (s : State) (c : Nat) : State :=
  let k := s.comp.cores.get c
  match k.wait with
  | .watch node _ _ _ _ _ _ tag _ _ _ =>
    (s.send (coreNode c) (.node node) 0 1 ((k.req.bind s.findReq).map (·.part)) none (.beacon (.cancel tag) .none 0)).modNet
      (fun n => { n with waiting := n.waiting.filter (fun w => !(w.tag == tag)) })
  | _ => s

/-- A core stops running a request: its wait is cancelled, its reservation ends, and what is answered later no longer concerns it. -/
def State.haltCore (s : State) (c : Nat) : State :=
  ((s.cancelWait c).modNet (fun n => { n with waiting := n.waiting.filter (fun w => decide (w.agent ≠ .core c)) })).modCore c (fun k =>
    { k with req := none, wait := .none, resv := none, xlat := none, loads := [], fetched := none, stores := 0, hostStores := 0 })

/-- An error strikes a request: its first error by tick, and in one tick the lowest code, is its ending code (R491). A
request that runs begins to end; its cores halt. One that has not launched ends at its present step (REQUEST_END forms
the entry). -/
def State.endReq (s : State) (id : Nat) (c : Code) (result : Word) (aux : Nat) : State :=
  match s.findReq id with
  | none => s
  | some r =>
    if r.step = .done then s
    else
      let t := s.tickOf (nodeDie r.lead)
      let s1 := s.modReq id (fun q => { q with err := some (firstErr q.err t c.val result aux), step := .ending })
      (r.cores.filter (fun i => decide ((s.comp.cores.get i).req = some id))).foldl State.haltCore s1

/-- Every request that satisfies `p` and has not completed ends with a code. -/
def State.endReqs (s : State) (p : Request → Bool) (c : Code) : State :=
  (s.req.requests.filter (fun r => p r && r.running)).foldl (fun s r => s.endReq r.id c 0 0) s

end Sys2Proof.Machine
end

