-- ==== Sys2Proof/Machine/Fence.lean ====
section
/-! DEFINITION. What breaks: locks (R205), scheduled regions (R342), rings (R473), links (R358), units (R518), dies (R520,
R521), the minimum service set (R522, R524), and the exceptions of cores. -/

namespace Sys2Proof.Machine

/-! ### Cores -/

/-- A core takes an exception (R172, R180): mepc, mcause and mtval are written, the mode and interrupt enable are saved in
mstatus (MPP [12:11], MPIE [7], MIE [3]), and the core enters M-mode at mtvec. -/
def Core.enterTrap (k : Core) (cause : Nat) (tval : Word) : Core :=
  let st := k.mstatus.toNat
  let mpp := match k.mode with | .m => 3 | .u => 0
  { k with
    mepc := k.pc, mcause := BitVec.ofNat 64 cause, mtval := tval, mode := .m, wait := .none
    pc := BitVec.ofNat 64 (k.mtvec.toNat / 4 * 4)
    mstatus := BitVec.ofNat 64 (putBits (putBits (putBits st 12 11 mpp) 7 7 (bitsOf st 3 3)) 3 3 0) }

/-- A core takes an interrupt (R184): as an exception, with bit 63 of mcause set; a vectored mtvec adds 4 times the cause. -/
def Core.enterIrq (k : Core) (cause : Nat) : Core :=
  let k1 := k.enterTrap (2 ^ 63 + cause) 0
  if k.mtvec.toNat % 4 = 1 then { k1 with pc := k1.pc + BitVec.ofNat 64 (4 * cause) } else k1

/-- A core as it stood at an access or operation that is under way: its pc is there again, and for a wait its registers too. -/
def Core.rewind (k : Core) (tag : Nat) : Core :=
  match k.loads.find? (fun l => l.tag == tag) with
  | some l => { k with pc := l.pc, loads := k.loads.filter (fun l => !(l.tag == tag)) }
  | none =>
    match k.wait with
    | .op t _ _ pc => if t = tag then { k with pc := pc } else k
    | .watch _ _ _ _ _ _ _ t _ aq pc => if t = tag ∧ !aq then { k with pc := pc, x := k.ckpt, loads := [] } else k
    | _ => k

/-- A core takes an exception and its request ends with a code: RESULT and AUX of R490 hold mtval, and mcause and core
index, for CORE_TRAP; a Gatehouse code's RESULT is the DVA and its AUX the node. -/
def State.coreFault (s : State) (c cause : Nat) (tval : Word) (code : Code) : State :=
  let s1 := s.modCore c (·.enterTrap cause tval)
  match (s.comp.cores.get c).req with
  | none => s1
  | some r =>
    let aux := if code = .coreTrap then cause * 2 ^ 24 + c else coreNode c
    s1.endReq r code tval aux

/-- An exception of request code: the cluster runtime does not resume the request, and it ends with CORE_TRAP (R180). -/
def State.coreTrap (s : State) (c cause : Nat) (tval : Word) : State := s.coreFault c cause tval .coreTrap

/-- An awaited access ends at its requester with a code (R316): a core takes its access fault, which ends its request as any trap
does (R180), or with LINK_DOWN where a link went down (R358); another agent's command or transfer ends with the code. -/
def State.awaitFails (s : State) (w : AwaitEnt) (code : Code) : State :=
  let s1 := s.modNet (fun n => { n with waiting := n.waiting.filter (fun x => !(x.tag == w.tag)) })
  match w.agent with
  | .core c =>
    let s2 := s1.modCore c (·.rewind w.tag)
    if code = .linkDown then s2.coreFault c w.cause w.tval code else s2.coreTrap c w.cause w.tval
  | .notify _ r => s1.endReq r code 0 0
  | .block _ r => withSome r s1 (fun r s => s.endReq r code 0 0)
  | .sua _ r => s1.endReq r code 0 0
  | .none => s1

/-! ### Locks -/

/-- A lock's record as LK.INFO returns it and the event log carries it (R209, R527). -/
def Lock.record (l : Lock) : Nat :=
  l.epoch.toNat * 2 ^ 32 + l.st * 2 ^ 30 + (if l.st = 2 then l.cause else 0) * 2 ^ 27 + l.part * 2 ^ 23
    + l.port * 2 ^ 21 + l.func * 2 ^ 17 + l.core * 2 ^ 8

/-- A HELD lock becomes BROKEN with a cause, and LOCK_BROKEN goes to the event log and to the partition (R204, R205). -/
def State.breakLock (s : State) (i cause : Nat) : State :=
  let l := s.comp.locks.get i
  if l.st = 1 then
    let l' := { l with st := 2, cause := cause }
    (s.modLock i (fun _ => l')).log (i / 256) (ctlNode (i / 256)) (some l.part) .lockBroken l'.record 0
  else s

/-- Every HELD lock that satisfies `p` breaks. -/
def State.breakLocks (s : State) (p : Nat → Lock → Bool) (cause : Nat) : State :=
  eachOf ((List.range 1024).filter (fun i => p i (s.comp.locks.get i))) (fun i s => s.breakLock i cause) s

/-- The locks whose recorded owner is a core of a request. -/
def Request.ownsLock (r : Request) (l : Lock) : Bool := r.part == l.part && r.cores.any (fun c => c == l.core)

/-! ### Scheduled regions -/

/-- A scheduled region becomes BROKEN: its masks are released at once and its running request, one that is being launched too, ends
with SCHED_BROKEN (R342). -/
def State.breakSched (s : State) (c : Sched) : State :=
  (s.modSched c.srid (fun c => { c with broken := true, running := none })).endReqs
    (fun r => decide (c.running = some r.id) || (decide (r.srid = some c.srid) && r.part == c.part)) .schedBroken

/-- Every installed scheduled region that satisfies `p` and is not BROKEN becomes BROKEN. -/
def State.breakScheds (s : State) (p : Sched → Bool) : State :=
  (s.net.scheds.filter (fun c => !c.broken && p c)).foldl (fun s c => s.breakSched c) s

/-! ### Rings -/

/-- Key of a ring. -/
def ringKey (p : Nat) (cq : Bool) (q : Nat) : Nat := 128 * p + 64 * b2n cq + q

/-- The register that shows a ring's state. -/
def ringCtl (p : Nat) (cq : Bool) (q : Nat) : RegKey := ⟨if cq then .ringCqctl else .ringSqctl, p, q, 0⟩

/-- A ring enters ERROR with a code, which it shows and which is logged (R473). -/
def State.ringError (s : State) (p : Nat) (cq : Bool) (q : Nat) (c : Code) : State :=
  let s1 := s.modRing (ringKey p cq q) (fun r => { r with st := 2, code := c.val })
  let s2 := if cq then s1.modReqs (fun r => { r with due := r.due.filter (fun e => !(e.part == p && e.cq == q)) }) else s1
  s2.log ((s.admitDie p).getD 0) 255 (some p) c 0 0

/-- Every ACTIVE ring of a partition enters ERROR. -/
def State.ringsError (s : State) (p : Nat) (c : Code) : State :=
  (List.range 128).foldl (fun s k =>
    if (s.req.rings.get (128 * p + k)).st = 1 then s.ringError p (decide (64 ≤ k)) (k % 64) c else s) s

/-! ### Service -/

/-- The report of a unit's state by its die (R588). -/
def State.unitReport (s : State) (d u : Nat) : UnitReport :=
  let r := s.unitRec d u
  ⟨r.st, if r.st = .offline then (if r.origin then 1 else 2) else 0, r.gen, (s.sys.clk.get d).resets⟩

/-- Warden's copy of a unit's state follows the state notice of the die (R588). -/
def State.notice (s : State) (d u : Nat) : State :=
  if s.sys.warden.running then s.modWarden (fun w => { w with cache := w.cache.set (unitKey d u) (some (s.unitReport d u)) }) else s

/-- The minimum service set (R522). -/
def State.serviceSet (s : State) : Bool :=
  s.sys.warden.running && !(List.range 4).any (fun d => s.ras.wardenLost.get d) && (List.range 4).any (fun d => (s.sys.clk.get d).ready && !s.dieFencedB d
    && (List.range 8).any (fun i => s.unitUp d (20 + i)) && (List.range 16).any (fun i => s.unitUp d i))

/-- Whether every die has either set READY or been fenced (R612). -/
def State.judged (s : State) : Bool := (List.range 4).all (fun d => (s.sys.clk.get d).ready || s.dieFencedB d)

/-- The tray enters NO_SERVICE (R524): every die that is not fenced logs it, every running request ends, every ACTIVE ring
enters ERROR. -/
def State.enterNoService (s : State) : State :=
  let s1 := s.modRas (fun r => { r with noService := true })
  let s2 := eachOf ((List.range 4).filter (fun d => !s.dieFencedB d)) (fun d s => s.log d 255 none .noService 0 0) s1
  let s3 := s2.endReqs (fun _ => true) .noService
  eachOf (List.range 16) (fun p s => s.ringsError p .noService) s3

/-- Warden judges the minimum service set (R612, R524). -/
def State.judgeService (s : State) : State :=
  if s.judged && !s.serviceSet && !s.ras.noService then s.enterNoService else s

/-! ### Links -/

/-- Whether a link is up (R372): UP32 or UP16. -/
def Link.up (l : Link) : Bool :=
  match l.st with
  | .up32 | .up16 => true
  | _ => false

/-- Whether the link between two dies is up. -/
def State.linkUp (s : State) (a b : Nat) : Bool := (s.link.links.get (linkKey a b)).up

/-- Whether a partition has regions on both dies (its own registers, whether or not the dies are fenced). -/
def State.spans (s : State) (p a b : Nat) : Bool := (s.region p a).isSome && (s.region p b).isSome

/-- Unit number of the link from die `a` to die `b` at die `a`. -/
def linkUnit (a b : Nat) : Nat := 31 + linkIndex a b

/-- Whether an image names an SX port of the link between two dies. -/
def Sched.usesLink (c : Sched) (a b : Nat) : Bool :=
  c.ports.any (fun q => q.port == 6 && (q.node == unitNode a (linkUnit a b) || q.node == unitNode b (linkUnit a b)))

/-- A unit's record becomes FENCED with a cause, its generation advances, and UNIT_FENCED is logged (R516, R517). -/
def State.markFenced (s : State) (d u : Nat) (cause : Half) : State :=
  let g := (s.unitRec d u).gen + 1
  let s1 := s.modUnit d u (fun r => { r with st := .fenced, gen := g, cause := cause, origin := false })
  (s1.log d (unitNode d u) none .unitFenced cause.toNat g.toNat).notice d u

/-- A die with no up link is marked unaligned (R37). -/
def State.checkAligned (s : State) (d : Nat) : State :=
  if (List.range 4).any (fun e => decide (e ≠ d) && s.linkUp d e) then s else s.modClk d (fun k => { k with aligned := false })

/-- The effects of a link's going down other than its fence (R358): its flits are discarded, admitted requests of
partitions that span its dies (R358, R371), and running ones that are served through one of them with a region on the other (R448), end, and scheduled regions on its SX ports break; what waits across it ends with LINK_DOWN,
and a die that has lost its last link is unaligned (R37). Requests that satisfy `own` are left to what ends them otherwise. -/
def State.linkLost (s : State) (a b : Nat) (own : Request → Bool) : State :=
  let s1 := s.modLink (linkKey a b) (fun l => { l with st := .down, retrainStart := none, degrading := false, cmpLo := none, cmpHi := none })
  let drop : LinkDir → LinkDir := fun x => { x with flight := [], words := [] }
  let s2 := (s1.modDir (dirKey a b) drop).modDir (dirKey b a) drop
  let through (r : Request) (x y : Nat) : Bool := r.port == x && (s.region r.part y).isSome
  let s3 := (s2.req.requests.filter (fun r => !own r && ((r.admitted && s.spans r.part a b)
    || (r.running && (through r a b || through r b a))))).foldl (fun s r => s.endReq r.id .linkDown 0 0) s2
  let s4 := s3.breakScheds (fun c => c.usesLink a b)
  let src (w : AwaitEnt) : Option Nat := match w.agent with
    | .core c => some (nodeDie (coreNode c))
    | .notify c _ => some (nodeDie (coreNode c))
    | .block n _ => some (nodeDie n)
    | .sua k _ => some (nodeDie (scNode k))
    | .none => none
  let across (w : AwaitEnt) : Bool := (src w == some a && nodeDie w.dst == b) || (src w == some b && nodeDie w.dst == a)
  let s5 := (s4.net.waiting.filter across).foldl (fun s w => s.awaitFails w .linkDown) s4
  (s5.checkAligned a).checkAligned b

/-- A link goes down (R358): it is fenced at both dies, and LINK_DOWN is logged. -/
def State.linkGoesDown (s : State) (a b : Nat) (own : Request → Bool := fun _ => false) : State :=
  let lo := min a b
  let hi := max a b
  let s0 := s.log lo (unitNode lo (linkUnit lo hi)) none .linkDown (linkIndex lo hi) 0
  let s1 := eachOf ([lo, hi].filter (fun d => decide ((s.unitRec d (linkUnit a b)).st = .inService)))
    (fun d s => s.markFenced d (linkUnit a b) Code.linkDown.val) s0
  s1.linkLost a b own

/-! ### Units and dies -/

/-- Whether a store address lies in a unit. -/
def inUnit (d u a : Nat) : Bool := decide (addrUnit a = some (d, u))

/-- Whether a request has pinned a page in a unit (R237, R518). -/
def State.pinnedIn (s : State) (r d u : Nat) : Bool :=
  allNodes.any (fun n => (s.mem.nodes.get n).cache.any (fun e =>
    e.pins.contains r && decide (addrUnit (bitsOf e.entry 39 16 * 65536) = some (d, u)) && bitsOf e.entry 62 61 == 0))

/-- Models keep their units only on the SCs that do not satisfy `p` (R518): a model with none left is gone. -/
def State.dropSites (s : State) (p : Nat → Bool) : State :=
  s.modComp (fun k => { k with
    models := (k.models.map (fun m => { m with sites := m.sites.filter (fun t => !p t.sc) })).filter (fun m => !m.sites.isEmpty) })

/-- The die at which a waiting access would act. -/
def Parked.die (q : Parked) : Option Nat :=
  match q with
  | .write _ _ a _ => (addrUnit a).map (·.1)
  | .read _ node _ _ _ _ => some (nodeDie node)
  | .notice _ port .. => some port

/-- Waiting writes to a slice that leaves service are lost. -/
def State.dropParked (s : State) (ms : Nat) : State :=
  let mine (q : Parked) : Bool := match q with
    | .write _ _ a _ => decide (addrUnit a = some (ms / 8, 20 + ms % 8))
    | _ => false
  s.modMem (fun m => { m with parked := m.parked.filter (fun q => !mine q) })

/-- The contents of a unit are lost (R518): its memory, and for an SC its SUA, for a TE its command and queue, for an MS its
row logic and copies; an SC's cores halt. -/
def State.loseUnit (s : State) (d u : Nat) : State :=
  let s1 := s.modMem (fun m => { m with mem := m.mem.clear (inUnit d u) })
  if u < 16 then
    (upFrom (8 * (16 * d + u)) 8).foldl (fun s c => s.modCore c (fun _ => Core.reset))
      ((s1.modSua (16 * d + u) (fun _ => Sua.reset)).dropSites (fun sc => sc == 16 * d + u))
  else if u < 20 then s1.modTe (4 * d + (u - 16)) (fun _ => Te.reset)
  else if u < 28 then ((s1.dropParked (8 * d + (u - 20))).modRlu (8 * d + (u - 20)) (fun _ => Rlu.reset)).modCopy (8 * d + (u - 20)) (fun _ => CopyEng.reset)
  else s1

/-- The effects of a unit's leaving service (R518, R516: OFFLINE is treated as FENCED): its requests end, its scheduled
regions and held locks break, its contents are lost. -/
def State.unitLeaves (s : State) (d u : Nat) : State :=
  let n := unitNode d u
  let s1 := s.endReqs (fun r => r.nodes.contains n || s.pinnedIn r.id d u) .unitFenced
  let s2 := s1.breakScheds (fun c => c.ports.any (fun q => q.node == n))
  let s3 := if u < 16 then s2.breakLocks (fun _ l => decide (l.core / 8 = 16 * d + u)) 2 else s2
  s3.loseUnit d u

/-- One unit of a die is fenced with a cause, whatever follows for the die (R517, R518). -/
def State.fenceOne (s : State) (d u : Nat) (cause : Half) (own : Request → Bool := fun _ => false) : State :=
  if 32 ≤ u then (if s.linkUp d (d ^^^ (u - 31)) then s.linkGoesDown d (d ^^^ (u - 31)) own else s.markFenced d u cause)
  else (s.markFenced d u cause).unitLeaves d u

/-- The partitions whose admitting die is `d`. -/
def State.admittedBy (s : State) (d : Nat) : List Nat := (List.range 16).filter (fun p => s.admitDie p == some d)

/-- A request's pinned entries are released (R237). -/
def State.unpin (s : State) (r : Nat) : State :=
  s.modMem (fun m => { m with nodes := m.nodes.mapAll (fun g =>
    { g with cache := g.cache.map (fun e => { e with pins := e.pins.filter (fun i => i != r) }) }) })

/-- What a die's Steward had taken is lost (R521): no completion entry, and the partitions' ACTIVE rings enter ERROR. -/
def State.loseSteward (s : State) (d : Nat) : State :=
  let ps := s.admittedBy d
  let gone := s.req.requests.filter (fun x => ps.contains x.part && !x.running)
  let s1 := gone.foldl (fun s x => s.unpin x.id) (ps.foldl (fun s p => s.ringsError p .dieFenced) s)
  s1.modReqs (fun r => { r with
    notices := r.notices.set d []
    descs := r.descs.filter (fun x => !ps.contains x.part)
    requests := r.requests.filter (fun x => !ps.contains x.part || x.running)
    due := r.due.filter (fun e => !ps.contains e.part) })

/-- Beacon-class operations and accesses that wait at a die from other dies end with LINK_DOWN (R583), and the die's own
watches are lost. -/
def State.dropWaits (s : State) (d : Nat) : State :=
  (s.net.waiting.filter (fun w => nodeDie w.dst == d)).foldl (fun s w => s.awaitFails w .linkDown) s

/-- A die is fenced (R520): it and Warden log DIE_FENCED, what its Steward had taken is lost, every unit of it becomes
FENCED, and the other dies treat its links as DOWN. A running request with nodes on it ends by the fence, not by its links (R637), and one
that satisfies `own` by what ends it otherwise. Warden judges the service set. -/
def State.fenceDieBut (s : State) (d : Nat) (own : Request → Bool) : State :=
  if s.dieFencedB d then s
  else
    let s0 := (s.log d 255 none .dieFenced d 0).wardenLog d .dieFenced d 0
    let s1 := s0.loseSteward d
    let s2 := eachOf ((List.range 35).filter (fun u => decide ((s.unitRec d u).st = .inService)))
      (fun u s => s.fenceOne d u Code.dieFenced.val (fun r => own r || (r.running && r.dies.contains d))) s1
    let s3 := (s2.modRas (fun r => { r with dieFenced := r.dieFenced.set d true })).dropWaits d
    let s4 := (s3.endReqs (fun r => r.dies.contains d) .unitFenced).modClk d (fun k => { k with ready := false })
    s4.judgeService

/-- A die is fenced (R520). -/
def State.fenceDie (s : State) (d : Nat) : State := s.fenceDieBut d (fun _ => false)

/-- The effects of a unit's being FENCED or OFFLINE, once its record says so (R516, R518). -/
def State.outOfService (s : State) (d u : Nat) : State :=
  if 32 ≤ u then (if s.linkUp d (d ^^^ (u - 31)) then s.linkLost d (d ^^^ (u - 31)) (fun _ => false) else s)
  else
    let s1 := s.unitLeaves d u
    if u = 28 then s1.fenceDie d else s1.judgeService

/-- A unit in service is fenced with a cause (R517); a fenced HC0 fences its die (R518). -/
def State.fenceUnit (s : State) (d u : Nat) (cause : Half) : State :=
  if (s.unitRec d u).st = .inService then
    let s1 := s.fenceOne d u cause
    if u = 28 then s1.fenceDie d else s1.judgeService
  else s

end Sys2Proof.Machine
end

