-- ==== Sys2Proof/Machine/MemOps.lean ====
section
/-! DEFINITION. Demand reads and writes of memory with their errors (R503 to R506, R514, R529), the Gatehouse (R226 to
R238, R637), and reads and writes of agents at device virtual addresses. -/

namespace Sys2Proof.Machine

/-! ### Errors -/

/-- A corrected error is counted in its unit and logged at most once per unit in 2^20 ticks (R505, R529). -/
def State.countCe (s : State) (part : Option Nat) (a : Nat) : State :=
  match addrUnit a with
  | none => s
  | some (d, u) =>
    let r := s.unitRec d u
    let s1 := s.modUnit d u (fun r => { r with ce := satTo (2 ^ 20 - 1) (r.ce + 1) })
    let due := match r.lastCe with | none => true | some t => decide (2 ^ 20 ≤ s.since d t)
    if due then
      (s1.modUnit d u (fun r => { r with lastCe := some (s.tickOf d) })).log d (unitNode d u) part .memCe (memArg a) (memKind a)
    else s1

/-- An uncorrectable error is counted in its unit; at UE_LIMIT the unit is fenced (R517), and one in system memory fences
the die (R520). -/
def State.countUe (s : State) (a : Nat) : State :=
  match addrUnit a with
  | none => s
  | some (d, u) =>
    let n := satTo 255 ((s.unitRec d u).ue + 1)
    let s1 := s.modUnit d u (fun r => { r with ue := n })
    let lim := s.appF .rasScrubctl d 0 0 63 56
    let s2 := if decide (lim ≠ 0) && decide (lim ≤ n) then s1.fenceUnit d u Code.ueLimit.val else s1
    match sysDie a with
    | some e => s2.fenceDie e
    | none => s2

/-- A correction or poisoning is queued: each bank or pseudo channel queues 8 (R505). -/
def State.queueCorr (s : State) (a : Nat) (toPoison : Bool) : State :=
  let b := corrBank a
  if (s.ras.corrections.filter (fun c => c.bank == b)).length < 8 then
    let l := a / 64 * 64
    let ws := if toPoison then (List.range (64 / wordBytes a)).map (fun i => l + i * wordBytes a) else [a]
    s.modRas (fun r => { r with corrections := r.corrections ++ [⟨b, ws, toPoison⟩] })
  else s

/-- A demand read of one protected word (R505, R506): whether it is poisoned. -/
def State.demandWord (s : State) (part : Option Nat) (w : Nat) : Bool × State :=
  match s.mem.mem.marks.get? w with
  | none => (false, s)
  | some .ce => (false, (s.countCe part w).queueCorr w false)
  | some .ue =>
    let (d, u) := (addrUnit w).getD (0, 0)
    (true, ((s.log d (unitNode d u) part .memUe (memArg w) (memKind w)).queueCorr w true).countUe w)
  | some .poison => (true, s)

/-- A walk has read a table entry that holds an uncorrectable error or the poison syndrome (R637): MEM_UE is logged, and the die whose
system memory holds the entry is fenced (R520). -/
def State.walkUe (s : State) (p a : Nat) : State :=
  let w := wordAt a
  match s.mem.mem.marks.get? w with
  | some .poison =>
    let (d, u) := (addrUnit w).getD (0, 0)
    let s1 := s.log d (unitNode d u) (some p) .memUe (memArg w) (memKind w)
    match sysDie w with
    | some e => s1.fenceDie e
    | none => s1
  | _ => (s.demandWord (some p) w).2

/-- A demand read of words: whether any is poisoned. -/
def State.demandWords (s : State) (part : Option Nat) : List Nat → Bool × State
  | [] => (false, s)
  | w :: ws =>
    let r := s.demandWord part w
    let t := r.2.demandWords part ws
    (r.1 || t.1, t.2)

/-- Key of the pseudo channel of a store address in HBM (R214). -/
def pseudoChannel (a : Nat) : Option Nat :=
  match placeOf a with
  | .hbm hc off => some (32 * hc + off / 256 % 32)
  | _ => none

/-- An access to a pseudo channel (R213, R216): a severity report of the stack's on-die ECC counts as a corrected event; a parity error
repeats the access once, and a second on the repeat is an uncorrectable error of the access: whether that struck. -/
def State.hbmLink (s : State) (part : Option Nat) (a : Nat) : Bool × State :=
  match pseudoChannel a with
  | none => (false, s)
  | some k =>
    let n := s.mem.hbmParity.get k
    let s1 := if n = 0 then s else s.modMem (fun m => { m with hbmParity := m.hbmParity.set k (n - min n 2) })
    let v := s.mem.hbmSev.get k
    let s2 := if v = 0 then s1 else (s1.modMem (fun m => { m with hbmSev := m.hbmSev.set k (v - 1) })).countCe part a
    (decide (2 ≤ n), s2)

/-- What a read gives: bytes and whether any word is poisoned. -/
structure ReadRes where
  bytes : List Byte
  poison : Bool
deriving DecidableEq, Repr

/-- An access meets an uncorrectable error of its own (R216, R506): it is logged and counted, and its line is queued to be poisoned. -/
def State.accessUe (s : State) (part : Option Nat) (a : Nat) : State :=
  let w := wordAt (normAddr a)
  let (d, u) := (addrUnit w).getD (0, 0)
  ((s.log d (unitNode d u) part .memUe (memArg w) (memKind w)).queueCorr w true).countUe w

/-- A demand read of `n` bytes at a store address. -/
def State.readMem (s : State) (part : Option Nat) (a n : Nat) : ReadRes × State :=
  let l := s.hbmLink part (normAddr a)
  let r := l.2.demandWords part (wordsOf a n)
  (⟨s.mem.mem.bytes a n, r.1 || l.1⟩, if l.1 then r.2.accessUe part a else r.2)

/-- Whole words are written with fresh check bits; the words' marks and queued corrections go (R504, R505). -/
def MemSys.cleanWords (m : MemSys) (ws : List Nat) : MemSys :=
  { m with mem := { m.mem with marks := m.mem.marks.filter (fun w _ => !ws.contains w) } }

/-- A write ends the reservations on its lines (R174), and its CMEM lines leave every D-cache (R177). -/
def State.breakResv (s : State) (a n : Nat) : State :=
  let hit (l : Nat) : Bool := (List.range (n / 64 + 2)).any (fun i => normAddr (a + 64 * i) / 64 == l && 64 * i < n + 64)
  s.modComp (fun k => { k with cores := k.cores.mapAll (fun c =>
    { c with resv := c.resv.filter (fun l => !hit l), dcache := c.dcache.filter (fun l => !hit (l.addr / 64)) }) })

/-- Bytes of a run that lie in words outside `bad`. -/
def putExcept (m : Mem) (bad : List Nat) : Nat → List Byte → Mem
  | _, [] => m
  | a, b :: bs => putExcept (if bad.contains (wordAt (normAddr a)) then m else m.setByte a b) bad (a + 1) bs

/-- A demand write (R504): whole words are replaced, partial words are read, modified and written; a partial word with an
uncorrectable error or poison keeps its bytes, and so do all where the write meets an uncorrectable error of its own (R216). The answer says
whether such a word or error was met. -/
def State.writeMem (s : State) (part : Option Nat) (a : Nat) (bs : List Byte) : Bool × State :=
  let whole := wholeWords a bs.length
  let partials := (wordsOf a bs.length).filter (fun w => !whole.contains w)
  let bad := partials.filter (fun w => s.mem.mem.bad w)
  let l := s.hbmLink part (normAddr a)
  let r := (if l.1 then l.2.accessUe part a else l.2).demandWords part partials
  let s1 := if l.1 then r.2
    else r.2.modMem (fun m => { (m.cleanWords whole) with mem := putExcept (m.cleanWords whole).mem bad a bs })
  let trim (c : Corr) : Corr := { c with words := c.words.filter (fun w => !whole.contains w) }
  let s2 := if l.1 then s1 else s1.modRas (fun k => { k with corrections := (k.corrections.map trim).filter (fun c => !c.words.isEmpty) })
  (r.1 || l.1, s2.breakResv a bs.length)

/-- Bytes written by the tray itself, whatever the words held (clears, Steward's own data). -/
def State.pokeMem (s : State) (a : Nat) (bs : List Byte) : State :=
  (s.modMem (fun m => { (m.cleanWords (wordsOf a bs.length)) with mem := (m.cleanWords (wordsOf a bs.length)).mem.put a bs })).breakResv
    a bs.length

/-! ### Page tables -/

/-- Agent classes (R231), in the order of R231. -/
inductive AgClass where
  | core | te | sua | rlu | dma | stream | host
deriving DecidableEq, Repr

/-- Number of a class (R231, R527), and its AGENTS bit above bit 8 (R229). -/
def AgClass.num : AgClass → Nat
  | .core => 0
  | .te => 1
  | .sua => 2
  | .rlu => 3
  | .dma => 4
  | .stream => 5
  | .host => 6

/-- Kinds of access that check 6 tells apart (R232). -/
inductive AccKind where
  | read | write | amo | fetch
deriving DecidableEq, Repr

/-- The 8-byte table entry at an offset of a die's system memory. -/
def State.tableEntry (s : State) (d off : Nat) : Nat := leVal (s.mem.mem.bytes (sysBase d + off) 8)

/-- A table pointer (R228). -/
def isPointer (e : Nat) : Bool := bitsOf e 62 61 == 2

/-- Offset a table pointer holds (R228). -/
def pointerOff (e : Nat) : Nat := bitsOf e 28 8 * 256

/-- A malformed pointer: a reserved bit is set (R228, R230). -/
def badPointer (e : Nat) : Bool := decide (bitsOf e 60 29 ≠ 0) || decide (bitsOf e 7 0 ≠ 0)

/-- A malformed page entry (R230). -/
def badPage (e : Nat) (big : Bool) : Bool :=
  decide (bitsOf e 62 61 = 3) || bitOf e 15 || decide (bitsOf e 5 0 ≠ 0)
    || (big && decide (bitsOf e 20 16 ≠ 0))
    || (decide (bitsOf e 62 61 = 0) && (decide (bitsOf e 60 55 ≠ 0) || decide (bitsOf e 7 6 ≠ 0) || decide (bitsOf e 51 40 ≠ 0)))

/-- What a walk finds. -/
inductive WalkRes where
  | page (entry : Nat) (big : Bool)
  | format
  | unmapped
  | ue (addr : Nat)
deriving DecidableEq, Repr

/-- One level of a walk (R226): the entry read, or why the walk stops. -/
def State.walkEntry (s : State) (d off : Nat) (k : Nat → WalkRes) : WalkRes :=
  if s.mem.mem.bad (sysBase d + off) then .ue (sysBase d + off)
  else
    let e := s.tableEntry d off
    if bitsOf e 62 61 = 3 then .format
    else if !bitOf e 63 then .unmapped
    else k e

/-- A walk of die `d`'s copy of a partition's tables (R226, R227). -/
def State.walk (s : State) (d p va : Nat) : WalkRes :=
  let base := s.appWord ⟨.memPtbase, d, p, 0⟩
  if !bitOf base 63 then .unmapped
  else
    let next (e : Nat) (k : Nat → WalkRes) : WalkRes :=
      if !isPointer e then .format else if badPointer e then .format else k (pointerOff e)
    s.walkEntry d (bitsOf base 28 12 * 4096 + 8 * bitsOf va 56 48) fun e3 => next e3 fun t2 =>
    s.walkEntry d (t2 + 8 * bitsOf va 47 39) fun e2 => next e2 fun t1 =>
    s.walkEntry d (t1 + 8 * bitsOf va 38 30) fun e1 => next e1 fun t0 =>
    s.walkEntry d (t0 + 8 * bitsOf va 29 21) fun e0 =>
      if isPointer e0 then
        (if badPointer e0 then .format
         else s.walkEntry d (pointerOff e0 + 8 * bitsOf va 20 16) fun e =>
           if isPointer e then .format else if badPage e false then .format else .page e false)
      else if badPage e0 true then .format
      else .page e0 true

/-! ### Translation caches -/

/-- The base of the page of a size that holds an address. -/
def pageBase (va : Nat) (big : Bool) : Nat := if big then va / 0x200000 * 0x200000 else va / 0x10000 * 0x10000

/-- Whether a cache entry holds a partition's translation of an address. -/
def CacheEnt.covers (e : CacheEnt) (p va : Nat) : Bool := e.tag.part == p && e.tag.va == pageBase va e.tag.big

/-- The cached entry of an address, with the cache in which it is the most recently used. -/
def GhNode.hit (g : GhNode) (p va : Nat) : Option (CacheEnt × GhNode) :=
  match g.cache.find? (fun e => e.covers p va) with
  | some e => some (e, { g with cache := (g.cache.filter (fun x => !(x.tag == e.tag))) ++ [e] })
  | none => none

/-- The cache with one entry fewer: the least recently used that is not pinned (R235), where there is one. -/
def dropLru (l : List CacheEnt) : Option (List CacheEnt) :=
  match l.find? (fun e => e.pins.isEmpty) with
  | some e => some (l.filter (fun x => !(x.tag == e.tag)))
  | none => none

/-- A walk's result enters the cache (R235): 128 entries; where every entry is pinned it is not kept. -/
def GhNode.fill (g : GhNode) (e : CacheEnt) : GhNode :=
  let l := g.cache.filter (fun x => !(x.tag == e.tag))
  if l.length < 128 then { g with cache := l ++ [e] }
  else
    match dropLru l with
    | some l' => { g with cache := l' ++ [e] }
    | none => g

/-- Change a node's translation state. -/
def State.modGh (s : State) (n : Nat) (f : GhNode → GhNode) : State :=
  s.modMem (fun m => { m with nodes := m.nodes.modify n f })

/-! ### The checks of R232 -/

/-- Who makes an access: partition, node, class, request; whether its writes are bulk transfers (R293); and the address a failure is logged
with, where that is not the access's own (R193). -/
structure Accessor where
  part : Nat
  node : Nat
  cls : AgClass
  req : Option Nat
  bulk : Bool
  logVa : Option Nat
deriving DecidableEq, Repr

/-- An agent whose writes are no bulk transfers and whose failures are logged with their own addresses. -/
def accessor (part node : Nat) (cls : AgClass) (req : Option Nat) : Accessor := ⟨part, node, cls, req, false, none⟩

/-- Where a checked access goes. -/
inductive Target where
  | dev (addr : Nat)
  | host (port func addr : Nat) (noSnoop relaxed : Bool)
deriving DecidableEq, Repr

/-- Whether a DPA is in the partition's allotment (R234). -/
def State.allotted (s : State) (p a : Nat) : Bool :=
  match placeOf a with
  | .hbm hc _ =>
    (List.range 8).any (fun i =>
      let w := s.appWord ⟨.memAllot, hc / 4, p, i⟩
      bitOf w 63 && decide (bitsOf w 18 0 ≤ a / 0x200000) && decide (a / 0x200000 ≤ bitsOf w 50 32))
  | .edram ms _ =>
    if a < 0x8040000000 then s.owns p (msNode ms)
    else (List.range 8).all (fun i => s.owns p (msNode (ms / 8 * 8 + i)))
  | .cmem sc _ => s.owns p (scNode sc)
  | .tile te _ => s.owns p (teNode te)
  | .cst .. => false
  | .hole => false

/-- Whether a DPA may be a target (check 7). -/
def State.targetOk (s : State) (a : Nat) : Bool :=
  match placeOf a with
  | .hole => false
  | .cst .. => false
  | .hbm .. => (sysDie a).isNone && (addrUnit a).any (fun x => s.unitUp x.1 x.2)
  | .tile te off =>
    !(decide (0x1C0000 ≤ off) && decide (s.appF .teModectl (te / 4) (te % 4) 0 0 0 = 1)) && s.unitUp (te / 4) (16 + te % 4)
  | _ => (addrUnit a).any (fun x => s.unitUp x.1 x.2)

/-- Checks 5 to 9 on a page entry (R232). -/
def State.checkEntry (s : State) (x : Accessor) (k : AccKind) (atomic : Bool) (va e : Nat) (big : Bool) : Except Code Target :=
  let off := va % (if big then 0x200000 else 0x10000)
  let addr := bitsOf e 51 16 * 65536 + off
  let host := decide (bitsOf e 62 61 = 1)
  let permOk := match k with
    | .read => bitOf e 54
    | .write => bitOf e 53
    | .amo => bitOf e 54 && bitOf e 53
    | .fetch => bitOf e 52
  if !bitOf e (8 + x.cls.num) then .error .ghAgent
  else if !permOk then .error .ghPerm
  else if !host && !s.targetOk addr then .error .ghTarget
  else if !host && !s.allotted x.part addr then .error .ghAllot
  else if atomic && (host || (match placeOf addr with | .tile .. => true | _ => false)) then .error .ghAtomic
  else if host then .ok (.host (bitsOf e 60 59) (bitsOf e 58 55) addr (bitOf e 7) (bitOf e 6))
  else .ok (.dev addr)

/-- Whether an access belongs to a request that never walks: reproducible, or carried by a scheduled region (R238). -/
def State.noWalk (s : State) (req : Option Nat) : Bool :=
  (req.bind s.findReq).any (fun r => r.reproducible || r.srid.isSome)

/-- The Gatehouse for an access whose unit walks within its step (R232): the first failed check, or the target. A cached
entry with an uncorrectable error is discarded; an access that needed it pinned fails with MEM_UE (R502). -/
def State.gate (s : State) (x : Accessor) (k : AccKind) (atomic : Bool) (va : Nat) : Except Code Target × State :=
  if (x.cls = .core ∨ x.cls = .host) ∧ 2 ^ 57 ≤ va then (.error .ghRange, s)
  else
    let g := s.mem.nodes.get x.node
    let done (s : State) (e : Nat) (big : Bool) : Except Code Target × State := (s.checkEntry x k atomic va e big, s)
    match g.hit x.part va with
    | some (e, g') =>
      if s.noWalk x.req then
        (if (match x.req with | some r => e.pins.contains r | none => false) then
           (if e.ue then (.error .memUe, s.modGh x.node (fun _ => { g' with cache := g'.cache.dropLast }))
            else done (s.modGh x.node (fun _ => g')) e.entry e.tag.big)
         else (.error .ghNotPinned, s))
      else if e.ue then
        let s1 := s.modGh x.node (fun _ => { g' with cache := g'.cache.dropLast })
        match s1.walk (nodeDie x.node) x.part va with
        | .page en big => done (s1.modGh x.node (·.fill ⟨⟨x.part, pageBase va big, big⟩, en, [], false⟩)) en big
        | .format => (.error .ghTableFormat, s1)
        | .unmapped => (.error .ghNotMapped, s1)
        | .ue a => (.error .memUe, s1.walkUe x.part a)
      else done (s.modGh x.node (fun _ => g')) e.entry e.tag.big
    | none =>
      if s.noWalk x.req then (.error .ghNotPinned, s)
      else
        match s.walk (nodeDie x.node) x.part va with
        | .page en big => done (s.modGh x.node (·.fill ⟨⟨x.part, pageBase va big, big⟩, en, [], false⟩)) en big
        | .format => (.error .ghTableFormat, s)
        | .unmapped => (.error .ghNotMapped, s)
        | .ue a => (.error .memUe, s.walkUe x.part a)

/-- The Gatehouse logs a failed check with the DVA and the class (R233, R527); MEM_UE of a walk is logged at its line. -/
def State.gateLog (s : State) (x : Accessor) (va : Nat) (c : Code) : State :=
  if c = .memUe then s else s.log (nodeDie x.node) x.node (some x.part) c (x.logVa.getD va) x.cls.num

/-! ### Accesses of agents -/

/-- A stall is logged for a request in its span (R385): within the span only. -/
def State.addStall (s : State) (req kind cost node place : Nat) : State :=
  s.modReq req (fun r =>
    match r.launchedAt with
    | some t =>
      if r.timed && r.inSpan then { r with stalls := r.stalls ++ [⟨kind, s.since (nodeDie node) t.toNat, cost, node, place⟩] } else r
    | none => r)

/-- What an access of a reproducible request or a scheduled region leaves behind: its stack is not quiet in the tick (R215),
and an access to an eDRAM bank that is refreshing waits in its MS until the refreshes that run have ended, and logs a refresh stall (R219,
R262, R385, R392). -/
def State.noteBusy (s : State) (x : Accessor) (a : Nat) : State :=
  if s.noWalk x.req then
    match placeOf a, x.req with
    | .hbm hc _, some r =>
      s.modMem (fun m => { m with hbmBusy := m.hbmBusy.set hc (some (s.tickOf (hc / 4), r, hcNode hc)) })
    | .edram ms off, some r =>
      let b := off / 1024 % 32
      let now := 4 * s.tickOf (ms / 8)
      let fin := s.mem.edramBusy.get (32 * ms + b)
      if now < fin ∧ fin - now < 64000 then s.addStall r 1 ((fin - now + 3) / 4) (msNode ms) b else s
    | _, _ => s
  else s

/-- Whether die `a` reaches die `b` (R352). -/
def State.pathUp (s : State) (a b : Nat) : Bool := a == b || s.linkUp a b

/-- The die of a store address. -/
def addrDie (a : Nat) : Nat := ((addrUnit a).map (·.1)).getD 0

/-- A port takes a host-bound write (R460, R467): it leaves, or is dropped and counted while the host link is down. The
request that made it is remembered for its completion (R461). -/
def State.hostOut (s : State) (req : Option Nat) (p f a : Nat) (bs : List Byte) (ns ro ep : Bool) : State :=
  let s1 := match req with
    | some r => s.modReq r (fun q => { q with hostOut := if q.hostOut.contains (p, f, ro) then q.hostOut else q.hostOut ++ [(p, f, ro)] })
    | none => s
  if (s.io.hps.get p).linkUp then s1.emit (.hostWrite p f a bs ns ro ep) else s1.modHp p (fun h => { h with dropped := h.dropped + 1 })

/-- Bytes a host answers with where no command carries them: free values. -/
def State.freeBytes (s : State) (n : Nat) : List Byte × State :=
  ((List.range n).map (fun i => Config.hostByte (s.free + i)), { s with free := s.free + n })

/-- Bytes the manual leaves open: free values. -/
def State.openBytes (s : State) (n : Nat) : List Byte × State :=
  ((List.range n).map (fun i => Config.freeByte (s.free + i)), { s with free := s.free + n })

/-- The node that serves a store address (R224). -/
def homeNode (a : Nat) : Nat :=
  match placeOf a with
  | .hbm hc _ => hcNode hc
  | .edram ms _ => msNode ms
  | .cmem sc _ => scNode sc
  | .tile te _ => teNode te
  | .cst sc _ => scNode sc
  | .hole => 0

/-- Flits of `n` bytes of data (R286, R287): a line is two. -/
def dataFlits (n : Nat) : Nat := if n ≤ 32 then 1 else 2

/-- A block's access to a line at another node is a request packet there (R287, R293, R306): a read of one flit, a write of its data, on
VC1, or on VC3 where it is a bulk transfer. Its answer is due (R316). -/
def State.lineTraffic (s : State) (x : Accessor) (write : Bool) (node a n : Nat) : State :=
  if node = x.node then s
  else
    let tag := s.net.nextId
    let s1 := s.send x.node (.node node) (if write && x.bulk then 3 else 1) (if write then dataFlits n else 1) (some x.part) x.req
      (.line write a n tag)
    s1.modNet (fun k => { k with waiting := k.waiting ++ [⟨tag, .block x.node x.req, x.req, node, s.tickOf (nodeDie x.node), if write then 7 else 5, 0⟩] })

/-- Whether a row command holds the eDRAM bank of a store address (R253). -/
def State.bankHeldAt (s : State) (a : Nat) : Bool :=
  match placeOf a with
  | .edram ms off => (s.comp.rlus.get ms).running.any (fun r => r.bank == off / 1024 % 32)
  | _ => false

/-- An access has met a bank that a row command holds, and waits (R253). -/
def State.meetHold (s : State) (a : Nat) : State := if s.bankHeldAt a then s.modMem (fun m => { m with waitHeld := true }) else s

/-- Whether a class's writes come from outside the machine, so that no command repeats them. -/
def AgClass.posted (c : AgClass) : Bool := decide (c = .stream) || decide (c = .host)

/-- Whether some row command runs, and so holds its bank (R253). -/
def State.rowsRun (s : State) : Bool := (List.range 32).any (fun m => !(s.comp.rlus.get m).running.isEmpty)

/-- A command whose accesses have met a held bank waits: nothing of it has happened (R253). While no row command runs, no bank is held. -/
def heldWait (s : State) (f : State → Out) : Out :=
  if s.rowsRun then
    match f s with
    | .next t => if t.mem.waitHeld then .next s else .next t
    | o => o
  else f s

/-- A read of a run within one 64-byte line at a DVA. -/
def State.readLine (s : State) (x : Accessor) (va n : Nat) : Except Code ReadRes × State :=
  match s.gate x .read false va with
  | (.error c, s1) => (.error c, s1.gateLog x va c)
  | (.ok (.dev a), s1) =>
    if s1.pathUp (nodeDie x.node) (addrDie a) then
      let r := (((s1.meetHold a).noteBusy x a).lineTraffic x false (homeNode a) a n).readMem (some x.part) a n
      (.ok r.1, r.2)
    else (.error .linkDown, s1)
  | (.ok (.host p f a _ _), s1) =>
    if !s1.pathUp (nodeDie x.node) p then (.error .linkDown, s1)
    else if !(s1.io.hps.get p).linkUp then (.error .hpLinkDown, s1)
    else
      let r := ((s1.lineTraffic x false (hpNode p) 0 n).emit (.hostRead p f a n 0)).freeBytes n
      (.ok ⟨r.1, false⟩, r.2)

/-- A write of a run within one 64-byte line at a DVA: whether it met poison. -/
def State.writeLine (s : State) (x : Accessor) (va : Nat) (bs : List Byte) : Except Code Bool × State :=
  match s.gate x .write false va with
  | (.error c, s1) => (.error c, s1.gateLog x va c)
  | (.ok (.dev a), s1) =>
    if s1.pathUp (nodeDie x.node) (addrDie a) then
      if x.cls.posted && s1.bankHeldAt a then
        (.ok false, (s1.lineTraffic x true (homeNode a) a bs.length).modMem (fun m => { m with parked := m.parked ++ [.write x.part va a bs] }))
      else
        let r := (((s1.meetHold a).noteBusy x a).lineTraffic x true (homeNode a) a bs.length).writeMem (some x.part) a bs
        (.ok r.1, r.2)
    else (.error .linkDown, s1)
  | (.ok (.host p f a ns ro), s1) =>
    if s1.pathUp (nodeDie x.node) p then (.ok false, (s1.lineTraffic x true (hpNode p) 0 bs.length).hostOut x.req p f a bs ns ro false)
    else (.error .linkDown, s1)

/-- A command whose record is read and checked before it acts: as `heldWait`. -/
def State.orWait (s t : State) : State := if t.mem.waitHeld then s else t

/-- The pieces of a run by 64-byte line: address and length. -/
def linePieces : Nat → Nat → Nat → List (Nat × Nat)
  | 0, _, _ => []
  | fuel + 1, va, n =>
    if n = 0 then []
    else
      let k := min n (64 - va % 64)
      (va, k) :: linePieces fuel (va + k) (n - k)

/-- A read of pieces, in order; the first failed check stops it. -/
def State.readPieces (s : State) (x : Accessor) : List (Nat × Nat) → Except Code ReadRes × State
  | [] => (.ok ⟨[], false⟩, s)
  | (va, n) :: ps =>
    match s.readLine x va n with
    | (.error c, s1) => (.error c, s1)
    | (.ok r, s1) =>
      match s1.readPieces x ps with
      | (.error c, s2) => (.error c, s2)
      | (.ok q, s2) => (.ok ⟨r.bytes ++ q.bytes, r.poison || q.poison⟩, s2)

/-- A read of `n` bytes at a DVA, line by line (R232). -/
def State.agRead (s : State) (x : Accessor) (va n : Nat) : Except Code ReadRes × State := s.readPieces x (linePieces (n / 64 + 2) va n)

/-- MEM_POISON is logged once per request, with the DVA of the first poisoned read (R514). -/
def State.logPoison (s : State) (d node : Nat) (req : Option Nat) (va : Nat) : State :=
  match req.bind s.findReq with
  | some r =>
    if r.poisonLogged then s
    else (s.modReq r.id (fun q => { q with poisonLogged := true })).log d node (some r.part) .memPoison va 0
  | none => s

/-- A read whose poisoned bytes count as MEM_POISON, which a request's first such read logs (R514). -/
def State.agReadClean (s : State) (x : Accessor) (va n : Nat) : Except Code (List Byte) × State :=
  match s.agRead x va n with
  | (.error c, s1) => (.error c, s1)
  | (.ok r, s1) => if r.poison then (.error .memPoison, s1.logPoison (nodeDie x.node) x.node x.req va) else (.ok r.bytes, s1)

/-- Writes of pieces, in order; the first failed check stops it, and lines already written stay written (R233). -/
def State.writePieces (s : State) (x : Accessor) : List (Nat × Nat) → List Byte → Except Code Bool × State
  | [], _ => (.ok false, s)
  | (va, n) :: ps, bs =>
    match s.writeLine x va (bs.take n) with
    | (.error c, s1) => (.error c, s1)
    | (.ok p, s1) =>
      match s1.writePieces x ps (bs.drop n) with
      | (.error c, s2) => (.error c, s2)
      | (.ok q, s2) => (.ok (p || q), s2)

/-- A write of bytes at a DVA, line by line. -/
def State.agWrite (s : State) (x : Accessor) (va : Nat) (bs : List Byte) : Except Code Bool × State :=
  s.writePieces x (linePieces (bs.length / 64 + 2) va bs.length) bs

/-- A write whose failure or poison is a code (R233, R514). -/
def State.agWriteCode (s : State) (x : Accessor) (va : Nat) (bs : List Byte) : Option Code × State :=
  match s.agWrite x va bs with
  | (.error c, s1) => (some c, s1)
  | (.ok true, s1) => (some .memPoison, s1)
  | (.ok false, s1) => (none, s1)

/-- Lines of a host read, each with its poison; none where a check fails (R233, R445, R514). -/
def State.hostLines (s : State) (x : Accessor) : List (Nat × Nat) → Option (List (List Byte × Bool)) × State
  | [] => (some [], s)
  | (va, n) :: ps =>
    match s.readLine x va n with
    | (.error _, s1) => (none, s1)
    | (.ok r, s1) =>
      let t := s1.hostLines x ps
      (t.1.map (fun l => (r.bytes, r.poison) :: l), t.2)

/-- A host's read is answered line by line, or with a Completer Abort (R233, R445); where it meets a bank that a row command holds, it
waits (R253). -/
def State.hostReads (s : State) (part node port func va len : Nat) : State :=
  let r := s.hostLines (accessor part node .host none) (linePieces (len / 64 + 2) va len)
  if r.2.mem.waitHeld then s.modMem (fun m => { m with parked := m.parked ++ [.read part node port func va len] })
  else match r.1 with
    | some ls => eachOf ls (fun l s => s.emit (.hostData port func l.1 l.2)) r.2
    | none => r.2.emit (.hostCa port func)

/-- A notice goes to the CTL-N of the admitting die, free-running on VC0 (R453); one that would cross a link that is down is
dropped and counted (R448). -/
def State.noticeOut (s : State) (part port func ring : Nat) (cq : Bool) (value tick : Word) : State :=
  match s.admitDie part with
  | none => s
  | some d =>
    if s.pathUp port d then s.send (hpNode port) (.node (ctlNode d)) 0 1 (some part) none (.doorbell ⟨part, port, func, ring, cq, value, tick⟩)
    else s.modHp port (fun h => { h with nDrop := h.nDrop + 1 })

/-- Whether a posted write of a partition, or a notice of it, waits. -/
def State.writesWait (s : State) (part : Nat) : Bool :=
  s.mem.parked.any (fun q => match q with
    | .write p _ _ _ => p == part
    | .notice p .. => p == part
    | .read .. => false)

/-- A waiting access is performed, or waits on (R253). -/
def State.unparkOne (s : State) (q : Parked) : State :=
  match q with
  | .write part _ a bs =>
    if s.bankHeldAt a then s.modMem (fun m => { m with parked := m.parked ++ [q] }) else (s.writeMem (some part) a bs).2
  | .read part node port func va len => s.hostReads part node port func va len
  | .notice part port func ring cq value tick =>
    if s.writesWait part then s.modMem (fun m => { m with parked := m.parked ++ [q] }) else s.noticeOut part port func ring cq value tick

/-- A bank is free again: accesses that waited for it are performed, in the order in which they came (R253). -/
def State.unpark (s : State) : State :=
  if s.mem.parked.isEmpty then s
  else eachOf s.mem.parked (fun q s => s.unparkOne q) (s.modMem (fun m => { m with parked := [] }))

/-- A request meets poison at a DVA: logged once, and it ends with MEM_POISON (R514). -/
def State.poisonReq (s : State) (node : Nat) (req : Nat) (va : Nat) : State :=
  (s.logPoison (nodeDie node) node (some req) va).endReq req .memPoison 0 0

/-! ### Walks under way (R235) -/

/-- The table entries that a walk reads, by store address, from a table and the indices left. -/
def State.walkFrom (s : State) (d : Nat) : Nat → List Nat → List Nat
  | _, [] => []
  | t, i :: is =>
    let a := sysBase d + t + 8 * i
    let e := s.tableEntry d (t + 8 * i)
    a :: (if !s.mem.mem.bad a && bitOf e 63 && isPointer e && !badPointer e then s.walkFrom d (pointerOff e) is else [])

/-- The entries that a walk of an address reads, one a level (R226, R235). -/
def State.walkPath (s : State) (d p va : Nat) : List Nat :=
  let base := s.appWord ⟨.memPtbase, d, p, 0⟩
  if bitOf base 63 then s.walkFrom d (bitsOf base 28 12 * 4096) [bitsOf va 56 48, bitsOf va 47 39, bitsOf va 38 30, bitsOf va 29 21, bitsOf va 20 16]
  else []

/-- Whether a walk translates the page of an address: the same 64 KiB, or the same 2 MiB page. -/
def State.walkCovers (s : State) (d : Nat) (w : WalkReq) (p va : Nat) : Bool :=
  w.part == p && (pageBase w.va false == pageBase va false
    || (pageBase w.va true == pageBase va true && (match s.walk d p va with | .page _ big => big | _ => false)))

/-- Whether a miss may begin its walk at a node: fewer than 4 run, none of them of its page (R235). -/
def State.mayWalk (s : State) (n p va : Nat) : Bool :=
  let g := s.mem.nodes.get n
  decide (g.walks.length < 4) && !g.walks.any (fun w => s.walkCovers (nodeDie n) w p va)

/-- A walk's next read leaves for stack 0 of its die, on VC1, for its partition (R235). -/
def State.walkRead (s : State) (n : Nat) (w : WalkReq) : State :=
  match w.path with
  | [] => s
  | a :: _ => s.lineTraffic (accessor w.part n .core (s.comp.cores.get w.core).req) false (homeNode a) a 8

/-- A walk begins. -/
def State.beginWalk (s : State) (n : Nat) (w : WalkReq) : State :=
  let w1 : WalkReq := { w with path := s.walkPath (nodeDie n) w.part w.va, tag := s.net.nextId }
  (s.walkRead n w1).modGh n (fun g => { g with walks := g.walks ++ [w1] })

/-- A walk's read has been answered: the next follows. -/
def State.walkAnswer (s : State) (n tag : Nat) : State :=
  match (s.mem.nodes.get n).walks.find? (fun w => w.tag == tag && !w.path.isEmpty) with
  | none => s
  | some w =>
    let w1 : WalkReq := { w with path := w.path.drop 1, tag := s.net.nextId }
    (s.walkRead n w1).modGh n (fun g => { g with walks := g.walks.map (fun y => if y = w then w1 else y) })

/-- Whether a walk has read what it reads; one whose read has failed reads no more. -/
def State.walkDone (s : State) (w : WalkReq) : Bool := w.path.isEmpty || !s.net.waiting.any (fun x => x.tag == w.tag)

/-- Waiting misses begin their walks, in the order they arose, while they may (R235). -/
def State.startWalks (s : State) (n : Nat) : State :=
  eachOf (s.mem.nodes.get n).waiting (fun w s =>
    whenB (s.mayWalk n w.part w.va) s (fun s =>
      (s.modGh n (fun g => { g with waiting := g.waiting.erase w })).beginWalk n w)) s

end Sys2Proof.Machine
end

