-- ==== Sys2Proof/Machine/Shares.lean ====
section
/-! DEFINITION. Routes (R292), metered resources and credits (R323 to R328), and the committed load of R330. -/

namespace Sys2Proof.Machine

/-- The output port toward a node of the same die: XY, or YX for VC2 (R292); L at the node itself. -/
def portToward (yx : Bool) (cur dst : Nat) : Port :=
  let px : Port := if nodeX cur < nodeX dst then .e else .w
  let py : Port := if nodeY cur < nodeY dst then .s else .n
  if cur = dst then .l
  else if yx then (if nodeY cur ≠ nodeY dst then py else px)
  else if nodeX cur ≠ nodeX dst then px else py

/-- The SL node of die `d` toward die `e` (R23, R292). -/
def slToward (d e : Nat) : Nat := nodeOf .sl d (linkIndex d e - 1)

/-- The output port of a unicast packet at a router (R292): toward its node, or toward the SL node of its own die, and there
SX. -/
def routePort (vc cur dst : Nat) : Port :=
  if nodeDie cur = nodeDie dst then portToward (vc == 2) cur dst
  else
    let sl := slToward (nodeDie cur) (nodeDie dst)
    if cur = sl then .sx else portToward (vc == 2) cur sl

/-- The link directions a route within a die crosses, as (node, output port). -/
def routeHops (yx : Bool) : Nat → Nat → Nat → List (Nat × Port)
  | 0, _, _ => []
  | fuel + 1, a, b =>
    match portToward yx a b with
    | .l => []
    | p =>
      match neighbour a p with
      | some n => (a, p) :: routeHops yx fuel n b
      | none => []

/-- The nodes of metered resource `r` of a die (R323). -/
def resourceNode (d r : Nat) : Nat :=
  if r < 4 then nodeOf .hc d r
  else if r = 4 then nodeOf .hp d 0
  else if r < 7 then nodeOf .sp d (r - 5)
  else nodeOf .sl d (r - 7)

/-- The metered resource at a node (R323). -/
def resourceAt (n : Nat) : Option Nat :=
  match blockAt n with
  | (.hc, i) => some i
  | (.hp, _) => some 4
  | (.sp, i) => some (5 + i)
  | (.sl, k) => some (6 + k)
  | _ => none

/-- Capacity C of a resource in flits per window per direction (R323); an SL whose link is in UP16 has 128 (R361). -/
def State.capacity (s : State) (d r : Nat) : Nat :=
  if r = 4 then 128
  else if r < 7 then 64
  else if decide ((s.link.links.get (linkKey d (d ^^^ (r - 6)))).st = .up16) then 128 else 192

/-- A share word's field for partition `p` in a group of four (chapter Partitions). -/
def shareField (w p : Nat) (toDir : Bool) : Nat :=
  let q := p % 4
  if toDir then bitsOf w (16 * q + 6) (16 * q) else bitsOf w (16 * q + 14) (16 * q + 8)

/-- The applied allowance of (p, r) in one direction, in flits per window (R324). -/
def State.allowance (s : State) (d r p : Nat) (toDir : Bool) : Nat :=
  shareField (s.appWord ⟨.netShare, d, r, p / 4⟩) p toDir * s.capacity d r / 64

/-- The share R330 judges: the larger of the applied value and the shadow, in a register file where the share register `k`
shows `w`. -/
def State.judgedShare (s : State) (k : RegKey) (w : Nat) (key : RegKey) (p : Nat) (toDir : Bool) : Nat :=
  max (shareField (s.appWord key) p toDir) (shareField (if key = k then w else s.visWord key) p toDir)

/-- Whether a link direction is interior to a partition: both ends owned (R320). -/
def State.interior (s : State) (p n : Nat) (o : Port) : Bool :=
  match neighbour n o with
  | some m => s.owns p n && s.owns p m
  | none => false

/-- The ends of a partition's traffic with a resource on a die: the nodes of its rectangle and the shared nodes that inject
its packets, which are those where it holds a FROM share (assumption log 6), applied or in a shadow as R330 judges it. -/
def State.trafficEnds (s : State) (k : RegKey) (w d p : Nat) : List Nat :=
  (dieNodes d).filter (fun n => s.inRegion p n
    || (match resourceAt n with
        | some r => decide (s.judgedShare k w ⟨.netShare, d, r, p / 4⟩ p false ≠ 0)
        | none => false))

/-- The link directions on the routes of R292 between a partition's ends and a resource, in one direction. -/
def State.meterRoutes (s : State) (k : RegKey) (w d p r : Nat) (toDir : Bool) : List (Nat × Port) :=
  let rn := resourceNode d r
  ((s.trafficEnds k w d p).flatMap (fun e =>
    let (a, b) := if toDir then (e, rn) else (rn, e)
    routeHops false 16 a b ++ routeHops true 16 a b)).eraseDups

/-- Mask bits that installed scheduled regions, not BROKEN, hold at an output port (R333, R342). -/
def State.maskAt (s : State) (n : Nat) (o : Port) : Nat :=
  (s.net.scheds.filter (fun c => c.active && !c.broken)).foldl (fun m c =>
    m ||| ((c.ports.find? (fun q => q.node == n && q.port == portNo o)).map (·.mask)).getD 0) 0

/-- The number of set bits of a mask. -/
def popcount8 (m : Nat) : Nat := (List.range 8).foldl (fun k i => k + b2n (bitOf m i)) 0

/-- A meter of R330: its partition, its allowance per window up to 64, and the link directions on its routes. -/
structure Meter where
  part : Nat
  load : Nat
  hops : List (Nat × Port)
deriving DecidableEq, Repr

/-- The meters of a die whose judged allowance is not 0 (R330). -/
def State.meters (s : State) (k : RegKey) (w d : Nat) : List Meter :=
  (List.range 16).flatMap (fun p => (List.range 10).flatMap (fun r => [true, false].filterMap (fun toDir =>
    let a := s.judgedShare k w ⟨.netShare, d, r, p / 4⟩ p toDir * s.capacity d r / 64
    if a = 0 then none else some ⟨p, min 64 a, s.meterRoutes k w d p r toDir⟩)))

/-- The committed load of a mesh link direction, and whether a partition's load passes its seam share there (R329, R330). -/
def State.linkLoad (s : State) (k : RegKey) (w n : Nat) (o : Port) (ms : List Meter) : Nat × Bool :=
  let here := ms.filter (fun m => m.hops.contains (n, o))
  ((here.map (·.part)).eraseDups).foldl (fun (acc : Nat × Bool) p =>
    if s.interior p n o then acc
    else
      let t := (here.filter (fun m => m.part == p)).foldl (fun t m => t + m.load) 0
      if isSeam n o then
        let sh := s.judgedShare k w ⟨.netSeamshare, nodeDie n, nodeX n, p / 4⟩ p (o == .s)
        (acc.1 + min t sh, acc.2 || decide (sh < t))
      else (acc.1 + t, acc.2)) (8 * popcount8 (s.maskAt n o), false)

/-- The committed load of the Sundya link direction out of SLk of die `d` (R330, R361). -/
def State.sundyaLoad (s : State) (k : RegKey) (w d j : Nat) : Nat :=
  let n := nodeOf .sl d (j - 1)
  let up16 := decide ((s.link.links.get (linkKey d (d ^^^ j))).st = .up16)
  (List.range 16).foldl (fun t p =>
    t + min 64 (s.judgedShare k w ⟨.netShare, d, 6 + j, p / 4⟩ p true * s.capacity d (6 + j) / 64))
    ((if up16 then 16 else 32) * popcount8 (s.maskAt n .sx))

/-- The check of R330 with share register `k` showing `w`: true where some link exceeds its limit or some seam share is
exceeded. -/
def State.sharesOver (s : State) (k : RegKey) (w : Nat) : Bool :=
  (List.range 4).any (fun d =>
    let ms := s.meters k w d
    (dieNodes d).any (fun n => [Port.n, .e, .s, .w].any (fun o =>
      (neighbour n o).isSome && (let l := s.linkLoad k w n o ms; decide (64 < l.1) || l.2)))
    || [1, 2, 3].any (fun j =>
      decide ((if decide ((s.link.links.get (linkKey d (d ^^^ j))).st = .up16) then 128 else 256) < s.sundyaLoad k w d j)))

/-- Credits of point `i` of `n` in window `w` (R327). -/
def credits (t n w i : Nat) : Nat :=
  if n = 0 then 0 else t / n + (if (i + n - w % n) % n < t % n then 1 else 0)

/-- The tie rule (R386, R387): the contender position at or after the start, counting upward and wrapping, among positions
0 to `n` - 1. -/
def tieWinner (tick n : Nat) (cands : List Nat) : Option Nat :=
  let start := tick % 120 % n
  ((upFrom 0 n).map (fun i => (start + i) % n)).find? (fun p => cands.contains p)

end Sys2Proof.Machine
end

