-- ==== Sys2Proof/Machine/RegOps.lean ====
section
/-! DEFINITION. Reads and writes of the set-up registers: what a read returns with the fields the hardware keeps, which unit
runs (LOCKED fields, R498), reserved encodings (R20), and the classes (R497). -/

namespace Sys2Proof.Machine

/-! ### What a read returns -/

/-- An island is held (R573): an admitted reproducible request names its node, or an installed scheduled region that is not
BROKEN uses it. -/
def State.heldIsland (s : State) (n : Nat) : Bool :=
  s.req.requests.any (fun r => r.reproducible && decide (r.step ≠ .done) && r.nodes.contains n
      && !(s.sys.power.get (nodeDie n)).released.contains r.id)
    || s.net.scheds.any (fun c => !c.broken && c.ports.any (fun q => q.node == n))

/-- Whether the islands that a request is to hold are all at T0 (R573): its admission ends only then. -/
def State.islandsReady (s : State) (r : Request) : Bool :=
  !r.reproducible || r.nodes.all (fun n => decide ((s.sys.power.get (nodeDie n)).islands.get n = 0))

/-- State code of RAS_UNITSTAT. -/
def UnitState.code : UnitState → Nat
  | .inService => 0
  | .fenced => 1
  | .offline => 2
  | .fused => 3

/-- Life-cycle code (R550). -/
def lcCode : LcState → Nat
  | .raw => 0
  | .provisioned => 1
  | .deployed => 2
  | .diagnostic => 3
  | .returned => 4
  | .retired => 5

/-- Spindle state code of SEC_SPINDLESTAT. -/
def SpState.code : SpState → Nat
  | .off => 0
  | .startup => 1
  | .run => 2
  | .retired => 3

/-- Fields set one after another: high bit, low bit, value. -/
def setFields (w : Nat) (fs : List (Nat × Nat × Nat)) : Nat := fs.foldl (fun w f => putBits w f.1 f.2.1 f.2.2) w

/-- RAS_UNITSTAT of a unit. -/
def State.unitstat (s : State) (d u : Nat) : Nat :=
  let r := s.unitRec d u
  setFields 0 [(63, 48, r.gen.toNat), (47, 32, r.cause.toNat), (31, 24, satTo 255 r.ue), (23, 4, satTo (2 ^ 20 - 1) r.ce),
    (1, 0, r.st.code)]

/-- GLB_READY of a die (R605). -/
def State.readyWord (s : State) (d : Nat) : Nat :=
  let c := s.sys.clk.get d
  setFields 0 [(63, 63, b2n (c.ready && !s.dieFencedB d)), (62, 62, b2n c.aligned), (61, 61, b2n (s.dieFencedB d)),
    (47, 40, c.resets), (15, 8, ((List.range 35).filter (fun u => decide ((s.unitRec d u).st = .fenced))).length),
    (3, 0, c.step)]

/-- Registers whose fields follow the state of a block. -/
def State.readDerived (s : State) (port : Nat) (k : RegKey) : Nat :=
  let v := s.visWord k
  let d := k.a
  match k.name with
  | .glbTick => s.tickOf d
  | .glbSelf =>
    let w := s.appWord ⟨.hpFuncctl, k.a, k.b, 0⟩
    setFields 0 [(63, 63, bitsOf w 63 63), (19, 16, bitsOf w 3 0), (11, 8, k.b),
      (2, 2, b2n (k.b == 0 && bitOf (s.visWord ⟨.glbAdmin, 0, 0, 0⟩) port)), (1, 0, k.a)]
  | .glbReady => s.readyWord d
  | .glbIdent =>
    if (s.sys.clk.get d).step = 0 then 0
    else setFields 0 [(63, 32, s.sys.fuses.serials.get d), (23, 16, 0xB0), (15, 8, 0x04), (4, 4, b2n s.sys.fuses.grade56),
      (1, 0, d)]
  | .glbClusterfuse =>
    if (s.sys.clk.get d).step = 0 then 0
    else setFields 0 [(36, 32, if s.sys.fuses.grade56 then 14 else 16), (15, 0, s.sys.fuses.fusedScs.get d)]
  | .rasUnitstat => s.unitstat d k.b
  | .mgtPowerlimit => putBits v 41 32 (s.sys.warden.capW.get d)
  | .mgtThrottlestat =>
    let p := s.sys.power.get d
    setFields 0 [(63, 48, satTo 65535 (p.p1ms / 1000)), (47, 40, satTo 255 (p.readTj / 10)),
      (39, 32, ((dieNodes d).filter (fun n => s.heldIsland n)).length), (31, 16, satTo 65535 p.steps),
      (15, 8, satTo 255 p.hard), (1, 0, p.level)]
  | .secLcstate =>
    let c := s.sys.sec.get d
    setFields 0 [(55, 48, c.slotsUsed), (47, 40, c.torn), (35, 32, lcCode (c.lc.getD .returned)), (7, 6, c.debug)]
  | .secImagestat =>
    let c := s.sys.sec.get d
    let f (g : RunImage → Nat) (o : Option RunImage) : Nat := (o.map g).getD 0
    setFields 0 [(63, 56, s.sys.fuses.svn.get d), (55, 48, f (·.svn) c.steward), (47, 40, f (·.svn) c.runtime),
      (39, 36, s.sys.fuses.revoked.get d), (35, 34, f (·.key) c.steward), (33, 32, f (·.key) c.runtime),
      (1, 1, f (·.copy) c.runtime), (0, 0, f (·.copy) c.steward)]
  | .secClearstat =>
    let c := s.sys.sec.get d
    setFields 0 [(63, 48, satTo 65535 c.dirtyFrames.length),
      (31, 0, (c.dirtyUnits.filter (fun u => decide (u < 32))).foldl (fun m u => m ||| 2 ^ u) 0)]
  | .secSpindlestat =>
    let p := s.comp.spindles.get (2 * d + k.b)
    setFields 0 [(63, 32, satTo (2 ^ 32 - 1) p.fails), (21, 12, p.pool.length), (11, 8, p.failStream), (7, 6, p.failTest),
      (1, 0, p.st.code)]
  | .teModectl =>
    let t := s.comp.tes.get (4 * d + k.b)
    setFields v [(47, 32, satTo 65535 t.satCmds), (20, 16, t.queue.length)]
  | .rluSlicestat =>
    let r := s.comp.rlus.get (8 * d + k.b)
    setFields 0 [(63, 48, satTo 65535 r.inserted), (47, 32, satTo 65535 r.poisoned), (4, 0, r.queue.length)]
  | .netLinkstat =>
    let l := s.link.links.get (linkKey d (d ^^^ k.b))
    setFields 0 [(63, 32, satTo (2 ^ 32 - 1) (if d < d ^^^ k.b then l.replays else l.replaysHi)),
      (31, 24, satTo 255 (if d < d ^^^ k.b then l.degrades else l.degradesHi)), (4, 4, b2n l.half), (2, 0, l.st.code)]
  | .netShare | .netSeamshare =>
    let a := s.appWord k
    (List.range 4).foldl (fun w q =>
      putBits w (16 * q + 15) (16 * q + 15) (b2n (bitsOf v (16 * q + 14) (16 * q) != bitsOf a (16 * q + 14) (16 * q)))) v
  | .netSchedstat =>
    match s.findSched k.b with
    | none => 0
    | some c => setFields 0 [(63, 32, satTo (2 ^ 32 - 1) c.late), (19, 16, c.part), (7, 4, c.phase),
        (1, 0, if c.broken then 3 else if c.running.isSome then 2 else 1)]
  | .hpLanternstat =>
    let h := s.io.hps.get d
    setFields 0 [(63, 48, satTo 65535 h.dbDrop), (47, 32, satTo 65535 h.nDrop), (25, 16, h.lantern.length), (6, 0, h.lines.length)]
  | .ringSqctl | .ringCqctl =>
    let cq := decide (k.name = .ringCqctl)
    let r := s.req.rings.get (ringKey k.a cq k.b)
    setFields v [(62, 62, b2n (bitsOf v 63 63 != bitsOf (s.appWord k) 63 63)), (51, 50, r.port), (49, 46, r.func),
      (45, 44, r.st), (31, 16, r.code.toNat)]
  | .ringSqidx =>
    let r := s.req.rings.get (ringKey k.a false k.b)
    r.head.toNat * 2 ^ 32 + r.tail.toNat
  | .ringCqidx =>
    let r := s.req.rings.get (ringKey k.a true k.b)
    r.write.toNat * 2 ^ 32 + r.head.toNat
  | .strPtpstat =>
    let p := s.io.ptp.get d
    setFields 0 [(63, 32, p.offset.toNat), (31, 16, p.gen),
      (1, 0, if bitOf (s.appWord ⟨.strPtpctl, d, 0, 0⟩) 63 then max 1 p.state else 0)]
  | .strPtpmapTick => (s.io.ptp.get d).mapTick.toNat
  | .strPtpmapNs => (s.io.ptp.get d).mapNs.toNat
  | .strPtpmapStep => (s.io.ptp.get d).mapStep.toNat
  | _ => v

/-- What a read of a register returns (R15, R497). -/
def State.readReg (s : State) (port : Nat) (k : RegKey) : Nat := s.readDerived port k

/-- The ordered pairs of different dies. -/
def diePairs : List (Nat × Nat) :=
  [(0, 1), (0, 2), (0, 3), (1, 0), (1, 2), (1, 3), (2, 0), (2, 1), (2, 3), (3, 0), (3, 1), (3, 2)]

/-! ### Units that run (R498) -/

/-- Whether a link runs (chapter Sundya Links). -/
def State.linkRuns (s : State) (a b : Nat) : Bool :=
  s.req.requests.any (fun r => r.running && s.spans r.part a b) || s.net.scheds.any (fun c => !c.broken && c.usesLink a b)

/-- Whether a function runs: a ring bound to it exists, or a request submitted through it runs (chapter Host Ports). -/
def State.funcRuns (s : State) (port func : Nat) : Bool :=
  s.req.rings.entries.any (fun e => decide (e.2.st ≠ 0) && e.2.port == port && e.2.func == func)
    || s.req.requests.any (fun r => r.running && r.port == port && r.func == func)

/-- Whether a port holds a binding. -/
def State.portRuns (s : State) (sp : Nat) : Bool := s.io.bindings.any (fun b => b.sp == sp)

/-- The units that run at this moment (R498). -/
def State.unitsRunning (s : State) : RunSnap :=
  { tes := (s.comp.tes.entries.filter (fun e => !e.2.queue.isEmpty || e.2.cur.isSome)).map (·.1)
    locks := (s.comp.locks.entries.filter (fun e => decide (e.2.st = 1))).map (·.1)
    parts := (List.range 16).filter s.partRuns
    regions := s.net.scheds.map (·.part)
    links := diePairs.filter (fun x => s.linkRuns x.1 x.2)
    ports := s.io.bindings.map (·.sp)
    funcs := ((s.req.rings.entries.filter (fun e => decide (e.2.st ≠ 0))).map (fun e => (e.2.port, e.2.func)))
      ++ ((s.req.requests.filter (·.running)).map (fun r => (r.port, r.func)))
    windows := [0, 1, 2, 3].filter (fun d => (s.io.hps.get d).decoder.isSome)
    captures := (List.range 8).filter (fun i => bitOf (s.visWord ⟨.secCapctl, i / 2, i % 2, 0⟩) 63) }

/-- A tick begins: the units that run in its first cycle are noted (R498). -/
def State.noteRunning (s : State) : State := s.modRegs (fun r => { r with ran := s.unitsRunning })

/-- Whether the unit of a LOCKED field runs (R498): it ran in the first cycle of the tick, or a descriptor's admission in this tick has made
it run. -/
def State.fieldRuns (s : State) (k : RegKey) (f : Field) : Bool :=
  let ran := s.sys.regs.ran
  let part (p : Nat) : Bool := ran.parts.contains p || s.partRuns p
  let port (p : Nat) : Bool := ran.ports.contains p || s.portRuns p
  match k.name with
  | .secSpindlectl => bitOf (s.appWord k) 0
  | .secCapctl => ran.captures.contains (2 * k.a + k.b)
  | .teModectl => ran.tes.contains (4 * k.a + k.b)
  | .glbLockmap => ran.locks.contains (256 * k.a + 8 * k.b + f.lo / 8)
  | .memAllot | .detTrailbase | .detTrailctl | .rasEvtbase | .rasEvtctl => part k.b
  | .netRegion => part k.b || ran.regions.contains k.b || s.net.scheds.any (fun c => c.part == k.b)
  | .netLinkctl => ran.links.contains (k.a, k.a ^^^ k.b) || s.linkRuns k.a (k.a ^^^ k.b)
  | .strPortctl | .strMac => port (2 * k.a + k.b)
  | .strPtpctl => port (2 * k.a + bitsOf (s.appWord k) 8 8)
  | .hpFuncctl => ran.funcs.contains (k.a, k.b) || s.funcRuns k.a k.b
  | .hpMemwin => ran.windows.contains k.a
  | .ringSqctl | .ringSqbase | .ringSqdb => bitOf (s.appWord ⟨.ringSqctl, k.a, k.b, 0⟩) 63
  | .ringCqctl | .ringCqbase | .ringCqdb => bitOf (s.appWord ⟨.ringCqctl, k.a, k.b, 0⟩) 63
  | .glbBootmap => (List.range 64).any (fun q =>
      bitOf (s.appWord ⟨.ringSqctl, k.a, q, 0⟩) 63 || bitOf (s.appWord ⟨.ringCqctl, k.a, q, 0⟩) 63)
  | _ => false

/-! ### Reserved encodings (R20) -/

/-- Whether the value `x` written to a field is a reserved encoding. -/
def State.reservedField (s : State) (port : Nat) (k : RegKey) (f : Field) (x : Nat) : Bool :=
  match k.name, f.lo with
  | .glbAdmin, _ => decide (x = 0)
  | .glbUnitreset, 0 => decide (34 < x)
  | .mgtUnitreq, 0 => decide (34 < x)
  | .mgtUnitreq, 56 => decide (x = 0) || decide (x = 3)
  | .mgtPowerlimit, 0 => decide (x < 200) || decide (600 < x)
  | .mgtPowerlimit, 24 => decide (x < 80) || decide (100 < x)
  | .mgtPowerlimit, 48 => decide (60 < x)
  | .rasScrubctl, 48 => decide (x = 0)
  | .rasScrubctl, 32 => decide (x < 100)
  | .rasScrubctl, 0 => decide (x = 0)
  | .rasEvtctl, 0 => decide (x < 4) || decide (16 < x)
  | .detTrailctl, 0 => decide (x < 4) || decide (16 < x)
  | .rasEvtidx, 0 =>
    decide (2 ^ bitsOf (s.visWord { k with name := .rasEvtctl }) 4 0 < (bitsOf (s.visWord k) 63 32 + 2 ^ 32 - x) % 2 ^ 32)
  | .detTrailidx, 0 =>
    decide (2 ^ bitsOf (s.visWord { k with name := .detTrailctl }) 4 0 < (bitsOf (s.visWord k) 63 32 + 2 ^ 32 - x) % 2 ^ 32)
  | .secSpindlectl, 8 => decide (x < 2)
  | .secSpindlectl, 16 => decide (x < 513) || decide (1024 < x)
  | .secSpindlectl, 1 => decide (2 ≤ x)
  | .strPortctl, 16 => [0x0800, 0x86DD, 0x8100, 0x8808, 0x88F7].contains x
  | .strRxquota, _ => decide (64 < x)
  | .netShare, _ => decide (64 < x)
  | .netSeamshare, _ => decide (64 < x)
  | .hpLanternctl, 16 => decide (x < 16)
  | .ringSqctl, 0 => decide (x < 4) || decide (16 < x)
  | .ringCqctl, 0 => decide (x < 4) || decide (16 < x)
  | .ringCqctl, 8 => decide (64 < x)
  | .ringCqctl, 6 => decide (x = 1) && !(s.io.hps.get port).cxl
  | .ringCqcoal, 0 => decide (x = 0) || decide (256 < x)
  | .suaReplicacap, 0 => decide (x = 0) || decide (64 < x)
  | _, _ => false

/-- The DPA range of an enabled MEM_ALLOT word, as first and last frame. -/
def allotRange (w : Nat) : Option (Nat × Nat) := if bitOf w 63 then some (bitsOf w 18 0, bitsOf w 50 32) else none

/-- Two ranges overlap. -/
def rangesMeet (a b : Nat × Nat) : Bool := decide (a.1 ≤ b.2) && decide (b.1 ≤ a.2)

/-- The frames of an enabled HP_MEMWIN word of port `d` (R463): 256 MiB units of 128 frames. -/
def memwinRange (d w : Nat) : Option (Nat × Nat) :=
  if bitOf w 63 then
    let base := (d * 0x2000000000 + bitsOf w 17 16 * 0x800000000 + bitsOf w 7 0 * 0x10000000) / 0x200000
    some (base, base + bitsOf w 15 8 * 128 - 1)
  else none

/-- Ranges of MEM_ALLOT on a die: partition, index and range. -/
def State.allotments (s : State) (d : Nat) : List (Nat × Nat × Nat × Nat) :=
  (List.range 16).flatMap (fun p => (List.range 8).filterMap (fun i =>
    (allotRange (s.visWord ⟨.memAllot, d, p, i⟩)).map (fun r => (p, i, r.1, r.2))))

/-- The owned nodes of a region word on a die. -/
def regionNodes (d w : Nat) : List Nat :=
  if bitOf w 63 then
    (dieNodes d).filter (fun n => !sharedNode n && inRect n (bitsOf w 2 0, bitsOf w 8 6, bitsOf w 5 3, bitsOf w 11 9))
  else []

/-- A whole register value that is handled as a reserved encoding (R20), with the code that is logged, if any: R242, R319,
R330, R348, R438, R464, R469, R548, R562, R613. -/
def State.reservedWord (s : State) (k : RegKey) (w : Nat) : Option (Option Code) :=
  let sec := s.sys.sec.get k.a
  match k.name with
  | .glbBootmap => if bitOf w 63 && (decide (bitsOf w 55 52 = 0) || decide (8 < bitsOf w 55 52)) then some none else none
  | .secCapctl => if bitOf w 63 && (decide (bitsOf w 20 0 = 0) || decide (2 ^ 20 < bitsOf w 20 0)) then some none else none
  | .strRxquota =>
    let sum (w : Nat) : Nat := (List.range 8).foldl (fun t q => t + bitsOf w (8 * q + 7) (8 * q)) 0
    if 64 < sum w + sum (s.visWord { k with c := 1 - k.c }) then some none else none
  | .netRegion =>
    if decide (bitsOf w 8 6 < bitsOf w 2 0) || decide (bitsOf w 11 9 < bitsOf w 5 3) || decide (5 < bitsOf w 5 3)
        || decide (5 < bitsOf w 11 9) then some none
    else
      let mine := regionNodes k.a w
      if (List.range 16).any (fun p => decide (p ≠ k.b)
          && (regionNodes k.a (s.visWord ⟨.netRegion, k.a, p, 0⟩)).any (fun n => mine.contains n)) then
        some (some .regionOverlap)
      else
        let old := regionNodes k.a (s.visWord k)
        if mine.any (fun n => !old.contains n && (unitAt n).any (fun u => sec.dirtyUnits.contains u)) then some none else none
  | .memAllot =>
    match allotRange w with
    | none => none
    | some r =>
      let inStack (f : Nat) : Bool := match placeOf (f * 0x200000) with
        | .hbm hc _ => hc / 4 == k.a
        | _ => false
      if decide (r.2 < r.1) || !(inStack r.1 && inStack r.2)
          || decide (r.1 * 0x200000 / 0x800000000 ≠ r.2 * 0x200000 / 0x800000000) then some none
      else if (s.allotments k.a).any (fun q => decide (q.1 ≠ k.b) && rangesMeet r q.2.2) then some (some .ghAllot)
      else if (memwinRange k.a (s.visWord ⟨.hpMemwin, k.a, 0, 0⟩)).any (rangesMeet r) then some (some .ghAllot)
      else if sec.dirtyFrames.any (fun f => decide (r.1 ≤ f) && decide (f ≤ r.2)) then some none
      else none
  | .hpMemwin =>
    match memwinRange k.a w with
    | none => none
    | some r =>
      if decide (bitsOf w 15 8 = 0) || decide (64 < bitsOf w 15 8) || decide (96 < bitsOf w 7 0 + bitsOf w 15 8)
          || (decide (bitsOf w 17 16 = 0) && decide (94 < bitsOf w 7 0 + bitsOf w 15 8)) then some none
      else if (s.allotments k.a).any (fun q => rangesMeet r q.2.2) then some (some .hpMemwinOverlap)
      else none
  | .netShare | .netSeamshare => if s.sharesOver k w then some (some .shareOver) else none
  | _ => none

/-! ### Writes -/

/-- A writable field wider than 32 bits that spans both halves (R16). -/
def Field.spans (f : Field) : Bool := decide (f.acc = .rw) && decide (32 < f.hi + 1 - f.lo) && decide (f.lo < 32) && decide (32 ≤ f.hi)

/-- The word a write presents, and the low half held after it (R15, R16); a write of the whole register leaves none. -/
def presented (cur : Nat) (held : Option Nat) (fs : List Field) (w : BarWidth) (v : Nat) : Nat × Option Nat :=
  let wide := fs.find? (·.spans)
  match w with
  | .full => (v, none)
  | .low =>
    let new := cur / 2 ^ 32 * 2 ^ 32 + v % 2 ^ 32
    (match wide with
     | some f => (putBits new 31 f.lo (bitsOf cur 31 f.lo), some (v % 2 ^ 32))
     | none => (new, none))
  | .high =>
    let new := (v % 2 ^ 32) * 2 ^ 32 + cur % 2 ^ 32
    (match wide, held with
     | some f, some h => (putBits new 31 f.lo (bitsOf h 31 f.lo), none)
     | _, _ => (new, none))

/-- The fields of a written word over the current one: RO fields keep their value, W1S bits can only rise. -/
def writeFields (cur w : Nat) (fs : List Field) (keep : Field → Bool) : Nat :=
  fs.foldl (fun acc f =>
    if keep f then acc
    else
      match f.acc with
      | .ro => acc
      | .rw => putBits acc f.hi f.lo (bitsOf w f.hi f.lo)
      | .w1s => putBits acc f.hi f.lo (bitsOf cur f.hi f.lo ||| bitsOf w f.hi f.lo)) cur

/-- Whether a write would change a LOCKED field of a unit that runs (R498). -/
def State.lockedHit (s : State) (k : RegKey) (cur w : Nat) : Bool :=
  (fieldsOf k.name).any (fun f =>
    decide (f.cls = .locked)
      && (match f.acc with
          | .w1s => decide (bitsOf cur f.hi f.lo ||| bitsOf w f.hi f.lo ≠ bitsOf cur f.hi f.lo)
          | _ => decide (bitsOf w f.hi f.lo ≠ bitsOf cur f.hi f.lo))
      && s.fieldRuns k f)

/-- Units and frames that leave a partition become dirty (R547). -/
def State.markDirty (s : State) (k : RegKey) (old new : Nat) : State :=
  match k.name with
  | .netRegion =>
    let left := (regionNodes k.a old).filter (fun n => !(regionNodes k.a new).contains n)
    s.modSec k.a (fun c => { c with dirtyUnits := (c.dirtyUnits ++ left.filterMap unitAt).eraseDups })
  | .memAllot =>
    match allotRange old with
    | none => s
    | some r =>
      let keep := (allotRange new).getD (1, 0)
      let left := (upFrom r.1 (r.2 + 1 - r.1)).filter (fun f => !(decide (keep.1 ≤ f) && decide (f ≤ keep.2)))
      s.modSec k.a (fun c => { c with dirtyFrames := (c.dirtyFrames ++ left).eraseDups })
  | .teModectl =>
    if !bitOf old 0 && bitOf new 0 then
      let b := s.openBytes 0x240000
      b.2.pokeMem (tileAddr (4 * k.a + k.b) 0x1C0000) b.1
    else s
  | _ => s

/-- What a taken write also sets: indices of a ring whose place or size is written (R400, R532), but for a lower half of BASE that is merely
held (R16), and the writing function of a boot window. -/
def State.afterWrite (s : State) (port func : Nat) (k : RegKey) (bw : BarWidth) : State :=
  match k.name with
  | .detTrailctl => s.hwSet { k with name := .detTrailidx } 63 0 0
  | .rasEvtctl => s.hwSet { k with name := .rasEvtidx } 63 0 0
  | .detTrailbase => if bw = .low then s else s.hwSet { k with name := .detTrailidx } 63 0 0
  | .rasEvtbase => if bw = .low then s else s.hwSet { k with name := .rasEvtidx } 63 0 0
  | .glbBootmap => (s.hwSet k 6 5 port).hwSet k 4 1 func
  | _ => s

/-- A permitted write (R497, R498, R20): the code of its refusal, if it is refused. Fields of class LIVE and LOCKED take
effect at the next tick; BOUNDARY fields stay in the shadow. A write of the upper half ends its function's hold, even where it is refused
(R16). -/
def State.takeWrite (s : State) (port func : Nat) (k : RegKey) (bw : BarWidth) (v : Nat) : Option Code × State :=
  let cur := s.visWord k
  let fs := fieldsOf k.name
  let hk := (port, func, k)
  let (w, held) := presented cur (s.sys.regs.holds.get? hk) fs bw v
  if s.lockedHit k cur w then
    (some .cfgBusy, if bw = .low then s else s.modRegs (fun r => { r with holds := r.holds.erase hk }))
  else
    let holds := match held with
      | some h => s.sys.regs.holds.set hk h
      | none => s.sys.regs.holds.erase hk
    let s0 := s.modRegs (fun r => { r with holds := holds })
    let new0 := writeFields cur w fs (fun f =>
      decide (f.acc ≠ .ro) && decide (bitsOf w f.hi f.lo ≠ bitsOf cur f.hi f.lo) && s.reservedField port k f (bitsOf w f.hi f.lo))
    match if new0 = cur then none else s.reservedWord k new0 with
    | some none => (none, s0)
    | some (some c) => (none, s0.log (if k.name.ofPartition then port else k.a) 255 k.part c 0 0)
    | none =>
      let s1 := s0.modRegs (fun r => { r with
        vis := r.vis.set k (BitVec.ofNat 64 new0), due := if r.due.contains k then r.due else r.due ++ [k] })
      (none, (s1.markDirty k cur new0).afterWrite port func k bw)

/-- Whether a function satisfies a register's writer kind (R618). -/
def State.mayWrite (s : State) (port func : Nat) (k : RegKey) : Bool :=
  match writerOf k.name with
  | .admin => func == 0 && bitOf (s.visWord ⟨.glbAdmin, 0, 0, 0⟩) port
  | .die => func == 0 && port == k.a
  | .serving => k.part.isSome && s.funcPart port func == k.part
  | .own => k.a == port && (func == 0 || func == k.b)
  | .steward | .mgmt => false
  | .none => true

/-- The die that holds a register (R622, R627): none for Warden's registers. -/
def State.regDie (s : State) (k : RegKey) : Option Nat :=
  if k.name.ofTray then none else if k.name.ofPartition then s.admitDie k.a else some k.a

/-- Why a register cannot be reached from a port (R622). -/
def State.unreachable (s : State) (port : Nat) (k : RegKey) : Option Code :=
  match s.regDie k with
  | none => none
  | some e =>
    if !s.dieUp e then some .dieFenced
    else if decide (e ≠ port) && !s.linkUp port e then some .linkDown
    else none

/-- Whether a partition's reset is under way: GO reads 1 (R609). -/
def State.partResetting (s : State) (p : Nat) : Bool := bitOf (s.visWord ⟨.glbPartreset, p, 0, 0⟩) 63

/-- A write of a function to a register (R497 to R499, R609, R618, R620, R622): the code that a REG_WRITE completes with. -/
def State.regWrite (s : State) (port func : Nat) (k : RegKey) (bw : BarWidth) (v : Nat) : Option Code × State :=
  match s.unreachable port k with
  | some c => (some c, s)
  | none =>
    if !s.mayWrite port func k then (some .cfgDenied, s)
    else if k.part.any (fun p => s.partResetting p) then (some .cfgBusy, s)
    else s.takeWrite port func k bw v

/-- Function and offset as a refused write is logged (assumption log 7). -/
def funcArg (port func off : Nat) : Nat := func + 16 * port + 64 * off

/-- What a function sees at an offset of its BAR0 (R615, R616, R619). -/
def State.barTarget (s : State) (port func off : Nat) : BarTarget :=
  let t := if func = 0 then pfTarget port off else vfTarget port func (s.funcPart port func) off
  match t with
  | .reg k =>
    match k.part with
    | some p =>
      if decide (func = 0) && !bitOf (s.visWord ⟨.glbAdmin, 0, 0, 0⟩) port
          && !(List.range 16).any (fun f => s.funcPart port f == some p) then .reserved
      else t
    | none => t
  | _ => t

/-- A ring register's refusal with CFG_BUSY shows in its CODE field (R499). -/
def State.showRefused (s : State) (k : RegKey) (c : Code) : State :=
  match k.name with
  | .ringSqctl | .ringSqbase | .ringSqdb => if c = .cfgBusy then s.modRing (ringKey k.a false k.b) (fun r => { r with code := c.val }) else s
  | .ringCqctl | .ringCqbase | .ringCqdb | .ringCqcoal =>
    if c = .cfgBusy then s.modRing (ringKey k.a true k.b) (fun r => { r with code := c.val }) else s
  | _ => s

/-- A refused BAR0 write is logged (R499, R620, R622); ring registers also show the code. -/
def State.logRefused (s : State) (port func off : Nat) (k : RegKey) (c : Code) : State :=
  let d := match c with
    | .dieFenced | .linkDown => port
    | _ => (s.regDie k).getD port
  (s.log d 255 none c (funcArg port func off) 0).showRefused k c

/-- A BAR0 write of a function to a register. -/
def State.barWrite (s : State) (port func off : Nat) (k : RegKey) (bw : BarWidth) (v : Nat) : State :=
  match s.regWrite port func k bw v with
  | (some c, s1) => s1.logRefused port func off k c
  | (none, s1) => s1

/-- The fields of a class that satisfy `p` take their visible values. -/
def State.applyFields (s : State) (k : RegKey) (p : Field → Bool) : State :=
  let v := s.visWord k
  let a := (fieldsOf k.name).foldl (fun a f => if p f then putBits a f.hi f.lo (bitsOf v f.hi f.lo) else a) (s.appWord k)
  s.modRegs (fun r => { r with app := r.app.set k (BitVec.ofNat 64 a) })

/-- LIVE and LOCKED fields written in the tick before take effect (R497). -/
def State.applyDue (s : State) : State :=
  eachOf s.sys.regs.due (fun k s => s.applyFields k (fun f => decide (f.cls = .live) || decide (f.cls = .locked)))
    (s.modRegs (fun r => { r with due := [] }))

/-- Whether a register was last written in an earlier tick: BOUNDARY fields take effect no sooner than in the tick after (R497). -/
def State.settled (s : State) (k : RegKey) : Bool := !s.sys.regs.due.contains k

/-- BOUNDARY fields take effect (R497). -/
def State.applyBoundary (s : State) (k : RegKey) (p : Field → Bool) : State :=
  s.applyFields k (fun f => decide (f.cls = .boundary) && p f)

end Sys2Proof.Machine
end

