-- ==== Sys2Proof/Machine/Tables.lean ====
section
/-! DEFINITION. Changes to page tables: the table region (R636), identical copies on every die of the partition (R227, R607),
the changes of R639, invalidation (R239) and what is held (R240). -/

namespace Sys2Proof.Machine

/-- The dies that hold a copy of a partition's tables. -/
def State.tableDies (s : State) (p : Nat) : List Nat :=
  (List.range 4).filter (fun d => bitOf (s.appWord ⟨.memPtbase, d, p, 0⟩) 63)

/-- Bytes of a table: 4 KiB, or 256 for a 64 KiB table (R226). -/
def TableAlloc.size (t : TableAlloc) : Nat := if t.big then 4096 else 256

/-- Whether an extent of the table region is free on every die of a list (R636). -/
def State.tableFree (s : State) (ds : List Nat) (off size : Nat) : Bool :=
  decide (off + size ≤ 0x18000000) && !s.mem.tables.any (fun t =>
    decide (t.off < off + size) && decide (off < t.off + t.size) && (s.tableDies t.part).any (fun d => ds.contains d))

/-- A free offset for a table of a partition: which one Steward takes is a free choice (R636). -/
def State.tableOffset (s : State) (ds : List Nat) (size : Nat) : Option Nat × State :=
  let n := 0x18000000 / size
  let (k, s1) := s.takeFree
  let start := Config.freePick k % n
  (((List.range n).map (fun i => (start + i) % n * size)).find? (fun o => s.tableFree ds o size), s1)

/-- An 8-byte entry is written in every copy of a partition's tables (R227). -/
def State.setEntry (s : State) (p off e : Nat) : State :=
  (s.tableDies p).foldl (fun s d => s.pokeMem (sysBase d + off) (leBytes 8 e)) s

/-- An entry as the partition's copies hold it. -/
def State.getEntry (s : State) (p off : Nat) : Nat :=
  match s.tableDies p with
  | [] => 0
  | d :: _ => s.tableEntry d off

/-- A new table of zeros (R636), or none where no offset is free on every die. -/
def State.newTable (s : State) (p : Nat) (big : Bool) : Option (Nat × State) :=
  let size := if big then 4096 else 256
  match s.tableOffset (s.tableDies p) size with
  | (none, _) => none
  | (some off, s1) =>
    let s2 := s1.modMem (fun m => { m with tables := m.tables ++ [⟨p, off, big⟩] })
    some (off, (s.tableDies p).foldl (fun s d => s.pokeMem (sysBase d + off) (zeros size)) s2)

/-- A table's space is free again. -/
def State.freeTable (s : State) (p off : Nat) : State :=
  s.modMem (fun m => { m with tables := m.tables.filter (fun t => !(t.part == p && t.off == off)) })

/-- A table pointer to an offset (R228). -/
def pointerWord (off : Nat) : Nat := 2 ^ 63 + 2 * 2 ^ 61 + off / 256 * 256

/-- Whether an entry is a valid pointer. -/
def validPointer (e : Nat) : Bool := bitOf e 63 && isPointer e

/-- The table an entry points to, made where it is missing and wanted (R639). -/
def State.descend (s : State) (p slot : Nat) (make : Bool) : Option (Option Nat × State) :=
  let e := s.getEntry p slot
  if validPointer e then some (some (pointerOff e), s)
  else if !make then some (none, s)
  else (s.newTable p true).map (fun r => (some r.1, r.2.setEntry p slot (pointerWord r.1)))

/-- The offset of the level 0 entry of an address; outer none: no space; inner none: a level is missing. -/
def State.slotL0 (s : State) (p va : Nat) (make : Bool) : Option (Option Nat × State) :=
  match s.tableDies p with
  | [] => some (none, s)
  | d :: _ =>
    let root := s.appF .memPtbase d p 0 28 12 * 4096
    [(56, 48), (47, 39), (38, 30)].foldl (fun acc b =>
      match acc with
      | some (some t, s) => s.descend p (t + 8 * bitsOf va b.1 b.2) make
      | r => r) (some (some root, s)) |>.map (fun r => (r.1.map (fun t => t + 8 * bitsOf va 29 21), r.2))

/-- The entries of a 64 KiB table that carries a split 2 MiB entry (R639): frames at successive 64 KiB steps. -/
def splitEntries (e : Nat) : List Nat := (List.range 32).map (fun i => putBits e 51 16 (bitsOf e 51 16 + i))

/-- What a change stores: its entry, or 0 where it removes the page, so that no bit beside V makes the page anything but unmapped (R230,
R639). -/
def PtEntry.stored (c : PtEntry) : Nat := if bitOf c.entry 63 then c.entry else 0

/-- One entry of a change to the tables (R639); none where no table space is left. -/
def State.applyPt (s : State) (p : Nat) (c : PtEntry) : Option State :=
  let valid := bitOf c.entry 63
  match s.slotL0 p c.va valid with
  | none => none
  | some (none, s1) => some s1
  | some (some slot, s1) =>
    let e0 := s1.getEntry p slot
    if c.big then
      let s2 := if validPointer e0 then s1.freeTable p (pointerOff e0) else s1
      some (s2.setEntry p slot c.stored)
    else
      let i := bitsOf c.va 20 16
      if validPointer e0 then some (s1.setEntry p (pointerOff e0 + 8 * i) c.stored)
      else if bitOf e0 63 then
        match s1.newTable p false with
        | none => none
        | some (t, s2) =>
          let s3 := ((List.range 32).zip (splitEntries e0)).foldl (fun s x => s.setEntry p (t + 8 * x.1) x.2) s2
          some ((s3.setEntry p slot (pointerWord t)).setEntry p (t + 8 * i) c.stored)
      else if !valid then some s1
      else
        match s1.newTable p false with
        | none => none
        | some (t, s2) => some ((s2.setEntry p slot (pointerWord t)).setEntry p (t + 8 * i) c.entry)

/-- Whether every entry of a table is invalid. -/
def State.tableEmpty (s : State) (p off n : Nat) : Bool := (List.range n).all (fun i => !bitOf (s.getEntry p (off + 8 * i)) 63)

/-- The pointers on the path to an address, from the root: the slot of each, the table it points to, its entries. -/
def State.pathSlots (s : State) (p va : Nat) : List (Nat × Nat × Nat) :=
  match s.tableDies p with
  | [] => []
  | d :: _ =>
    let root := s.appF .memPtbase d p 0 28 12 * 4096
    ([(56, 48, 512), (47, 39, 512), (38, 30, 512), (29, 21, 32)].foldl (fun (acc : Option Nat × List (Nat × Nat × Nat)) b =>
      match acc.1 with
      | none => acc
      | some t =>
        let slot := t + 8 * bitsOf va b.1 b.2.1
        let e := s.getEntry p slot
        if validPointer e then (some (pointerOff e), (slot, pointerOff e, b.2.2) :: acc.2) else (none, acc.2))
      (some root, [])).2

/-- Tables that a removal has emptied are freed, from the lowest level up; the root stays (R636). -/
def State.pruneTables (s : State) (p va : Nat) : State :=
  (s.pathSlots p va).foldl (fun s x =>
    if s.tableEmpty p x.2.1 x.2.2 then (s.setEntry p x.1 0).freeTable p x.2.1 else s) s

/-- All entries of a change in order; none where table space runs out, and then nothing is applied (R488). -/
def State.applyPts (s : State) (p : Nat) (cs : List PtEntry) : Option State :=
  cs.foldl (fun acc c => acc.bind (fun s =>
    (s.applyPt p c).map (fun s1 => if bitOf c.entry 63 then s1 else s1.pruneTables p c.va))) (some s)

/-- The range of DVAs an entry names. -/
def PtEntry.range (c : PtEntry) : Nat × Nat := (c.va, c.va + (if c.big then 0x200000 else 0x10000) - 1)

/-- The range of a cached page. -/
def PageTag.range (t : PageTag) : Nat × Nat := (t.va, t.va + (if t.big then 0x200000 else 0x10000) - 1)

/-- Whether a change removes a page or narrows its permissions, agents or frame (R240): V, KIND, PORT, FUNC, FRAME, or a
permission or agent that is taken away; a 64 KiB entry inside a 2 MiB page splits it. -/
def narrows (old : CacheEnt) (c : PtEntry) : Bool :=
  let e := old.entry
  let n := c.entry
  !bitOf n 63 || decide (bitsOf e 62 55 ≠ bitsOf n 62 55) || (old.tag.big && !c.big)
    || decide (bitsOf e 51 16 * 65536 + (c.va - old.tag.va) ≠ bitsOf n 51 16 * 65536 + (old.tag.va - c.va))
    || decide (bitsOf e 54 52 &&& bitsOf n 54 52 ≠ bitsOf e 54 52) || decide (bitsOf e 14 8 &&& bitsOf n 14 8 ≠ bitsOf e 14 8)

/-- Whether a change must be held (R240): a running request has pinned a page that it removes or narrows. -/
def State.mustHold (s : State) (p : Nat) (cs : List PtEntry) : Bool :=
  allNodes.any (fun n => (s.mem.nodes.get n).cache.any (fun e =>
    e.tag.part == p && e.pins.any (fun r => (s.findReq r).any (·.running))
      && cs.any (fun c => rangesMeet c.range e.tag.range && narrows e c)))

/-- A change waits behind a held one of its partition whose ranges it meets (R240). -/
def State.behindHeld (s : State) (p : Nat) (cs : List PtEntry) : Bool :=
  s.mem.held.any (fun h => h.part == p && !h.applied && h.entries.any (fun a => cs.any (fun c => rangesMeet a.range c.range)))

/-- The entry of the 64 KiB piece of a 2 MiB entry at a DVA; any other entry is its own. -/
def PtEntry.pieceAt (c : PtEntry) (va : Nat) : Nat := putBits c.entry 51 16 (bitsOf c.entry 51 16 + (va - c.va) / 65536)

/-- Pinned copies of pages that a change only widens take the new entry; a 64 KiB page takes its piece of a 2 MiB entry. -/
def State.widen (s : State) (p : Nat) (cs : List PtEntry) : State :=
  let upd (e : CacheEnt) : CacheEnt :=
    match cs.reverse.find? (fun c => e.tag.part == p && rangesMeet c.range e.tag.range && !narrows e c) with
    | some c => if e.pins.isEmpty then e else { e with entry := c.pieceAt e.tag.va }
    | none => e
  s.modMem (fun m => { m with nodes := m.nodes.mapAll (fun g => { g with cache := g.cache.map upd }) })

/-- Every cached copy of an entry that a change removes, narrows or replaces is invalidated, unless it is pinned and only
widened (R239); a translation that a walk has brought and that a core has yet to use is one of them. -/
def State.refreshCaches (s : State) (p : Nat) (cs : List PtEntry) : State :=
  let gone (t : PageTag) : Bool := t.part == p && cs.any (fun c => rangesMeet c.range t.range)
  let s1 := s.widen p cs
  let s2 := s1.modMem (fun m => { m with nodes := m.nodes.mapAll (fun g =>
    { g with cache := g.cache.filter (fun e =>
        !(e.tag.part == p && cs.any (fun c => rangesMeet c.range e.tag.range && (e.pins.isEmpty || narrows e c)))) }) })
  s2.modComp (fun k => { k with cores := k.cores.mapAll (fun c => { c with xlat := c.xlat.filter (fun x => !gone x.1) }) })

/-- A change takes effect on every copy, and caches follow (R239, R241). -/
def State.changeTables (s : State) (p : Nat) (cs : List PtEntry) : Option State :=
  (s.applyPts p cs).map (fun s1 => s1.refreshCaches p cs)

/-- A partition's region on a die is enabled (R607): a copy of its tables, byte-identical to those of other dies, or an
empty root; none where the table region has no room. -/
def State.createTables (s : State) (d p : Nat) : Option State :=
  let base (off : Nat) (s : State) : State :=
    s.hwSet ⟨.memPtbase, d, p, 0⟩ 63 0 (2 ^ 63 + off / 4096 * 4096)
  match s.tableDies p with
  | [] =>
    match s.tableOffset [d] 4096 with
    | (none, _) => none
    | (some off, s1) =>
      let s2 := s1.modMem (fun m => { m with tables := m.tables ++ [⟨p, off, true⟩] })
      some (base off (s2.pokeMem (sysBase d + off) (zeros 4096)))
  | e :: _ =>
    let mine := s.mem.tables.filter (fun t => t.part == p)
    if mine.all (fun t => s.tableFree [d] t.off t.size) then
      let s1 := mine.foldl (fun s t => s.pokeMem (sysBase d + t.off) (s.mem.mem.bytes (sysBase e + t.off) t.size)) s
      some (base (s.appF .memPtbase e p 0 28 12 * 4096) s1)
    else none

/-- A partition's region on a die is disabled: the die's copy is discarded (R607). -/
def State.discardTables (s : State) (d p : Nat) : State :=
  let s1 := s.hwSet ⟨.memPtbase, d, p, 0⟩ 63 0 0
  if (s1.tableDies p).isEmpty then
    s1.modMem (fun m => { m with tables := m.tables.filter (fun t => !(t.part == p)), boot := m.boot.forget (fun q => q == p) })
  else s1

/-- Every packet in the network and its blocks. -/
def State.allPackets (s : State) : List Packet :=
  let n := s.net
  let vals {K V : Type} (t : Tbl K (List V)) : List V := t.entries.flatMap (·.2)
  vals n.inject ++ (vals n.bufs).map (·.pkt) ++ (vals n.schedBufs).map (·.pkt) ++ (vals n.cross).map (·.pkt)
    ++ (vals n.eject).map (·.pkt) ++ vals n.home ++ (vals n.near).map (·.pkt) ++ vals n.inbox
    ++ s.link.dirs.entries.flatMap (fun e => e.2.flight.map (·.pkt))

/-- Row entries of an RLU record (R248). -/
def rluRows (b : List Byte) : List Nat := (List.range (byteAt b 1)).map (fun i => fieldLe b (64 + 8 * i) 8)

/-- Whether an access translated with an entry of a change has not been performed yet (R239): a core's on its way, a write that waits for a
held bank, or a running row command, whose rows were translated at its start. -/
def State.inFlight (s : State) (p : Nat) (cs : List PtEntry) : Bool :=
  let names (va : Nat) : Bool := cs.any (fun c => decide (c.range.1 ≤ va) && decide (va ≤ c.range.2))
  s.allPackets.any (fun k => k.part == some p &&
    (match k.payload with
     | .mem r _ _ => names r.va.toNat
     | _ => false))
    || s.mem.parked.any (fun q => match q with
      | .write part va _ _ => part == p && names va
      | _ => false)
    || (List.range 32).any (fun ms => (s.comp.rlus.get ms).running.any (fun r =>
      (s.findReq r.cmd.req).any (fun q => q.part == p) && (rluRows r.record).any names))

end Sys2Proof.Machine
end

