-- ==== Sys2Proof/Machine/Memory.lean ====
section
/-! DEFINITION. Commands of the memories: refresh (R215 to R220), temperature (R213), walks (R235), corrections (R505), scrubbing
(R507 to R513), held mapping changes (R240). -/

namespace Sys2Proof.Machine

/-- Whether the present tick of a stack is quiet (R215). -/
def State.quiet (s : State) (hc : Nat) : Bool :=
  match s.mem.hbmBusy.get hc with
  | some x => decide (x.1 ≠ s.tickOf (hc / 4))
  | none => true

/-- A refresh of a pseudo channel (R215). In a tick that is not quiet, whether the reproducible access waits for it, and for
how long within the 1,000 cycles that R314 leaves, is the HC's: free values; a wait is logged (R385). -/
def State.hbmRefresh (s : State) (hc pc next : Nat) : State :=
  let s1 := s.modMem (fun m => { m with hbmNext := m.hbmNext.set (32 * hc + pc) next })
  match s.mem.hbmBusy.get hc with
  | some (t, r, node) =>
    if t = s.tickOf (hc / 4) then
      let (k, s2) := s1.takeFree
      if Config.freePick k % 2 = 1 then s2.addStall r 2 ((Config.freeWord k).toNat % 125 + 1) node pc else s2
    else s1
  | none => s1

/-- HBM_REFRESH (R213, R215): the HC of a stack in service refreshes a bank (REFpb); all banks (REFab), in quiet ticks or where the
postponement is exhausted; or issues RFM, which moves no refresh on and occupies its bank (R314). -/
def execHbmRefresh (hc : HcId) (pc : Fin 32) (kind : HbmRef) (bank : Nat) (s : State) : Out :=
  .next (whenB (s.unitUp (hc / 4) (28 + hc % 4)) s (fun s =>
    match kind with
    | .perBank => s.hbmRefresh hc pc (bank + 1)
    | .allBank exhausted => whenB (s.quiet hc || exhausted) s (fun s => s.hbmRefresh hc pc 0)
    | .management => s.hbmRefresh hc pc (s.mem.hbmNext.get (32 * hc + pc))))

/-- HBM_TEMPERATURE_READOUT (R213): the HC reads its stack's temperature; the sensor of the die follows (R568). -/
def execHbmTemperatureReadout (hc : HcId) (temp : Nat) (s : State) : Out :=
  let s1 := s.modMem (fun m => { m with hbmTemp := m.hbmTemp.set hc temp })
  let top := (List.range 4).foldl (fun t i => max t (s1.mem.hbmTemp.get (4 * (hc.val / 4) + i))) 0
  .next (s1.modWarden (fun w => { w with sensors := w.sensors.modify (18 + 8 * (hc / 4)) (fun x => (top, max x.2 top)) }))

/-! ### Scrubbing -/

/-- Who owns a line (R512): nobody, an enabled CXL.mem window, or a partition. -/
inductive LineOwner where
  | free
  | window (port : Nat)
  | part (p : Nat)
deriving DecidableEq, Repr

/-- The owner of a line at the tick of detection (R512, R513). -/
def State.lineOwner (s : State) (a : Nat) : LineOwner :=
  match placeOf a with
  | .hbm hc _ =>
    let f := a / 0x200000
    if (memwinRange (hc / 4) (s.appWord ⟨.hpMemwin, hc / 4, 0, 0⟩)).any (fun r => decide (r.1 ≤ f) && decide (f ≤ r.2)) then
      .window (hc / 4)
    else match (List.range 16).find? (fun p => s.allotted p a) with
      | some p => .part p
      | none => .free
  | .edram ms _ => match s.ownerOf (msNode ms) with | some p => .part p | none => .free
  | .cmem sc _ => match s.ownerOf (scNode sc) with | some p => .part p | none => .free
  | .tile te _ => match s.ownerOf (teNode te) with | some p => .part p | none => .free
  | .cst sc off =>
    match s.comp.models.find? (fun m => m.sites.any (fun t => t.sc == sc && decide (t.hdr ≤ off) && decide (off < t.fin))) with
    | some m => .part m.part
    | none => .free
  | .hole => .free

/-- Where the event of an owner's line also goes (R512): to the owning partition, or to the partition that the port's PF serves. -/
def State.eventPart (s : State) : LineOwner → Option Nat
  | .part p => some p
  | .window port => s.funcPart port 0
  | .free => none

/-- A scrub visit to one protected word (R507, R512, R513): a correctable error is corrected and counted; an uncorrectable one
poisons the line, is logged and counted, and free memory is re-initialised; found poison in free memory is re-initialised. -/
def State.scrubWord (s : State) (w : Nat) : State :=
  match s.mem.mem.marks.get? w with
  | none => s
  | some .ce => (s.countCe none w).modMem (fun m => m.cleanWords [w])
  | some .ue =>
    let o := s.lineOwner w
    let (d, u) := (addrUnit w).getD (0, 0)
    let s1 := s.log d (unitNode d u) (s.eventPart o) .ueScrub (memArg w) (memKind w)
    let zero := decide (o = .free) && (sysDie w).isNone
    (s1.modMem (fun m => { m with mem := if zero then m.mem.zeroLine w else m.mem.poisonLine w })).countUe w
  | some .poison =>
    match s.lineOwner w with
    | .free => if (sysDie w).isSome then s else s.modMem (fun m => { m with mem := m.mem.zeroLine w })
    | _ => s

/-- Where a scrubber stands (R507, R510): an address below the last begins a new pass; an SRAM pass of more than twice
SRAM_MS is logged once. -/
def State.scrubPass (s : State) (w : Nat) : State :=
  match addrUnit w with
  | none => s
  | some (d, u) =>
    let k := 2 * unitKey d u + b2n (memKind w == 4)
    let p := s.ras.scrubs.get k
    let p1 : ScrubPass := if w < p.pos then ⟨w, s.tickOf d, false⟩ else { p with pos := w }
    let limit := 2 * s.appF .rasScrubctl d 0 0 47 32 * 250000
    let late := decide (2 ≤ memKind w) && !p1.logged && decide (limit < s.since d p1.start)
    let s1 := s.modRas (fun r => { r with scrubs := r.scrubs.set k { p1 with logged := p1.logged || late } })
    if late then s1.log d (unitNode d u) none .scrubBehind u 0 else s1

/-- The store address a reference names. -/
def refAddr : StoreRef → Nat
  | .dpa a => normAddr a
  | .cst sc off => cstAddr sc (off % 0x400000)

/-- SCRUB_VISIT (R512): of SRAM in an idle cycle of its bank, of HBM in a quiet tick of its stack (R509, R510); eDRAM is checked
by its refreshes (R508). -/
def execScrubVisit (at_ : StoreRef) (s : State) : Out :=
  let a := refAddr at_
  let due := match placeOf a with
    | .hbm hc _ => s.quiet hc && s.unitUp (hc / 4) (28 + hc % 4)
    | .edram .. => false
    | .hole => false
    | _ => (addrUnit a).any (fun x => s.unitUp x.1 x.2)
  let words := match placeOf a with
    | .hbm .. => (List.range 8).map (fun i => a / 256 * 256 + 32 * i)
    | _ => [wordAt a]
  .next (whenB due s (fun s => eachOf words (fun w s => s.scrubWord w) (s.scrubPass (wordAt a))))

/-! ### Corrections -/

/-- A queued correction or poisoning acts (R505, R506). -/
def State.correct (s : State) (c : Corr) : State :=
  let s1 := s.modRas (fun r => { r with corrections := r.corrections.erase c })
  let marks : Map Nat ErrMark :=
    if c.toPoison then c.words.foldl (fun k w => k.set w .poison) s.mem.mem.marks
    else s.mem.mem.marks.filter (fun w x => !(c.words.contains w && decide (x = .ce)))
  s1.modMem (fun m => { m with mem := { m.mem with marks := marks } })

/-- CORRECTION_WRITE (R505): the oldest entry queued for the word's bank acts, in an idle cycle of an SRAM bank, or for HBM in a
quiet tick; eDRAM rows are corrected at their refresh. -/
def execCorrectionWrite (at_ : StoreRef) (s : State) : Out :=
  let a := refAddr at_
  let due := match placeOf a with
    | .hbm hc _ => s.quiet hc
    | .edram .. => false
    | _ => true
  .next (withSome (if due then s.ras.corrections.find? (fun c => c.bank == corrBank a) else none) s (fun c s => s.correct c))

/-! ### eDRAM refresh -/

/-- The first byte of a row of a bank (R217). -/
def rowAddr (ms bank row : Nat) : Nat := edramAddr ms (row * 32768 + bank * 1024)

/-- The eDRAM cycle of refresh `n` of a bank, counted from TICK 0 (R218). -/
def refreshCycle (n bank : Nat) : Nat := n / 1024 * 64000 + n % 1024 * 125 / 2 + 2 * bank

/-- A refresh of a row runs (R219, R505, R508): queued corrections of the row act, and in a checking epoch the row is checked
and corrected. -/
def State.runRefresh (s : State) (ms bank n : Nat) (cycle : Nat) : State :=
  let base := rowAddr ms bank (n % 1024)
  let inRow (w : Nat) : Bool := decide (base ≤ w) && decide (w < base + 1024)
  let s1 := eachOf (s.ras.corrections.filter (fun c => c.words.any inRow)) (fun c s => s.correct c) s
  let s2 := s1.modMem (fun m => { m with edramBusy := m.edramBusy.set (32 * ms + bank) (cycle + 8) })
  if (n / 1024) % s.appF .rasScrubctl (ms / 8) 0 0 19 0 = 0 then
    eachOf ((List.range 128).map (fun i => base + 8 * i)) (fun w s => s.scrubWord w) s2
  else s2

/-- Whether a row-logic command holds a bank (R253, R259): its refreshes are postponed. -/
def State.bankHeld (s : State) (ms bank : Nat) : Bool :=
  (s.comp.rlus.get ms).running.any (fun r => r.bank == bank)

/-- The refresh that is due is run, or postponed while a chain holds the bank (R218, R259). -/
def State.dueRefresh (s : State) (ms bank cycle : Nat) : State :=
  let k := 32 * ms + bank
  let n := s.mem.edramNext.get k
  let s1 := s.modMem (fun m => { m with edramNext := m.edramNext.set k (n + 1) })
  if s.bankHeld ms bank then s1.modRlu ms (fun r => { r with postponed := r.postponed.modify bank (· + 1) })
  else s1.runRefresh ms bank n cycle

/-- EDRAM_REFRESH (R218): the bank's next refresh, at its due cycle. -/
def execEdramRefresh (ms : MsId) (bank : Fin 32) (cycle : Fin 4) (s : State) : Out :=
  let now := 4 * s.tickOf (ms / 8) + cycle
  .next (whenB (decide (refreshCycle (s.mem.edramNext.get (32 * ms + bank)) bank ≤ now)) s
    (fun s => s.dueRefresh ms bank now))

/-- Refreshes that a jump of TICK skips (R220): run back to back in each bank, each at the present cycle. -/
def State.catchUp (s : State) (d old new : Nat) : State :=
  let oldE := old % 16000 * 4
  let span := (new % 16000 + 16000 - old % 16000) % 16000 * 4
  eachOf ((List.range 8).flatMap (fun i => (List.range 32).map (fun b => (8 * d + i, b)))) (fun x s =>
    let (ms, b) := x
    let due := (List.range 1024).filter (fun k =>
      let c := k * 125 / 2 + 2 * b
      let ahead := (c + 64000 - oldE) % 64000
      decide (0 < ahead) && decide (ahead ≤ span))
    let s1 := eachOf due (fun k s => s.runRefresh ms b (new / 16000 * 1024 + k) (4 * new)) s
    let next := ((List.range 1024).find? (fun k => decide (new % 16000 * 4 < k * 125 / 2 + 2 * b))).getD 1024
    s1.modMem (fun m => { m with edramNext := m.edramNext.set (32 * ms + b) (new / 16000 * 1024 + next) })) s

/-! ### Walks -/

/-- A walk's outcome as a waiting core takes it: page and entry, or the code of the failed check. -/
def WalkRes.forCore (r : WalkRes) (p va : Nat) : PageTag × Nat × Nat :=
  match r with
  | .page e big => (⟨p, pageBase va big, big⟩, e, 0)
  | .format => (⟨p, pageBase va false, false⟩, 0, Code.ghTableFormat.val.toNat)
  | .unmapped => (⟨p, pageBase va false, false⟩, 0, Code.ghNotMapped.val.toNat)
  | .ue _ => (⟨p, pageBase va false, false⟩, 0, Code.memUe.val.toNat)

/-- A walk of a node ends (R235); its result enters the cache and every core that waits for the page
goes on; a walk that meets an uncorrectable error or the poison syndrome ends their requests with MEM_UE (R637). -/
def State.endWalk (s : State) (n : Nat) (w : WalkReq) : State :=
  let res := s.walk (nodeDie n) w.part w.va
  let got := res.forCore w.part w.va
  let g := s.mem.nodes.get n
  let served := w :: g.waiting.filter (fun x => x.part == w.part && pageBase x.va got.1.big == got.1.va)
  let s1 := match res with
    | .ue a => (eachOf served (fun x s => withSome (s.comp.cores.get x.core).req s (fun r s => s.endReq r .memUe 0 0)) s).walkUe w.part a
    | _ => s
  let s2 := (s1.modGh n (fun g =>
    let g1 := { g with walks := g.walks.erase w, waiting := g.waiting.filter (fun x => !served.contains x) }
    match res with
    | .page e big => g1.fill ⟨⟨w.part, pageBase w.va big, big⟩, e, [], false⟩
    | _ => g1)).startWalks n
  eachOf served (fun x s => s.modCore x.core (fun c => { c with xlat := some got, wait := if c.wait = .walk then .none else c.wait })) s2

/-- TABLE_WALK (R235): the oldest walk of a node that has read its entries ends. -/
def execTableWalk (node : NodeId) (s : State) : Out :=
  if !nodeValid node.toNat then .fault .noSuchNode
  else .next (withSome ((s.mem.nodes.get node.toNat).walks.find? s.walkDone) s (fun w s => s.endWalk node.toNat w))

end Sys2Proof.Machine
end

