-- ==== Sys2Proof/Machine/Clock.lean ====
section
/-! DEFINITION. The Pulse, TICK and its alignment (R35 to R39, R363 to R365). -/

namespace Sys2Proof.Machine

/-- Whether a tick, by a die's count, has been reached: it lies less than 2^63 ticks in the past. -/
def State.reached (s : State) (d t : Nat) : Bool := decide (s.since d t < 2 ^ 63)

/-- L of R354: the ticks of a crossing at the link's width. -/
def State.linkLag (s : State) (a b : Nat) : Nat := if decide ((s.link.links.get (linkKey a b)).st = .up16) then 7 else 6

/-- A clock after a Pulse edge: TICK advances by 1 and wraps (R35); the time since the supply was applied and since the
bring-up step began grows. -/
def DieClk.edge (k : DieClk) : DieClk :=
  let k1 := if k.supplied then { k with age := k.age + 1, stepAge := k.stepAge + 1 } else k
  if k.supplied && k.locked then
    { k1 with tick := k.tick + 1, wraps := if k.tick = BitVec.allOnes 64 then k.wraps + 1 else k.wraps }
  else k1

/-- Check words leave a die in cycle 0 of each tick that is a multiple of 256, over every up link whose dies have both
passed D9 (R365, R600). -/
def State.sendCheckWords (s : State) : State :=
  eachOf diePairs (fun x s =>
    let (a, b) := x
    if s.linkUp a b && decide (10 ≤ (s.sys.clk.get a).step) && decide (10 ≤ (s.sys.clk.get b).step)
        && (s.sys.clk.get a).locked && decide (s.tickOf a % 256 = 0) then
      s.modDir (dirKey a b) (fun w => { w with words := w.words ++
        [⟨.check, (s.sys.clk.get a).tick, BitVec.ofNat 64 (s.tickAfter a (s.linkLag a b)), false⟩] })
    else s) s

/-- The eDRAM refreshes of dies whose TICK has wrapped to 0 begin a new epoch (R35, R218). -/
def State.wrapRefresh (s : State) : State :=
  let wrapped (ms : Nat) : Bool := decide ((s.sys.clk.get (ms / 8)).tick = 0) && decide ((s.sys.clk.get (ms / 8)).wraps ≠ 0)
  s.modMem (fun m => { m with edramNext := ⟨m.edramNext.rest, m.edramNext.entries.map (fun e => if wrapped (e.1 / 32) then (e.1, 0) else e)⟩ })

/-- Scheduled regions with a port on a die whose hard action was taken in the tick before break (R575, R342). -/
def State.breakHard (s : State) : State :=
  eachOf [0, 1, 2, 3] (fun d s => whenB (s.sys.power.get d).breaking s (fun s =>
    (s.modPower d (fun p => { p with breaking := false })).breakScheds (fun c => c.ports.any (fun q => nodeDie q.node == d)))) s

/-- PULSE_EDGE (R35): TICK advances on every die that counts; register writes of the tick before take effect (R497), and the units
that run are noted (R498); scheduled regions that a hard action breaks do so (R575); check words leave (R365). -/
def execPulseEdge (s : State) : Out :=
  .next (whenB s.sys.warden.pulse s (fun s =>
    let clk := { s.sys with clk := (s.sys.clk.modifyAll [0, 1, 2, 3] (fun _ k => k.edge)) }
    ({ s with sys := clk } : State).wrapRefresh.breakHard.applyDue.noteRunning.sendCheckWords))

/-- The side of a link's comparison that die `b` keeps. -/
def Link.setCmp (l : Link) (lower : Bool) (v : Bool) : Link := if lower then { l with cmpLo := some v } else { l with cmpHi := some v }

/-- A check word is handed over (R365): the receiver's TICK against t + L; a delayed word is not compared. The comparison
is that of the tick of handover, `late` ticks ago. -/
def State.compareWord (s : State) (a b : Nat) (w : LinkWord) : State :=
  let late := s.since a w.due.toNat
  let same := decide (s.tickOf b = (w.due.toNat + late) % 2 ^ 64)
  if w.delayed then s
  else
    let s1 := s.modLink (linkKey a b) (·.setCmp (decide (b < a)) same)
    if same then s1 else s1.log b (ctlNode b) none .tickSlip 0 0

/-- The oldest due word of a kind in a direction. -/
def State.dueWord (s : State) (a b : Nat) (kind : WordKind) : Option LinkWord :=
  (s.link.dirs.get (dirKey a b)).words.find? (fun w => decide (w.kind = kind) && s.reached a w.due.toNat)

/-- A word has been handed over. -/
def State.dropWord (s : State) (a b : Nat) (w : LinkWord) : State :=
  s.modDir (dirKey a b) (fun d => { d with words := d.words.erase w })

/-- TICK_CHECK_WORD (R365). -/
def execTickCheckWord (a b : DieId) (s : State) : Out :=
  .next (withSome (if a ≠ b && s.linkUp a b then s.dueWord a b .check else none) s
    (fun w s => (s.dropWord a b w).compareWord a b w))

/-- Two aligned dies in service agree (R37): an up link joins them and the latest comparison of neither end found a
difference. -/
def State.agree (s : State) (a b : Nat) : Bool :=
  let l := s.link.links.get (linkKey a b)
  decide (a ≠ b) && l.up && decide (l.cmpLo ≠ some false) && decide (l.cmpHi ≠ some false)

/-- The aligned dies in service. -/
def State.alignedDies (s : State) : List Nat := (List.range 4).filter (fun d => s.dieUp d && (s.sys.clk.get d).aligned)

/-- The group of a die: the dies joined to it through agreeing links (R37). -/
def State.alignGroup (s : State) (d : Nat) : List Nat :=
  let grow (g : List Nat) : List Nat := s.alignedDies.filter (fun x => g.contains x || g.any (fun y => s.agree x y))
  grow (grow (grow [d]))

/-- The group that stays aligned (R37): the largest, and among the largest the one with the lowest-numbered die. -/
def State.keptGroup (s : State) : List Nat :=
  (s.alignedDies.map s.alignGroup).foldl (fun best g => if best.length < g.length then g else best) []

/-- Whether a request has regions on a die and on another (R38): the regions of its partition. -/
def State.spansDie (s : State) (d : Nat) (r : Request) : Bool :=
  (s.regionDies r.part).contains d && (s.regionDies r.part).any (fun e => e != d)

/-- A die is marked unaligned (R37): running requests with regions on it and on another die end with TICK_SLIP (R38). -/
def State.unalign (s : State) (d : Nat) : State :=
  (s.modClk d (fun k => { k with aligned := false })).endReqs (s.spansDie d) .tickSlip

/-- ALIGNMENT_DECISION (R37): a mismatch stands on an up link between two aligned dies, and Warden decides. -/
def execAlignmentDecision (s : State) : Out :=
  let ds := s.alignedDies
  let slip := ds.any (fun a => ds.any (fun b => decide (a < b) && s.linkUp a b && !s.agree a b))
  .next (whenB (slip && s.sys.warden.running) s (fun s =>
    eachOf (ds.filter (fun d => !s.keptGroup.contains d)) (fun d s => s.unalign d) s))

/-- A die takes an alignment word (R363): TICK becomes t + L in the tick of handover, the die counts as aligned, and the
eDRAM refreshes that the jump skips run (R220). The wait for a heartbeat counts Pulse edges and does not see the jump (R523). -/
def State.takeAlign (s : State) (a d : Nat) (w : LinkWord) : State :=
  let old := s.tickOf d
  let new := (w.tick.toNat + s.linkLag a d + s.since a w.due.toNat) % 2 ^ 64
  (((s.dropWord a d w).modClk d (fun k => { k with tick := BitVec.ofNat 64 new, wraps := 0, aligned := true })).catchUp d old new).modRas
    (fun r => { r with heartbeat := r.heartbeat.modify d (fun h => (h + new + 2 ^ 64 - old) % 2 ^ 64) })

/-- TICK_ALIGN (R363): the alignment word on its way to the die is handed over. -/
def execTickAlign (d : DieId) (s : State) : Out :=
  .next (withSome ([0, 1, 2, 3].find? (fun a => a != d.val && s.linkUp a d && (s.dueWord a d .align).isSome)) s (fun a s =>
    withSome (s.dueWord a d .align) s (fun w s => s.takeAlign a d w)))

end Sys2Proof.Machine
end

