-- ==== Sys2Proof/Machine/Lantern.lean ====
section
/-! DEFINITION. Lantern (R448 to R454, R459): arming and disarming of doorbell words, comparison of lines, notices. -/

namespace Sys2Proof.Machine

/-- Lantern sends a notice (R453), once every posted write that the port received before has been performed (R454). -/
def State.sendNotice (s : State) (port func : Nat) (w : ArmedWord) (value : Word) : State :=
  let t := (s.sys.clk.get port).tick
  if s.writesWait w.part then s.modMem (fun m => { m with parked := m.parked ++ [.notice w.part port func w.ring w.cq value t] })
  else s.noticeOut w.part port func w.ring w.cq value t

/-- When the link between two dies comes up, the Lantern of die `a` re-sends a notice for every armed word that it serves to die
`b`, with its current value (R448). -/
def State.renotify (s : State) (a b : Nat) : State :=
  eachOf (s.io.hps.get a).lantern (fun e s =>
    eachOf (e.words.filter (fun w => s.admitDie w.part == some b)) (fun w s => s.sendNotice a e.func w w.last) s) s

/-- A word is armed (R449): none where a 513th entry would be needed. A port that runs CXL obtains the line with RdShared (R450). A
newly armed word counts as 0, the value both counts of its ring have. -/
def State.lanternArm (s : State) (port func line : Nat) (w : ArmedWord) : Option State :=
  let h := s.io.hps.get port
  let same (e : LanternEnt) : Bool := e.func == func && e.line == line
  if h.lantern.any same then
    some (s.modHp port (fun h => { h with lantern := mapWhere same (fun e => { e with words := e.words ++ [w] }) h.lantern }))
  else if 512 ≤ h.lantern.length then none
  else
    let s1 := s.modHp port (fun h => { h with
      lantern := h.lantern ++ [⟨func, line, [w], h.cxl, s.tickOf port, false⟩] })
    some (if h.cxl && h.linkUp then s1.emit (.cxlReq port "RdShared" line) else s1)

/-- Entries that are left without a word are released; on a CXL port their lines go with CleanEvictNoData (R459). -/
def State.lanternPrune (s : State) (port : Nat) : State :=
  let h := s.io.hps.get port
  let gone := h.lantern.filter (fun e => e.words.isEmpty)
  let s1 := s.modHp port (fun h => { h with lantern := h.lantern.filter (fun e => !e.words.isEmpty) })
  if h.cxl && h.linkUp then eachOf gone (fun e s => s.emit (.cxlReq port "CleanEvictNoData" e.line)) s1 else s1

/-- The words of a port that satisfy `p` are disarmed (R449). -/
def State.lanternDisarm (s : State) (port : Nat) (p : Nat → ArmedWord → Bool) : State :=
  (s.modHp port (fun h => { h with
    lantern := h.lantern.map (fun e => { e with words := e.words.filter (fun w => !p e.func w) }) })).lanternPrune port

/-- The value of word `i` of a line. -/
def lineWord (bytes : List Byte) (i : Nat) : Word := BitVec.ofNat 64 (fieldLe bytes (8 * i) 8)

/-- A line's data is compared with what Lantern holds (R450): one notice for each armed word that changed, and for every armed
word where the held line had an uncorrectable error (R502). -/
def State.lanternCompare (s : State) (port line : Nat) (p : LanternEnt → Bool) (bytes : List Byte) : State :=
  let es := (s.io.hps.get port).lantern.filter (fun e => e.line == line && p e)
  let s1 := s.modHp port (fun h => { h with
    lantern := mapWhere (fun e => e.line == line && p e) (fun e => { e with
      words := e.words.map (fun w => { w with last := lineWord bytes w.word }), rereading := false, ue := false }) h.lantern })
  eachOf es (fun e s => eachOf (e.words.filter (fun w => e.ue || decide (lineWord bytes w.word ≠ w.last)))
    (fun w s => s.sendNotice port e.func w (lineWord bytes w.word)) s) s1

/-- LANTERN_SNOOP (R450): SnpData and SnpCur keep the line; SnpInv gives it up and starts a re-read. A line that is being re-read
is not held. A snoop that crosses a release is answered RspIHitSE and starts no re-read (R459). A held line with an uncorrectable
error is read again (R502). -/
def execLanternSnoop (port : Fin 4) (line : Nat) (sn : Snoop) (s : State) : Out :=
  let h := s.io.hps.get port.val
  let es := h.lantern.filter (fun e => e.line == line)
  let reread (s : State) : State :=
    (s.modHp port (fun h => { h with lantern := mapWhere (fun e => e.line == line) (fun e => { e with rereading := true }) h.lantern })).emit
      (.cxlReq port "RdShared" line)
  .next (whenB (h.cxl && h.linkUp) s (fun s =>
    if es.isEmpty then s.emit (.cxlRsp port "RspIHitSE" line)
    else if es.all (·.rereading) then s.emit (.cxlRsp port "RspIHitI" line)
    else match sn with
      | .inv => reread (s.emit (.cxlRsp port "RspIHitSE" line))
      | _ =>
        let s1 := s.emit (.cxlRsp port "RspSHitSE" line)
        if es.any (·.ue) then reread s1 else s1))

/-- LANTERN_REREAD_DATA (R450): the data of a re-read arrives. -/
def execLanternRereadData (port : Fin 4) (line : Nat) (bytes : List Byte) (s : State) : Out :=
  .next (whenB ((s.io.hps.get port.val).cxl && (s.io.hps.get port.val).linkUp) s
    (fun s => s.lanternCompare port line (·.rereading) bytes))

/-- A read that a port has outstanding (R466). -/
def State.hostRead (s : State) (port func addr len : Nat) (why : HostReadFor) : State :=
  let id := (s.io.hps.get port).nextRead
  let r : HostRead := ⟨id, func, addr, len, why, s.tickOf port⟩
  (s.modHp port (fun h => { h with reads := h.reads ++ [r], nextRead := id + 1 })).emit (.hostRead port func addr len id)

/-- LANTERN_POLL (R451): a line of a port running PCIe is read once every max(POLL_TICKS, ARMED) ticks, at most one poll in a
tick. -/
def execLanternPoll (port : Fin 4) (line : Nat) (s : State) : Out :=
  let h := s.io.hps.get port.val
  let t := s.tickOf port
  .next (whenB (!h.cxl && h.linkUp && decide (h.lastPoll ≠ some t)) s (fun s =>
    withSome (h.lantern.find? (fun e => e.line == line && s.reached port e.pollDue)) s (fun e s =>
      let every := max (s.appF .hpLanternctl port 0 0 31 16) h.lantern.length
      (s.modHp port (fun h => { h with
        lastPoll := some t
        lantern := mapWhere (fun x => x.line == line && x.func == e.func)
          (fun x => { x with pollDue := s.tickAfter port every }) h.lantern })).hostRead port e.func (64 * line) 64 (.poll line))))

/-- A poll's data arrives (R451). -/
def State.pollData (s : State) (port func line : Nat) (bytes : List Byte) : State :=
  s.lanternCompare port line (fun e => e.func == func) bytes

/-- PAGE_DOORBELL_WRITE (R446, R452): a write to BAR2. A word whose ring is a PAGE ring of the function's partition makes a notice;
any other write is dropped and counted. A function that is not enabled drops it (R443), as does a port that takes
no BAR accesses (R520, R524, R602). -/
def execPageDoorbellWrite (f : FuncRef) (off size : Nat) (value : Word) (s : State) : Out :=
  let port := f.port.val
  let func := f.func.val
  let cq := decide (0x200 ≤ off)
  let q := off % 0x200 / 8
  let ctl := s.appWord ⟨if cq then .ringCqctl else .ringSqctl, (s.funcPart port func).getD 0, q, 0⟩
  .next (withSome ((s.funcPart port func).filter (fun _ => s.dieServes port)) s (fun p s =>
    let ok := decide (off < 0x400) && decide (off % 8 = 0) && (decide (size = 8) || decide (size = 4))
      && decide ((s.req.rings.get (ringKey p cq q)).st ≠ 0) && bitOf ctl 5
    if ok then s.sendNotice port func ⟨0, p, q, cq, 0⟩ (if size = 4 then BitVec.ofNat 64 (value.toNat % 2 ^ 32) else value)
    else s.modHp port (fun h => { h with dbDrop := h.dbDrop + 1 })))

end Sys2Proof.Machine
end

