-- ==== Sys2Proof/Machine/Links.lean ====
section
/-! DEFINITION. Replays, degrades and retraining of Sundya links (R356 to R362, R372). -/

namespace Sys2Proof.Machine

/-- Bit of a link in LINK_USED and LINK_HALF (R390). -/
def linkBit (a b : Nat) : Nat := 2 * (linkIndex a b - 1) + (if min a b = 0 then 0 else 1)

/-- WHERE of a link stall in the direction from `a` to `b` (R392). -/
def linkWhere (a b : Nat) : Nat := linkBit a b + (if b < a then 8 else 0)

/-- The requests of tick-released packets: those that are reproducible or in a scheduled region (R31, R360). -/
def relRequests (l : List Packet) : List Nat := l.filterMap (fun p => if p.tickRel then p.req else none)

/-- Packets that wait at the SX port of a direction: their flits lie in the SL router and have not been sent on it. -/
def State.waitSx (s : State) (a b : Nat) : List Packet :=
  let n := unitNode a (linkUnit a b)
  ((s.net.bufs.entries.filter (fun e => decide (e.1.node = n))).flatMap (·.2)
    ++ (s.net.schedBufs.entries.filter (fun e => decide (e.1.1 = n))).flatMap (·.2)).filterMap
      (fun f => if f.outs.contains .sx then some f.pkt else none)

/-- Each of some requests logs a link stall at the sending SL node (R360, R385). -/
def State.linkStalls (s : State) (a b kind cost : Nat) (rs : List Nat) : State :=
  eachOf rs.eraseDups (fun r s => s.addStall r kind cost (unitNode a (linkUnit a b)) (linkWhere a b)) s

/-- The requests whose flits a degrade holds up in a direction (R357): in its replay buffer, or waiting for the link. -/
def State.dirRequests (s : State) (a b : Nat) : List Nat :=
  relRequests ((s.link.dirs.get (dirKey a b)).flight.map (·.pkt) ++ s.waitSx a b)

/-- Flits a link direction carries in a tick (R351). -/
def State.linkCap (s : State) (a b : Nat) : Nat := if decide ((s.link.links.get (linkKey a b)).st = .up16) then 16 else 32

/-- The router cycle in which a flit sent over a link in cycle `c` of tick `t` is handed over (R353, R354). -/
def State.linkDue (s : State) (a b t c : Nat) (rel : Bool) : Nat :=
  let up16 := decide ((s.link.links.get (linkKey a b)).st = .up16)
  (if rel then 8 * (t + s.linkLag a b + (if 6 ≤ c then 1 else 0)) else 8 * t + c + (if up16 then 44 else 40)) % 2 ^ 67

/-- Both directions of a link stop and it retrains (R357, R372): words that cross meanwhile are not compared (R365), and
replay counts begin again at 0. -/
def State.startRetrain (s : State) (a b : Nat) (degrading : Bool) : State :=
  let hold (x : Nat) (y : LinkDir) : LinkDir := { y with
    flight := y.flight.map (fun f => { f with replays := 0 })
    words := y.words.map (fun w => { w with delayed := if w.kind = .check then w.delayed || !s.reached x w.due.toNat else !s.reached x w.due.toNat }) }
  let s1 := s.modLink (linkKey a b) (fun l =>
    { l with st := .training, retrainStart := some (s.tickOf (min a b)), degrading := degrading
             degrades := l.degrades + b2n degrading, degradesHi := l.degradesHi + b2n degrading })
  (s1.modDir (dirKey a b) (hold a)).modDir (dirKey b a) (hold b)

/-- A flit fails its check: the half of the lanes that carried it counts an error (R357). At full width the manual does not say which half
that is: a free choice. -/
def State.laneError (s : State) (a b : Nat) : State :=
  let (k, s1) := s.takeFree
  s1.modLink (linkKey a b) (fun l =>
    let low := if l.st = .up16 then !l.half else decide (Config.freePick k % 2 = 0)
    { l with errLo := l.errLo + b2n low, errHi := l.errHi + b2n (!low) })

/-- A flit as it is resent: one with an uncorrectable error in the replay buffer carries the poison mark (R315, R502). -/
def LinkFlit.resent (f : LinkFlit) (due : Nat) : LinkFlit := { f with due := due, pkt := { f.pkt with poison := f.pkt.poison || f.ue } }

/-- Flit `i` of a direction is resent with every later flit, and they are delayed by 6 ticks; so are the words that would be handed over
after it (R356, R365). -/
def LinkDir.replay (x : LinkDir) (i : Nat) (f : LinkFlit) (after : LinkWord → Bool) : LinkDir :=
  { x with
    flight := x.flight.take i ++ [{ f.resent ((f.due + 48) % 2 ^ 67) with replays := f.replays + 1 }]
      ++ (x.flight.drop (i + 1)).map (fun g => g.resent ((g.due + 48) % 2 ^ 67))
    words := mapWhere after (fun w => { w with due := w.due + 6, delayed := true }) x.words }

/-- A replay that names flit `i` of a direction (R356). -/
def State.replay (s : State) (a b i : Nat) (f : LinkFlit) : State :=
  let later (w : LinkWord) : Bool := !s.reached a w.due.toNat && decide (f.due / 8 ≤ w.due.toNat)
  let s1 := s.laneError a b
  let s2 := s1.modLink (linkKey a b) (fun l => { l with replays := l.replays + 1, replaysHi := l.replaysHi + 1 })
  let s3 := s2.modDir (dirKey a b) (fun x => x.replay i f later)
  (s3.log a (unitNode a (linkUnit a b)) none .linkReplay
    (linkIndex a b + 4 * (if b < a then 1 else 0) + 8 * (f.replays + 1)) 0).linkStalls a b 3 6
      (relRequests (((s.link.dirs.get (dirKey a b)).flight.drop i).map (·.pkt)))

/-- A degrade (R357). -/
def State.degrade (s : State) (a b : Nat) : State :=
  let s1 := (s.linkStalls a b 4 2048 (s.dirRequests a b)).linkStalls b a 4 2048 (s.dirRequests b a)
  let s2 := s1.startRetrain a b true
  s2.log (min a b) (unitNode (min a b) (linkUnit a b)) none .linkDegraded (linkIndex a b) 0

/-- LINK_REPLAY (R356): the named unacknowledged flit of the direction fails its check; one whose 8th replay fails causes a degrade, or
takes a link in UP16 down (R357, R358). -/
def execLinkReplay (a : DieId) (b : FlitTo) (s : State) : Out :=
  let i := b.index
  let b := b.die
  .next (withSome (if a ≠ b && s.linkUp a b then (s.link.dirs.get (dirKey a b)).flight[i]? else none) s (fun f s =>
    if f.replays < 8 then s.replay a b i f
    else if decide ((s.link.links.get (linkKey a b)).st = .up16) then (s.laneError a b).linkGoesDown a b
    else (s.laneError a b).degrade a b))

/-- HALF_ONLY of either end (R372). -/
def State.halfOnly (s : State) (a b : Nat) : Bool :=
  decide (s.appF .netLinkctl a (linkIndex a b) 0 1 1 = 1) || decide (s.appF .netLinkctl b (linkIndex a b) 0 1 1 = 1)

/-- The link state a training gives (R357, R599): full width unless it degrades, HALF_ONLY is set or the full width fails;
else the half with the fewer lane errors, lanes 0 to 15 if equal, of the halves that trained; none where neither did. -/
def Link.trained (l : Link) (halfOnly full lo hi : Bool) : Option Link :=
  let up (st : LinkSt) (h : Bool) : Link :=
    { l with st := st, half := h, retrainStart := none, degrading := false, errLo := 0, errHi := 0, cmpLo := none, cmpHi := none }
  if full && !l.degrading && !halfOnly then some (up .up32 false)
  else if lo && hi then some (up .up16 (decide (l.errHi < l.errLo)))
  else if lo then some (up .up16 false)
  else if hi then some (up .up16 true)
  else none

/-- A unit returns to IN_SERVICE: its generation advances (R516) and Warden's copy follows (R588). -/
def State.returnUnit (s : State) (d u : Nat) : State :=
  (s.modUnit d u (fun r => { r with st := .inService, gen := r.gen + 1, origin := false })).notice d u

/-- A link fenced with LINK_DOWN that trains is in service again (R362, R519). -/
def State.linkServes (s : State) (d u : Nat) : State :=
  let r := s.unitRec d u
  if decide (r.st = .fenced) && decide (r.cause = Code.linkDown.val) then s.returnUnit d u else s

/-- Each direction resends from its oldest unacknowledged flit (R357), as many flits in a cycle and in a tick as its width carries (R351); the
words that a retrain held up cross from now on. New flits follow them. -/
def State.resend (s : State) (a b : Nat) : State :=
  let cap := s.linkCap a b
  let t := s.tickOf a
  s.modDir (dirKey a b) (fun x =>
    let n := x.flight.length
    { x with
      flight := x.flight.zipIdx.map (fun (f, j) => f.resent (s.linkDue a b (t + j / cap) (j % cap / (cap / 8)) f.pkt.tickRel))
      words := mapWhere (·.delayed) (fun w => { w with due := BitVec.ofNat 64 (s.tickAfter a (s.linkLag a b)) }) x.words
      sentTick := (t + (n - 1) / cap) % 2 ^ 64, sentCount := if n = 0 then 0 else (n - 1) % cap + 1 })

/-- A training of a link ends (R357, R358, R362, R372): RETRAIN reads 0 again at both ends. Lantern words across the link are
announced again (R448). -/
def State.endTraining (s : State) (a b : Nat) (full lo hi : Bool) : State :=
  let k := linkIndex a b
  let s1 := (s.hwSet ⟨.netLinkctl, a, k, 0⟩ 0 0 0).hwSet ⟨.netLinkctl, b, k, 0⟩ 0 0 0
  match (s.link.links.get (linkKey a b)).trained (s.halfOnly a b) full lo hi with
  | some l =>
    let s2 := s1.modLink (linkKey a b) (fun _ => l)
    (((((s2.linkServes a (linkUnit a b)).linkServes b (linkUnit a b)).resend a b).resend b a).renotify a b).renotify b a
  | none => s1.linkGoesDown a b

/-- LINK_RETRAIN_END (R357): 2,048 ticks after a retrain began. -/
def execLinkRetrainEnd (a b : DieId) (full lo hi : Bool) (s : State) : Out :=
  let l := s.link.links.get (linkKey a b)
  .next (whenB (decide (a ≠ b) && decide (l.st = .training)
      && l.retrainStart.any (fun t => decide (2048 ≤ s.since (min a.val b.val) t))) s
    (fun s => s.endTraining a b full lo hi))

/-- RETRAIN (R372): the RETRAIN bit of link `k + 1` of a die has been written to 1; a link that is not yet training trains in both
directions. A link that carries nothing yet (OFF) is trained by bring-up alone (R599). -/
def execRetrain (d : DieId) (k : Fin 3) (s : State) : Out :=
  let e := d.val ^^^ (k.val + 1)
  let l := s.link.links.get (linkKey d e)
  .next (whenB (decide (s.appF .netLinkctl d (k.val + 1) 0 0 0 = 1)
      && (decide (l.st = .up32) || decide (l.st = .up16) || decide (l.st = .down))
      && !s.dieFencedB d && !s.dieFencedB e) s
    (fun s => (s.hwSet ⟨.netLinkctl, e, k.val + 1, 0⟩ 0 0 1).startRetrain d e false))

end Sys2Proof.Machine
end

