-- ==== Sys2Proof/Machine/Mesh.lean ====
section
/-! DEFINITION. The on-die mesh and the Sundya crossings: injection with its meters, arbitration, sending and handover of flits
(R286 to R309, R316, R323 to R331, R353 to R355). -/

namespace Sys2Proof.Machine

/-! ### Routes of a packet -/

/-- Whether a packet is a phase notice (R338). -/
def Packet.isPhase (p : Packet) : Bool :=
  match p.payload with
  | .phase .. => true
  | _ => false

/-- Whether a packet is an operation for a Beacon unit, which a home port takes. -/
def Packet.isOp (p : Packet) : Bool :=
  match p.payload with
  | .beacon .. => true
  | _ => false

/-- Whether a node's block receives a multicast (R301). -/
def State.mcastHere (s : State) (n x0 x1 y0 y1 : Nat) (kind : Option BlockKind) : Bool :=
  inRect n (x0, x1, y0, y1) && kind.any (fun k => decide ((blockAt n).1 = k)) && s.blockUp n

/-- The outputs a packet takes at a router (R292, R300, R301). -/
def State.outsAt (s : State) (cur : Nat) (p : Packet) : List Port :=
  match p.dst with
  | .node n =>
    let o := routePort p.vc cur n
    [if o = .l ∧ p.isOp then .h else o]
  | .rect x0 x1 y0 y1 mask kind =>
    let d := nodeDie cur
    let sd := nodeDie p.src
    let root := if d = sd then p.src else slToward d sd
    let x := nodeX cur
    let y := nodeY cur
    let row := decide (y = nodeY root)
    let cover := bitOf mask d
    let on (c : Bool) (o : Port) : List Port := if cover && c then [o] else []
    let col := decide (x0 ≤ x) && decide (x ≤ x1)
    let tree := on (row && decide (nodeX root ≤ x) && decide (x < x1)) .e
      ++ on (row && decide (x ≤ nodeX root) && decide (x0 < x)) .w
      ++ on (col && decide (y0 < y) && decide (y ≤ nodeY root)) .n
      ++ on (col && decide (y < y1) && decide (nodeY root ≤ y)) .s
      ++ on (s.mcastHere cur x0 x1 y0 y1 kind) .l
    let far := if d = sd then
        ((List.range 4).filter (fun e => decide (e ≠ d) && bitOf mask e)).flatMap (fun e =>
          let sl := slToward d e
          if cur = sl then [Port.sx]
          else (routeHops false 16 p.src sl).filterMap (fun h => if h.1 = cur then some h.2 else none))
      else []
    (tree ++ far).eraseDups

/-! ### Buffers -/

/-- Mesh ports of a router. -/
def meshPorts (n : Nat) : Nat := ([Port.n, .e, .s, .w].filter (fun o => (neighbour n o).isSome)).length

/-- Flits a local port moves in a cycle (R288); a router-only node injects its Beacon unit's answers one a cycle. -/
def localWidth (n : Nat) : Nat :=
  match blockAt n with
  | (.sc, _) | (.ctlN, _) | (.ctlS, _) | (.routerOnly, _) => 1
  | _ => meshPorts n

/-- Slots of an input buffer (R289). -/
def slotCap (k : BufKey) : Nat := (if k.vc = 0 then 2 else 4) * (if k.inp = .l then localWidth k.node else 1)

/-- Slots of an input buffer that are held: by flits in it, by flits on their way to it, and by flits that left it in this
cycle (R289). -/
def State.slotsHeld (s : State) (now : Nat) (k : BufKey) : Nat :=
  let f := s.net.freed.get k
  (s.net.bufs.get k).length + (if f.1 = now then f.2 else 0)
    + ((s.net.cross.get (k.node, k.inp)).filter (fun x =>
        x.pkt.vc == k.vc && x.pkt.tickRel == k.rel && x.pkt.srid.isNone)).length

/-- Flits held in the scheduled queue of an input for an output, with those on their way to it (R334). -/
def State.schedHeld (s : State) (node : Nat) (inp out : Port) : Nat :=
  (s.net.schedBufs.get (node, inp, out)).length
    + ((s.net.cross.get (node, inp)).filter (fun x => x.pkt.srid.isSome && (s.outsAt node x.pkt).contains out)).length

/-- The ports of an image at a router note a phase notice (R338): it has arrived and not begun. -/
def State.notePhase (s : State) (node : Nat) (p : Packet) : State :=
  match p.payload with
  | .phase srid k t =>
    match s.findSched srid with
    | none => s
    | some c =>
      eachOf ((c.ports.filter (fun q => q.node == node)).filterMap (fun q => portOfNo q.port)) (fun o s =>
        s.modNet (fun n => { n with phases := n.phases.modify (node, o, srid) (fun x => { x with noted := some (k, t, true) }) })) s
  | _ => s

/-- A flit enters a router (R291, R334): its input buffer, or the scheduled queue of every output it takes. -/
def State.enter (s : State) (node : Nat) (inp : Port) (p : Packet) (idx entered : Nat) : State :=
  let outs := s.outsAt node p
  let f : BufFlit := ⟨{ p with first := 0, last := p.flits }, idx, entered, outs⟩
  let s1 := s.notePhase node p
  if p.srid.isSome then
    eachOf outs (fun o s => s.modNet (fun n => { n with
      schedBufs := n.schedBufs.modify (node, inp, o) (· ++ [f]) })) s1
  else if outs.isEmpty then s1
  else s1.modNet (fun n => { n with bufs := n.bufs.modify ⟨node, inp, p.vc, p.tickRel⟩ (· ++ [f]) })

/-! ### Meters (R323 to R328) -/

/-- Whether a packet is metered where it meets a meter (R325). -/
def Packet.metered (p : Packet) : Bool := decide (p.vc ≠ 0) && p.srid.isNone && p.part.isSome

/-- The resources of a die that a packet goes to (R323): the shared node it names, or the SL toward its die; for a multicast the SL
toward each other die of its mask, and each shared node that receives it on the die. -/
def Packet.toResources (p : Packet) (d : Nat) : List Nat :=
  match p.dst with
  | .node n => if nodeDie n = d then (resourceAt n).toList else [6 + linkIndex d (nodeDie n)]
  | .rect x0 x1 y0 y1 mask kind =>
    (if nodeDie p.src = d then ((List.range 4).filter (fun e => decide (e ≠ d) && bitOf mask e)).map (fun e => 6 + linkIndex d e) else [])
      ++ (if bitOf mask d then (List.range 10).filter (fun r =>
            inRect (resourceNode d r) (x0, x1, y0, y1) && kind.any (fun k => decide ((blockAt (resourceNode d r)).1 = k))) else [])

/-- The credit points of (p, r) on a die, ascending (R327). -/
def State.creditPoints (s : State) (d p r : Nat) : List (Nat × Nat) :=
  let rn := resourceNode d r
  let firsts := ((dieNodes d).filter (fun n => s.owns p n)).flatMap (fun e =>
    [false, true].filterMap (fun yx => (routeHops yx 16 e rn).find? (fun h => !s.interior p h.1 h.2)))
  let shared := (dieNodes d).filter (fun n => decide (n ≠ rn)
    && (resourceAt n).any (fun q => decide (s.allowance d q p false ≠ 0)))
  let pts := (firsts.map (fun h => (h.1, portNo h.2))) ++ shared.map (fun n => (n, 0))
  (dieNodes d).flatMap (fun n => (List.range 5).filterMap (fun o => if pts.contains (n, o) then some (n, o) else none))

/-- Whether a credit point holds enough credits in the current window for a packet. -/
def State.creditOk (s : State) (d p r node port flits : Nat) : Bool :=
  let pts := s.creditPoints d p r
  let i := pts.findIdx (fun x => x == (node, port))
  decide (s.net.toSpent.get (p, 16 * d + r, 8 * node + port) + flits
    ≤ credits (s.allowance d r p true) pts.length (s.tickOf d / 8) i)

/-- The TO meters a packet meets at an output of an owned node: those of the resources whose route has its first foreign link there
(R327). -/
def State.outMeters (s : State) (node : Nat) (o : Port) (p : Packet) : List (Nat × Nat) :=
  let d := nodeDie node
  match p.part with
  | some q =>
    if p.metered && decide (nodeDie p.src = d) && s.owns q p.src then
      ((p.toResources d).filter (fun r =>
        decide ((routeHops (p.vc == 2) 16 p.src (resourceNode d r)).find? (fun h => !s.interior q h.1 h.2) = some (node, o)))).map (fun r => (q, r))
    else []
  | none => []

/-- The meters a packet meets at its injection from a shared node (R326, R328): the FROM meter of the node's resource, and the
TO meters of the resources it goes to. -/
def injMeters (node : Nat) (p : Packet) : Option (Nat × Nat) × List (Nat × Nat) :=
  let d := nodeDie node
  if !p.metered || !sharedNode node then (none, [])
  else
    let q := p.part.getD 0
    ((resourceAt node).map (fun r => (q, r)), ((p.toResources d).filter (fun r => resourceAt node != some r)).map (fun r => (q, r)))

/-- Spend the credits of a packet at a credit point, for every meter it meets there. -/
def State.spendTo (s : State) (node port : Nat) (ms : List (Nat × Nat)) (flits : Nat) : State :=
  eachOf ms (fun m s => s.modNet (fun n => { n with
    toSpent := n.toSpent.modify (m.1, 16 * nodeDie node + m.2, 8 * node + port) (· + flits) })) s

/-! ### Injection -/

/-- Slice and node pacing of the uniform-interleave window (R308): whether a packet may be sent in this tick, and the slice. -/
def State.windowSlice (s : State) (node : Nat) (p : Packet) : Option (Nat × Bool) :=
  let dpa := match p.payload with
    | .mem r _ _ => if r.host.isNone then r.dpa else 0
    | .line _ a _ _ => a
    | _ => 0
  if 0x8080000000 ≤ dpa ∧ dpa < 0x80C0000000 then
    let n := (uniformSlice ((dpa - 0x8080000000) % 0x10000000)).1
    let t := s.tickOf (nodeDie node)
    some (n, decide ((t + n) % 2 = 0) && decide (s.net.winSent.get (node, n) ≠ some t))
  else none

/-- A multicast that leaves its partition's region on a die of its mask is discarded at injection (R302). -/
def State.mcastOutside (s : State) (p : Packet) : Bool :=
  match p.dst, p.part with
  | .rect x0 x1 y0 y1 mask _, some q =>
    !p.isPhase && (List.range 4).any (fun d => bitOf mask d
      && !(s.region q d).any (fun r => decide (r.1 ≤ x0) && decide (x1 ≤ r.2.1) && decide (r.2.2.1 ≤ y0) && decide (y1 ≤ r.2.2.2)))
  | _, _ => false

/-- Flits that a local input has taken in a router cycle (R288): every position where it has taken flits of a later one. -/
def State.injUsed (s : State) (node now : Nat) : Nat :=
  let x := s.net.injPos.get node
  if x.1 = now then x.2 else if cycleReached now x.1 then 0 else localWidth node

/-- Whether the next flit of a packet may enter its router in a cycle: its block has handed it over, there is a position of the local input
and a slot, and the meters allow it (R288, R289, R326, R327): FROM counts flit by flit, TO lets a whole packet go at once. -/
def State.mayInject (s : State) (node now : Nat) (p : Packet) : Bool :=
  let d := nodeDie node
  let m := injMeters node p
  let room := if p.srid.isSome then (s.outsAt node p).all (fun o => decide (s.schedHeld node .l o < 8))
    else decide (s.slotsHeld now ⟨node, .l, p.vc, p.tickRel⟩ < slotCap ⟨node, .l, p.vc, p.tickRel⟩)
  cycleReached now p.start && decide (s.injUsed node now < localWidth node) && room
    && m.1.all (fun x => decide (s.net.fromSpent.get (x.1, 16 * d + x.2) < s.allowance d x.2 x.1 false))
    && (decide (p.first ≠ 0) || m.2.all (fun x => s.creditOk d x.1 x.2 node 0 p.flits))

/-- The next flit of a packet enters its router: a free-running one is in it a cycle later (R290). -/
def State.injectOne (s : State) (node now : Nat) (p : Packet) : State :=
  let d := nodeDie node
  let m := injMeters node p
  let s1 := s.modNet (fun n => { n with injPos := n.injPos.set node (now, s.injUsed node now + 1) })
  let s2 := match m.1 with
    | some x => s1.modNet (fun n => { n with fromSpent := n.fromSpent.modify (x.1, 16 * d + x.2) (· + 1) })
    | none => s1
  let s3 := if p.first = 0 then s2.spendTo node 0 m.2 p.flits else s2
  let s4 := match (if p.first = 0 then s.windowSlice node p else none) with
    | some x => s3.modNet (fun n => { n with winSent := n.winSent.set (node, x.1) (some (s.tickOf d)) })
    | none => s3
  s4.enter node .l p p.first (now + (if p.tickRel then 0 else 1))

/-- The flits of a packet that a router takes in a cycle, and what is left of the packet in its queue. -/
def State.injectFlits (node now : Nat) : Nat → Packet → State → State × Option Packet
  | 0, p, s => (s, some p)
  | k + 1, p, s =>
    if p.last ≤ p.first then (s, none)
    else if s.mayInject node now p then State.injectFlits node now k { p with first := p.first + 1 } (s.injectOne node now p)
    else (s, some p)

/-- Packets that a block has handed over enter the router, oldest first; each partition's queue of a VC and kind waits on its
own (R326), and a window access that is not eligible holds back the accesses to its slice alone (R308). The fold keeps the packets that
stay and the queues that wait. -/
def State.refill (s : State) (node now : Nat) : State :=
  let go (acc : State × List Packet × List (Option Nat × Nat × Bool × Option Nat)) (p : Packet) :
      State × List Packet × List (Option Nat × Nat × Bool × Option Nat) :=
    let (s, keep, held) := acc
    let slice := s.windowSlice node p
    let k := (p.part, p.vc, p.tickRel, none)
    let ks := (p.part, p.vc, p.tickRel, slice.map (·.1))
    if held.contains k || held.contains ks then (s, keep ++ [p], held)
    else if s.mcastOutside p then (s.log (nodeDie node) node p.part .netMcastRange 0 0, keep, held)
    else if decide (p.first = 0) && slice.any (fun x => !x.2) then (s, keep ++ [p], ks :: held)
    else match State.injectFlits node now (p.last + 1) p s with
      | (s1, none) => (s1, keep, if p.last < p.flits then k :: held else held)
      | (s1, some q) => (s1, keep ++ [q], k :: held)
  let r := (s.net.inject.get node).foldl go (s, [], [])
  r.1.modNet (fun n => { n with inject := n.inject.set node r.2.1 })

/-! ### Arbitration (R294, R297) -/

/-- What an output port has done in the present tick. -/
def State.portNow (s : State) (node : Nat) (o : Port) : PortTick :=
  let k := s.net.ports.get (node, o)
  let t := s.tickOf (nodeDie node)
  if k.tick = t then k else { PortTick.reset with tick := t, open_ := k.open_ }

/-- Whether a tick of a port is reserved for a scheduled region (R333). -/
def State.reservedTick (s : State) (node : Nat) (o : Port) (t : Nat) : Bool := bitOf (s.maskAt node o) (t % 8)

/-- The link out of an SL node: its die and the far die. -/
def slLink (node : Nat) : Option (Nat × Nat) :=
  match blockAt node with
  | (.sl, k) => some (nodeDie node, nodeDie node ^^^ k)
  | _ => none

/-- Slots of a receiving SL for one VC and kind that are held (R355): by flits on their way and by flits that have not entered its
router. -/
def State.slHeld (s : State) (a b vc : Nat) (rel : Bool) : Nat :=
  let sl := slToward b a
  ((s.link.dirs.get (dirKey a b)).flight.filter (fun f => f.pkt.vc == vc && f.pkt.tickRel == rel && !f.sched)).length
    + ((s.net.inject.get sl).filter (fun p => p.vc == vc && p.tickRel == rel)).foldl (fun t p => t + (p.last - p.first)) 0

/-- Whether another flit may be sent over a link direction in this tick (R351): the width allows it, what is resent has had its cycles, and
the replay buffer of 512 flits has room (R356). `sentTick` lies ahead of the present while flits are resent. -/
def State.linkRoom (s : State) (a b : Nat) : Bool :=
  let x := s.link.dirs.get (dirKey a b)
  let ahead := (x.sentTick + 2 ^ 64 - s.tickOf a) % 2 ^ 64
  decide (x.flight.length < 512) && decide ((if ahead = 0 then x.sentCount else if ahead < 2 ^ 63 then s.linkCap a b else 0) < s.linkCap a b)

/-- Whether there is room downstream of an output for a flit: a slot of its kind (R289), or a credit (R355). -/
def State.roomFor (s : State) (now node : Nat) (o : Port) (p : Packet) : Bool :=
  match o with
  | .l | .h => true
  | .sx =>
    match slLink node with
    | some (a, b) => s.linkUp a b && s.linkRoom a b && decide (s.slHeld a b p.vc p.tickRel < 64)
    | none => false
  | _ =>
    match neighbour node o with
    | some n => let k : BufKey := ⟨n, opposite o, p.vc, p.tickRel⟩; decide (s.slotsHeld now k < slotCap k)
    | none => false

/-- Whether a flit is the next of its packet at an output, and no other packet of its VC and kind is open there (R287). -/
def nextOfPacket (buf : List BufFlit) (open_ : List (Nat × Bool × Nat)) (o : Port) (f : BufFlit) : Bool :=
  f.outs.contains o && !buf.any (fun g => g.pkt.id == f.pkt.id && decide (g.idx < f.idx) && g.outs.contains o)
    && (match open_.find? (fun x => x.1 == f.pkt.vc && x.2.1 == f.pkt.tickRel) with
        | some x => x.2.2 == f.pkt.id
        | none => f.idx == 0)

/-- The flits that are ready at an output in a cycle, with their inputs (R294): phase notices are sent in cycle 0 only, and
alone in a reserved tick (R339); a two-flit packet does not start where its second flit would fall in a reserved tick (R347): the last cycle
of a tick is no cycle for a tick-released flit (R294), so one that starts in the last but one has its second in the next tick. -/
def State.ready (s : State) (node : Nat) (o : Port) (c : Nat) : List (Port × BufFlit) :=
  let d := nodeDie node
  let t := s.tickOf d
  let now := 8 * t + c
  let res := s.reservedTick node o t
  let k := s.portNow node o
  let all := [Port.l, .n, .e, .s, .w].flatMap (fun i => [0, 1, 2, 3].flatMap (fun vc => [true, false].flatMap (fun rel =>
    let buf := s.net.bufs.get ⟨node, i, vc, rel⟩
    (buf.filter (nextOfPacket buf k.open_ o)).map (fun f => (i, f)))))
  all.filter (fun x =>
    let p := x.2.pkt
    cycleReached now x.2.entered
      && (if p.isPhase then decide (c = 0) else !res)
      && !(decide (p.flits = 2) && decide (x.2.idx = 0) && (decide (c = 7) || (p.tickRel && decide (c = 6))) && s.reservedTick node o (t + 1))
      && s.roomFor now node o p
      && (decide (x.2.idx ≠ 0) || (s.outMeters node o p).all (fun m => s.creditOk d m.1 m.2 node (portNo o) p.flits)))

/-- The VC that an output prefers among those with a ready flit of the chosen kind (R294 items 2 and 3). -/
def preferredVc (has : Nat → Bool) (vc0 n : Nat) : Nat :=
  if has 0 && decide (vc0 < 4) then 0
  else
    let pref := if n % 3 = 0 then 2 else if n % 3 = 1 then 1 else 3
    ([pref, 2, 1, 3].find? has).getD 0

/-- Of flits of one rank, the one whose packet is oldest, and of equal age the one the tie rule takes (R294 items 4 and 5, R297). -/
def State.oldestOf (s : State) (node c : Nat) (l : List (Port × BufFlit)) : Option (Port × BufFlit) :=
  let age (x : Port × BufFlit) : Nat := cycleAge (8 * s.tickOf (nodeDie node) + c) x.2.entered
  let oldest := (l.map age).foldl max 0
  let tied := l.filter (fun x => age x == oldest)
  match tieWinner (s.tickOf (nodeDie node)) 5 (tied.map (fun x => portNo x.1)) with
  | some i => tied.find? (fun x => portNo x.1 == i)
  | none => none

/-- The flit that an output sends in a cycle (R294, R297, R339): a phase notice first; a tick-released flit before a
free-running one, save in the last cycle, in which no tick-released flit is sent; the preferred VC; the oldest packet; the tie rule. -/
def State.winner (s : State) (node : Nat) (o : Port) (c : Nat) : Option (Port × BufFlit) :=
  let cands := s.ready node o c
  let k := s.portNow node o
  let notices := cands.filter (fun x => x.2.pkt.isPhase)
  if !notices.isEmpty then s.oldestOf node c notices
  else
    let rel := decide (c ≠ 7) && cands.any (fun x => x.2.pkt.tickRel)
    let kind := cands.filter (fun x => x.2.pkt.tickRel == rel)
    let vc := preferredVc (fun v => kind.any (fun x => x.2.pkt.vc == v)) (if rel then k.vc0Rel else k.vc0Free)
      (if rel then k.nRel else k.nFree)
    s.oldestOf node c (kind.filter (fun x => x.2.pkt.vc == vc))

/-! ### CMEM banks (R299) -/

/-- Cycles of the core clock that begin in the present tick of a die (R28, R29, R634). -/
def State.coreCycles (s : State) (d : Nat) : Nat :=
  let e := s.extTick d % 5
  (32 * (e + 1) + 4) / 5 - (32 * e + 4) / 5

/-- The banks of an access at a CMEM offset (R221). -/
def cmemBanks (off n : Nat) : List Nat := ((List.range ((off % 8 + n + 7) / 8)).map (fun i => (off / 8 + i) % 16)).eraseDups

/-- Whether a contender still waits: a core at the instruction that asked, a packet that has not been taken. -/
def State.bankLive (s : State) (w : BankWait) : Bool :=
  if w.pos < 8 then
    let k := s.comp.cores.get (8 * w.sc + w.pos)
    k.req.isSome && decide (k.pc.toNat = w.mark)
  else if w.pos = 9 then (s.net.eject.get (scNode w.sc)).any (fun f => f.pkt.id == w.mark)
  else s.net.near.entries.any (fun e => e.1.2 == w.sc && e.2.any (fun f => f.pkt.id == w.mark))

/-- Accesses that a bank has served in the present tick. -/
def State.bankServed (s : State) (sc b : Nat) : Nat :=
  let u := s.net.bankUsed.get (16 * sc + b)
  if u.1 = s.tickOf (sc / 16) then u.2 else 0

/-- Whether a contender wins its bank's next cycle (R299): a cycle is left in the tick, and no contender is older, or as old and ahead by
the tie rule over twelve positions (R386). -/
def State.bankWins (s : State) (w : BankWait) : Bool :=
  let d := w.sc / 16
  let all := w :: s.net.bankWaits.filter (fun x => x.sc == w.sc && x.bank == w.bank && x.pos != w.pos && s.bankLive x)
  let oldest := (all.map (fun x => s.since d x.since)).foldl max 0
  decide (s.bankServed w.sc w.bank < s.coreCycles d)
    && decide (tieWinner (s.tickOf d) 12 ((all.filter (fun x => s.since d x.since == oldest)).map (·.pos)) = some w.pos)

/-- Banks serve an access in this tick, where they can. -/
def State.useBanks (s : State) (sc : Nat) (bs : List Nat) : State :=
  eachOf bs (fun b s => s.modNet (fun n => { n with
    bankUsed := n.bankUsed.set (16 * sc + b) (s.tickOf (sc / 16), s.bankServed sc b + 1) })) s

/-- A contender asks for banks of an SC: whether it has them; else it waits, with the age of its request. -/
def State.askBanks (s : State) (sc pos mark : Nat) (bs : List Nat) : Bool × State :=
  let mine (w : BankWait) : Bool := w.sc == sc && w.pos == pos && w.mark == mark
  let ask (b : Nat) : BankWait := (s.net.bankWaits.find? (fun w => mine w && w.bank == b)).getD ⟨sc, b, pos, s.tickOf (sc / 16), mark⟩
  let rest := s.net.bankWaits.filter (fun w => !(w.sc == sc && w.pos == pos))
  if bs.all (fun b => s.bankWins (ask b)) then (true, (s.modNet (fun n => { n with bankWaits := rest })).useBanks sc bs)
  else (false, s.modNet (fun n => { n with bankWaits := rest ++ bs.map ask }))

/-! ### Sending -/

/-- An output port's record after it has sent a flit in a cycle (R287, R294). -/
def PortTick.sent (k : PortTick) (c : Nat) (f : BufFlit) : PortTick :=
  let p := f.pkt
  let rest := k.open_.filter (fun x => !(x.1 == p.vc && x.2.1 == p.tickRel))
  let zero := decide (p.vc = 0)
  { k with
    nextCycle := c + 1
    vc0Rel := k.vc0Rel + b2n (zero && p.tickRel), vc0Free := k.vc0Free + b2n (zero && !p.tickRel)
    nRel := k.nRel + b2n (!zero && p.tickRel), nFree := k.nFree + b2n (!zero && !p.tickRel)
    open_ := if f.idx + 1 < p.flits then (p.vc, p.tickRel, p.id) :: rest else rest }

/-- A crossing at half width of a request that launched at full width is a stall of one tick, kept once per link and direction
(R360, R392). -/
def State.halfStall (s : State) (a b : Nat) (p : Packet) : State :=
  match (if p.tickRel then p.req.bind s.findReq else none) with
  | none => s
  | some r =>
    if decide ((s.link.links.get (linkKey a b)).st = .up16) && !bitOf r.linkHalf (linkBit a b) then
      let same (x : Stall) : Bool := x.kind == 5 && x.where_ == linkWhere a b
      if r.stalls.any same then
        s.modReq r.id (fun q => { q with stalls := mapWhere same (fun x => { x with cost := x.cost + 1 }) q.stalls })
      else s.addStall r.id 5 1 (unitNode a (linkUnit a b)) (linkWhere a b)
    else s

/-- A flit is sent over a Sundya link in cycle `c` (R353, R354): it stays in the replay buffer until it is handed over. -/
def State.sendLink (s : State) (a b : Nat) (p : Packet) (idx c : Nat) (sched : Bool) : State :=
  let t := s.tickOf a
  let due := s.linkDue a b t c p.tickRel
  (s.modDir (dirKey a b) (fun x =>
    let fresh := decide (x.sentTick ≠ t)
    { x with nextSeq := (x.nextSeq + 1) % 4096, flight := x.flight ++ [⟨x.nextSeq, p, idx, due, sched, 0, false⟩]
             sentTick := t, sentCount := if fresh then 1 else x.sentCount + 1 })).halfStall a b p

/-- A flit leaves a router through an output in cycle `c` (R30, R290, R298, R336): a free-running one takes a cycle to leave into its block.
An operation for a Beacon unit is delivered in the cycle of its flit (R310). -/
def State.passOn (s : State) (node : Nat) (o : Port) (c : Nat) (f : BufFlit) : State :=
  let d := nodeDie node
  let t := s.tickOf d
  match o with
  | .l =>
    let at_ := 8 * t + c + (if f.pkt.tickRel then 0 else 1)
    s.modNet (fun n => { n with eject := n.eject.modify node (· ++ [{ f with entered := at_ }]) })
  | .h => s.modNet (fun n => { n with
      home := n.home.modify node (· ++ [f.pkt]), homeDue := n.homeDue.modify node (· ++ [8 * t + c]) })
  | .sx =>
    match slLink node with
    | some (a, b) => s.sendLink a b f.pkt f.idx c f.pkt.srid.isSome
    | none => s
  | _ =>
    match neighbour node o with
    | some n =>
      let due := if f.pkt.tickRel then 8 * (t + (if 6 ≤ c then 2 else 1)) else 8 * t + c + (if isSeam node o then 5 else 2)
      s.modNet (fun k => { k with cross := k.cross.modify (n, opposite o) (· ++ [⟨f.pkt, f.idx, due⟩]) })
    | none => s

/-- A flit's slot is freed once every output that takes it has sent it (R301). -/
def State.freeSlot (s : State) (node : Nat) (inp o : Port) (f : BufFlit) (now : Nat) : State :=
  let key : BufKey := ⟨node, inp, f.pkt.vc, f.pkt.tickRel⟩
  let same (g : BufFlit) : Bool := g.pkt.id == f.pkt.id && g.idx == f.idx
  let left := f.outs.filter (fun x => decide (x ≠ o))
  if left.isEmpty then
    s.modNet (fun n => { n with
      bufs := n.bufs.modify key (fun l => l.filter (fun g => !same g))
      freed := n.freed.modify key (fun x => if x.1 = now then (now, x.2 + 1) else (now, 1)) })
  else s.modNet (fun n => { n with bufs := n.bufs.modify key (mapWhere same (fun g => { g with outs := left })) })

/-- A tick-released flit of a reproducible request's span that is not scheduled and goes over a link foreign to its partition opens the
request's timing (R384). -/
def State.timingOpens (s : State) (node : Nat) (o : Port) (p : Packet) : State :=
  let foreign := match o with
    | .l | .h => false
    | .sx => true
    | _ => !p.part.any (fun q => s.interior q node o)
  match (if p.tickRel && p.srid.isNone && foreign then p.req.bind s.findReq else none) with
  | none => s
  | some r =>
    if r.reproducible && r.inSpan && !r.timingOpen then
      (s.modReq r.id (fun q => { q with timingOpen := true })).log (nodeDie node) node (some r.part) .detTimingOpen 0 0
    else s

/-- An output sends the winner of a cycle, where there is one. -/
def State.sendOne (s : State) (node : Nat) (o : Port) (c : Nat) : State :=
  match s.winner node o c with
  | none => s
  | some (inp, f) =>
    let now := 8 * s.tickOf (nodeDie node) + c
    let s1 := if f.idx = 0 then s.spendTo node (portNo o) (s.outMeters node o f.pkt) f.pkt.flits else s
    let s2 := s1.modNet (fun n => { n with ports := n.ports.set (node, o) ((s.portNow node o).sent c f) })
    ((s2.freeSlot node inp o f now).passOn node o c f).timingOpens node o f.pkt

/-- Flits an output sends in a cycle (R288, R294, R351). -/
def State.outWidth (s : State) (node : Nat) (o : Port) : Nat :=
  match o with
  | .l => localWidth node
  | .sx =>
    match slLink node with
    | some (a, b) => if decide ((s.link.links.get (linkKey a b)).st = .up16) then 2 else 3
    | none => 0
  | _ => 1

/-- What the check of a flit at an output shows (R315): a corrected error is counted at the router; a data word with an uncorrectable error
gives the packet its poison mark. -/
def State.checkFlit (s : State) (node : Nat) (o : Port) (c : Nat) (e : FlitErr) : State :=
  match s.winner node o c with
  | none => s
  | some (inp, f) =>
    match e with
    | .clean => s
    | .corrected => s.modNet (fun n => { n with linkCe := n.linkCe.modify node (· + 1) })
    | .dataUe => s.modNet (fun n => { n with
        bufs := n.bufs.modify ⟨node, inp, f.pkt.vc, f.pkt.tickRel⟩
          (mapWhere (fun g => g.pkt.id == f.pkt.id && g.idx == f.idx) (fun g => { g with pkt := { g.pkt with poison := true } })) })

/-- FLIT_SEND (R294): an output, home or ejection port in a router cycle of the tick that it has not used. -/
def execFlitSend (node : NodeId) (p : Port) (c : SendCycle) (s : State) : Out :=
  let n := node.toNat
  if !nodeValid n then .fault .noSuchNode
  else .next (whenB (!s.dieFencedB (nodeDie n) && decide ((s.portNow n p).nextCycle ≤ c.cycle)) s (fun s =>
    let s1 := (s.refill n (8 * s.tickOf (nodeDie n) + c.cycle)).checkFlit n p c.cycle c.err
    (List.range (s1.outWidth n p)).foldl (fun s _ => s.sendOne n p c.cycle) s1))

/-! ### Handover -/

/-- The first flit of a crossing of one kind, where its cycle has come. -/
def State.dueCross (s : State) (node : Nat) (p : Port) (rel : Bool) : Option CrossFlit :=
  match (s.net.cross.get (node, p)).find? (fun x => x.pkt.tickRel == rel) with
  | some x => if s.reached (nodeDie node) (x.due / 8) then some x else none
  | none => none

/-- A flit is handed over at an input (R30, R290, R291). -/
def State.handOver (s : State) (node : Nat) (p : Port) (x : CrossFlit) : State :=
  (s.modNet (fun n => { n with cross := n.cross.modify (node, p) (fun l => l.erase x) })).enter node p x.pkt x.idx x.due

/-- CROSSING_HANDOVER (R30): the next tick-released item of an input. -/
def execCrossingHandover (node : NodeId) (p : Port) (s : State) : Out :=
  let n := node.toNat
  if !nodeValid n then .fault .noSuchNode
  else .next (withSome (s.dueCross n p true) s (fun x s => s.handOver n p x))

/-- The first flit in flight of a direction and kind, where its tick has come by the receiver's count (R353, R354). Flits of one
VC and kind keep their order (R355). -/
def State.dueFlight (s : State) (a b : Nat) (rel : Bool) : Option LinkFlit :=
  match (s.link.dirs.get (dirKey a b)).flight.find? (fun f => f.pkt.tickRel == rel) with
  | some f => if s.linkUp a b && s.reached b (f.due / 8) then some f else none
  | none => none

/-- A flit joins the queue of a receiving SL (R351, R355): behind the flit of its packet before it where that has not entered the router,
else as an entry of its own. -/
def landed (l : List Packet) (f : LinkFlit) : List Packet :=
  let before (p : Packet) : Bool := p.id == f.pkt.id && p.last == f.idx
  if l.any before then mapWhere before (fun p => { p with last := f.idx + 1 }) l
  else l ++ [{ f.pkt with start := f.due, first := f.idx, last := f.idx + 1 }]

/-- A flit that has crossed a link is handed to the SL router of the receiving die: a scheduled one into its scheduled queue, any
other to the SL's slots, from which it is injected from the cycle in which it is due (R351, R353, R354, R355). -/
def State.landFlit (s : State) (a b : Nat) (f : LinkFlit) : State :=
  let sl := slToward b a
  let s1 := s.modDir (dirKey a b) (fun x => { x with flight := x.flight.erase f })
  if f.sched then s1.enter sl .l f.pkt f.idx f.due
  else s1.modNet (fun n => { n with inject := n.inject.modify sl (landed · f) })

/-- SUNDYA_HANDOVER (R354): the next tick-released flit of a direction. -/
def execSundyaHandover (a b : DieId) (s : State) : Out :=
  .next (withSome (if a ≠ b then s.dueFlight a b true else none) s (fun f s => s.landFlit a b f))

/-- FREE_RUNNING_HANDOVER (R290): the next free-running flit of an input; at an SL node, port SX is the link's side (R353). -/
def execFreeRunningHandover (node : NodeId) (p : Port) (s : State) : Out :=
  let n := node.toNat
  if !nodeValid n then .fault .noSuchNode
  else match p, slLink n with
    | .sx, some (b, a) => .next (withSome (s.dueFlight a b false) s (fun f s => s.landFlit a b f))
    | _, _ => .next (withSome (s.dueCross n p false) s (fun x s => s.handOver n p x))

/-! ### Errors (R316) -/

/-- A packet with its flits leaves every buffer, crossing and link. -/
def State.purge (s : State) (id : Nat) : State :=
  let bf (l : List BufFlit) : List BufFlit := l.filter (fun f => !(f.pkt.id == id))
  let cf (l : List CrossFlit) : List CrossFlit := l.filter (fun f => !(f.pkt.id == id))
  let s1 := s.modNet (fun n => { n with
    bufs := n.bufs.mapAll bf, schedBufs := n.schedBufs.mapAll bf, cross := n.cross.mapAll cf, eject := n.eject.mapAll bf
    ports := n.ports.mapAll (fun k => { k with open_ := k.open_.filter (fun x => !(x.2.2 == id)) }) })
  { s1 with link := { s1.link with dirs := s1.link.dirs.mapAll (fun x => { x with
      flight := x.flight.filter (fun f => !(f.pkt.id == id)) }) } }

/-- One branch of a multicast loses its flits on a crossing. -/
def State.dropBranch (s : State) (node : Nat) (p : Port) (id : Nat) : State :=
  s.modNet (fun n => { n with cross := n.cross.modify (node, p) (fun l => l.filter (fun f => !(f.pkt.id == id))) })

/-- NET_FLIT_UE (R316): the next flit of an input arrives with an uncorrectable sideband; it is discarded with the rest of its
packet. -/
def execNetFlitUe (node : NodeId) (p : Port) (s : State) : Out :=
  let n := node.toNat
  if !nodeValid n then .fault .noSuchNode
  else .next (withSome (s.net.cross.get (n, p)).head? s (fun x s =>
    let s1 := match x.pkt.dst with
      | .node _ => s.purge x.pkt.id
      | .rect .. => s.dropBranch n p x.pkt.id
    s1.log (nodeDie n) n x.pkt.part .netFlitUe (n + 256 * portNo p) 0))

/-- Whether a home holds the watch of an operation: its answer is due only when its condition holds, and its own limit applies (R183,
R184). -/
def State.watchHeld (s : State) (node tag : Nat) : Bool :=
  (List.range 32).any (fun i => (s.net.watches.get (node, i)).any (fun w => w.tag == tag))

/-- The die of the requester of an outstanding access. -/
def AwaitEnt.die (w : AwaitEnt) : Nat :=
  match w.agent with
  | .core c => nodeDie (coreNode c)
  | .notify c _ => nodeDie (coreNode c)
  | .block n _ => nodeDie n
  | .sua k _ => nodeDie (scNode k)
  | .none => nodeDie w.dst

/-- NET_TIMEOUT (R316): an access has had no answer for 65,536 ticks. -/
def execNetTimeout (id : Nat) (s : State) : Out :=
  .next (withSome (s.net.waiting.find? (fun w => w.tag == id)) s (fun w s =>
    whenB (!s.watchHeld w.dst w.tag && decide (65536 ≤ s.since w.die w.issued)) s (fun s => s.awaitFails w .netTimeout)))

/-! ### Windows (R324, R349) -/

/-- The share fields of the partitions of a group that run no request take effect (R349). -/
def State.applyShares (s : State) (k : RegKey) : State :=
  s.applyBoundary k (fun f => !s.partRuns (4 * k.c + f.lo / 16))

/-- The share registers of a die. -/
def shareKeys (d : Nat) : List RegKey :=
  (List.range 10).flatMap (fun r => (List.range 4).map (fun g => (⟨.netShare, d, r, g⟩ : RegKey)))
    ++ (List.range 8).flatMap (fun x => (List.range 4).map (fun g => (⟨.netSeamshare, d, x, g⟩ : RegKey)))

/-- The ingress buffers of a die's stream ports send a window's FROM allowance of each partition (R431). -/
def State.drainIngress (s : State) (d : Nat) : State :=
  eachOf [0, 1] (fun i s => s.modSp (2 * d + i) (fun k => { k with
    held := k.held.modifyAll (k.held.entries.map (·.1)) (fun p h => h - 32 * s.allowance d (5 + i) p false) })) s

/-- WINDOW_START (R324): at a TICK that is a multiple of 8 the meters of a die hand out fresh credits and allowances, once (R324), ingress buffers
send what theirs allow (R431), and share shadows whose partition is idle take effect (R349). -/
def execWindowStart (d : DieId) (s : State) : Out :=
  .next (whenB (decide (s.tickOf d % 8 = 0) && decide (s.net.windowAt.get d ≠ some (s.tickOf d))) s (fun s =>
    let s1 := s.modNet (fun n => { n with
      windowAt := n.windowAt.set d (some (s.tickOf d))
      fromSpent := ⟨n.fromSpent.rest, n.fromSpent.entries.map (fun e => if e.1.2 / 16 = d.val then (e.1, 0) else e)⟩
      toSpent := ⟨n.toSpent.rest, n.toSpent.entries.map (fun e => if e.1.2.1 / 16 = d.val then (e.1, 0) else e)⟩ })
    eachOf ((shareKeys d).filter (fun k => (s.sys.regs.vis.get? k).isSome)) (fun k s => s.applyShares k) (s1.drainIngress d)))

end Sys2Proof.Machine
end

