-- ==== Sys2Proof/Machine/Schedule.lean ====
section
/-! DEFINITION. Scheduled regions: what a port sends in its reserved ticks, phases, and the checks of a schedule image (R332 to
R346). -/

namespace Sys2Proof.Machine

/-! ### Sending in reserved ticks -/

/-- The running region that reserves the present tick of a port, where there is one (R333, R335). -/
def State.schedAt (s : State) (node : Nat) (o : Port) : Option Sched :=
  let t := s.tickOf (nodeDie node)
  s.net.scheds.find? (fun c => c.active && !c.broken && c.running.isSome
    && c.ports.any (fun q => q.node == node && q.port == portNo o && bitOf q.mask (t % 8)))

/-- The pattern of a port in a phase. -/
def Sched.pattern (c : Sched) (node : Nat) (o : Port) (k : Nat) : List Nat :=
  ((c.ports.find? (fun q => q.node == node && q.port == portNo o && q.phase == k)).map (·.pattern)).getD []

/-- NFLIT and INPUT of the position that applies `n` ticks after a phase began (R335, R344). -/
def positionAt (pat : List Nat) (n : Nat) : Nat × Option Port :=
  let b := pat.getD (n % pat.length) 0
  (bitsOf b 7 4, portOfNo (bitsOf b 2 0))

/-- The phases a port has run for its request, oldest first, the present one last: the phase, T_k, the tick in which the port began it and the
tick in which it ended it (R339). -/
def phaseSpans (now : Nat) (cur : PortPhase) (past : List (Nat × Nat × Nat)) : List (Nat × Nat × Nat × Nat) :=
  let go (acc : List (Nat × Nat × Nat × Nat) × Option Nat) (x : Nat × Nat × Nat) : List (Nat × Nat × Nat × Nat) × Option Nat :=
    (acc.1 ++ [(x.1, x.2.1, acc.2.getD x.2.1, x.2.2)], some x.2.2)
  ((past ++ [(cur.phase, cur.start, now)]).foldl go ([], none)).1

/-- Whether a position in an earlier tick since a flit entered its queue named its input (R340), in the phase that the port ran in that
tick: the flit is late. A pattern and a mask repeat within 512 ticks. -/
def State.flitLate (s : State) (c : Sched) (node : Nat) (o inp : Port) (f : BufFlit) : Bool :=
  let d := nodeDie node
  let mask := ((c.ports.find? (fun q => q.node == node && q.port == portNo o)).map (·.mask)).getD 0
  let waited := s.since d (f.entered / 8 % 2 ^ 64)
  (phaseSpans (s.tickOf d) (s.net.phases.get (node, o, c.srid)) (s.net.past.get (node, o, c.srid))).any (fun x =>
    let began := s.since d x.2.1
    let first := min waited (s.since d x.2.2.1)
    (List.range (min (first - s.since d x.2.2.2) 512)).any (fun i =>
      let ago := first - i
      let p := positionAt (c.pattern node o x.1) (began - ago)
      decide (0 < p.1) && decide (p.2 = some inp) && bitOf mask ((s.tickOf d + 8 - ago % 8) % 8)))

/-- LATE rises (R340): SCHED_LATE is logged once for each request. -/
def State.countLate (s : State) (srid node : Nat) : State :=
  match s.findSched srid with
  | none => s
  | some c =>
    let s1 := s.modSched srid (fun c => { c with late := c.late + 1, lateLogged := true })
    if c.lateLogged then s1 else s1.log (nodeDie node) node (some c.part) .schedLate 0 0

/-- Whether the scheduled queue downstream of a port has a free slot for a flit (R334, R335, R355). -/
def State.schedRoom (s : State) (node : Nat) (o : Port) (p : Packet) : Bool :=
  match o with
  | .l | .h => true
  | .sx =>
    match slLink node with
    | some (a, b) =>
      let sl := slToward b a
      s.linkUp a b && s.linkRoom a b && (s.outsAt sl p).all (fun q =>
        decide (s.schedHeld sl .l q
          + ((s.link.dirs.get (dirKey a b)).flight.filter (fun f => f.sched && (s.outsAt sl f.pkt).contains q)).length < 8))
    | none => false
  | _ =>
    match neighbour node o with
    | some n => (s.outsAt n p).all (fun q => decide (s.schedHeld n (opposite o) q < 8))
    | none => false

/-- A branch of a scheduled flit has been sent: its slot in the queues of the input is freed once every branch has sent it (R334). -/
def State.schedSent (s : State) (node : Nat) (inp o : Port) (f : BufFlit) : State :=
  let same (g : BufFlit) : Bool := g.pkt.id == f.pkt.id && g.idx == f.idx
  let left := f.outs.filter (fun x => decide (x ≠ o))
  let keep (l : List BufFlit) : List BufFlit :=
    if left.isEmpty then l.filter (fun g => !same g) else mapWhere same (fun g => { g with outs := left }) l
  eachOf f.outs (fun q s => s.modNet (fun n => { n with schedBufs := n.schedBufs.modify (node, inp, q) keep })) s

/-- One scheduled flit is sent in cycle `c`, or the tick's sending stops (R335): the first of the queue that the port has not sent. -/
def State.sendSched (s : State) (c : Sched) (node : Nat) (o inp : Port) (cy : Nat) : Option State :=
  match (s.net.schedBufs.get (node, inp, o)).find? (fun f => f.outs.contains o) with
  | none => none
  | some f =>
    if f.pkt.srid = some c.srid ∧ s.schedRoom node o f.pkt then
      let s1 := s.schedSent node inp o f
      let s2 := if s.flitLate c node o inp f then s1.countLate c.srid node else s1
      some (s2.passOn node o cy f)
    else none

/-- The scheduled flits of a tick, in cycles from `cy` on: up to `n` of them, while each can be sent. -/
def State.sendScheds (c : Sched) (node : Nat) (o inp : Port) : Nat → Nat → State → State
  | 0, _, s => s
  | n + 1, cy, s =>
    if 8 ≤ cy then s
    else match s.sendSched c node o inp cy with
      | some s1 => State.sendScheds c node o inp n (cy + 1) s1
      | none => s

/-- Packets that a block has handed over enter the router in a tick's first cycle (R334). -/
def State.runPattern (s : State) (c : Sched) (node : Nat) (o : Port) : State :=
  let d := nodeDie node
  let t := s.tickOf d
  let k := s.portNow node o
  let ph := s.net.phases.get (node, o, c.srid)
  let pat := c.pattern node o ph.phase
  let p := positionAt pat (s.since d ph.start)
  let s1 := s.modNet (fun n => { n with ports := n.ports.set (node, o) { k with tick := t, nextCycle := 8 } })
  if pat.isEmpty || !s.reached d ph.start then s1
  else match p.2 with
    | some inp => State.sendScheds c node o inp p.1 k.nextCycle s1
    | none => s1

/-- A phase notice that waits at a port goes ahead of every scheduled flit of the tick, in cycle 0 (R339). -/
def State.noticeFirst (s : State) (node : Nat) (o : Port) : State :=
  whenB (decide ((s.portNow node o).nextCycle = 0) && (s.winner node o 0).any (fun x => x.2.pkt.isPhase)) s (fun s => s.sendOne node o 0)

/-- SCHEDULED_TICK (R335): a port in a reserved tick of a running region sends what its pattern position names, once. A notice
that passes in cycle 0 leaves at most 7 (R339). -/
def execScheduledTick (node : NodeId) (p : Port) (s : State) : Out :=
  let n := node.toNat
  if !nodeValid n then .fault .noSuchNode
  else .next (withSome (if s.dieFencedB (nodeDie n) then none else s.schedAt n p) s (fun c s =>
    let s1 := (s.refill n (8 * s.tickOf (nodeDie n))).noticeFirst n p
    whenB (decide ((s1.portNow n p).nextCycle < 8)) s (fun _ => s1.runPattern c n p)))

/-! ### Phases -/

/-- A port begins a phase in the present tick, with start tick T_k (R339); phase 0 is a request's first. -/
def State.beginPhase (s : State) (node : Nat) (o : Port) (srid k t : Nat) : State :=
  let x := s.net.phases.get (node, o, srid)
  s.modNet (fun n => { n with
    phases := n.phases.set (node, o, srid) ⟨k, t, none⟩
    past := n.past.modify (node, o, srid) (fun l => if k = 0 then [] else l ++ [(x.phase, x.start, s.tickOf (nodeDie node))]) })

/-- PHASE_NOTICE_ARRIVE (R339): a port has a notice; it waits for T_k, or begins at once as if in T_k where it came late. -/
def execPhaseNoticeArrive (node : NodeId) (p : Port) (srid : Fin 16) (s : State) : Out :=
  let n := node.toNat
  let d := nodeDie n
  if !nodeValid n then .fault .noSuchNode
  else
    let x := s.net.phases.get (n, p, srid.val)
    .next (match x.noted with
      | some (k, t, true) =>
        if s.reached d t then
          (s.beginPhase n p srid k t).log d n ((s.findSched srid).map (·.part)) .schedLate 0 0
        else s.modNet (fun m => { m with phases := m.phases.set (n, p, srid.val) { x with noted := some (k, t, false) } })
      | _ => s)

/-- PHASE_BEGIN (R339): a port whose notice came in time begins the phase in T_k. -/
def execPhaseBegin (node : NodeId) (p : Port) (srid : Fin 16) (s : State) : Out :=
  let n := node.toNat
  if !nodeValid n then .fault .noSuchNode
  else .next (match (s.net.phases.get (n, p, srid.val)).noted with
    | some (k, t, false) => whenB (s.reached (nodeDie n) t) s (fun s => s.beginPhase n p srid k t)
    | _ => s)

/-- ALIGN of a region (R338). -/
def Sched.align (c : Sched) : Nat := if c.ports.any (fun q => decide (q.mask ≠ 0xFF)) then 8 else 1

/-- The first multiple of ALIGN at or after a tick (R338). -/
def Sched.alignUp (c : Sched) (t : Nat) : Nat := roundUp c.align t % 2 ^ 64

/-- Phase 0 begins at every port of an image (R338). -/
def State.startSched (s : State) (c : Sched) (req launch : Nat) : State :=
  let t0 := c.alignUp launch
  let s1 := s.modSched c.srid (fun c => { c with running := some req, phase := 0, phaseStart := t0, lateLogged := false })
  eachOf (c.ports.filterMap (fun q => (portOfNo q.port).map (fun o => (q.node, o)))) (fun x s =>
    s.beginPhase x.1 x.2 c.srid 0 t0) s1

/-- The smallest rectangle that holds every port of an image (R338). -/
def Sched.rect (c : Sched) : Nat × Nat × Nat × Nat :=
  c.ports.foldl (fun (r : Nat × Nat × Nat × Nat) q =>
    (min r.1 (nodeX q.node), max r.2.1 (nodeX q.node), min r.2.2.1 (nodeY q.node), max r.2.2.2 (nodeY q.node))) (7, 0, 5, 0)

/-- A generation of a counter has completed in the present tick (R338): where it is the barrier of the running phase's successor
and completes after that phase began, the Beacon unit multicasts the notice of the next phase. -/
def State.phaseNotices (s : State) (node ctr : Nat) : State :=
  let d := nodeDie node
  eachOf (s.net.scheds.filter (fun c => c.active && !c.broken && c.running.isSome)) (fun c s =>
    let k := c.phase + 1
    match c.phases[k]? with
    | none => s
    | some b =>
      if b.1 = node ∧ b.2.1 = ctr ∧ s.reached d c.phaseStart then
        let t := c.alignUp (s.tickOf d + b.2.2)
        let r := c.rect
        let s1 := s.modSched c.srid (fun c => { c with phase := k, phaseStart := t })
        let p : Packet :=
          { id := s.net.nextId, src := node, dst := .rect r.1 r.2.1 r.2.2.1 r.2.2.2 c.dieMask none, vc := 0, flits := 1
            part := some c.part, req := c.running, tickRel := true, srid := none, payload := .phase c.srid k t
            poison := false, start := 8 * s.tickOf d, first := 0, last := 1 }
        s1.modNet (fun n => { n with nextId := n.nextId + 1, inject := n.inject.modify node (p :: ·) })
      else s) s

/-! ### The schedule image (R343, R344) -/

/-- The head of an image: SRID, PART, DIE_MASK, phases as (BAR_NODE, BAR_CTR, LEAD), BLOCKS; none where its form is wrong. -/
def parseSchedHead (b : List Byte) : Option (Nat × Nat × Nat × List (Nat × Nat × Nat) × Nat) :=
  let n := byteAt b 3
  let ent (k : Nat) : Nat × Nat × Nat := (byteAt b (16 + 4 * k), byteAt b (17 + 4 * k), fieldLe b (18 + 4 * k) 2)
  let ok := decide (byteAt b 0 < 16) && decide (byteAt b 1 < 16) && decide (byteAt b 2 < 16)
    && decide (1 ≤ n) && decide (n ≤ 16) && decide (fieldLe b 8 8 = 0)
    && (List.range 16).all (fun k =>
      if k = 0 ∨ n ≤ k then decide (fieldLe b (16 + 4 * k) 4 = 0)
      else nodeValid (ent k).1 && decide ((ent k).2.1 < 16) && decide (1 ≤ (ent k).2.2))
  if ok then some (byteAt b 0, byteAt b 1, byteAt b 2, (List.range n).map ent, fieldLe b 4 4) else none

/-- Whether a router has an output of a port number. -/
def outputExists (node : Nat) : Nat → Bool
  | 0 => decide ((blockAt node).1 ≠ .routerOnly)
  | 5 => true
  | 6 => (slLink node).isSome
  | n => ((portOfNo n).bind (neighbour node)).isSome

/-- Whether a router has an input of a number (R334). -/
def inputExists (node : Nat) : Nat → Bool
  | 0 => decide ((blockAt node).1 ≠ .routerOnly)
  | n => decide (n ≤ 4) && ((portOfNo n).bind (neighbour node)).isSome

/-- A port block from its header and pattern bytes; none where its form is wrong (R344). -/
def parseBlock (hdr pat : List Byte) : Option SchedPort :=
  let node := byteAt hdr 0
  let period := byteAt hdr 3
  let pats := (pat.take period).map (·.toNat)
  if nodeValid node && decide (byteAt hdr 1 ≤ 6) && outputExists node (byteAt hdr 1) && decide (1 ≤ period) && decide (period ≤ 64)
      && decide (fieldLe hdr 5 3 = 0) && (pat.drop period).all (fun b => decide (b = 0))
      && pats.all (fun b => decide (bitsOf b 7 4 ≤ 8) && !bitOf b 3
        && inputExists node (bitsOf b 2 0)) then
    some ⟨node, byteAt hdr 1, byteAt hdr 2, byteAt hdr 4, pats⟩
  else none

/-- The port blocks of an image, read one after another by Steward (R344). The inner none is a malformed block. -/
def State.readBlocks (x : Accessor) : Nat → Nat → State → Except Code (Option (List SchedPort)) × State
  | 0, _, s => (.ok (some []), s)
  | n + 1, va, s =>
    match s.agReadClean x va 8 with
    | (.error c, s1) => (.error c, s1)
    | (.ok hdr, s1) =>
      let len := roundUp 8 (byteAt hdr 3)
      match s1.agReadClean x (va + 8) len with
      | (.error c, s2) => (.error c, s2)
      | (.ok pat, s2) =>
        match parseBlock hdr pat with
        | none => (.ok none, s2)
        | some q =>
          match State.readBlocks x n (va + 8 + len) s2 with
          | (.ok (some qs), s3) => (.ok (some (q :: qs)), s3)
          | r => r

/-- Whether the blocks of an image agree (R345 item 1). -/
def blocksAgree (c : Sched) : Bool :=
  let dup (l : List SchedPort) : Bool := (l.map (fun q => (q.node, q.port, q.phase))).eraseDups.length != l.length
  !dup c.ports
    && c.ports.all (fun q => decide (q.phase < c.phases.length)
      && c.ports.all (fun r => !(r.node == q.node && r.port == q.port) || r.mask == q.mask)
      && (decide (c.align = 1) || (List.range q.pattern.length).all (fun j =>
        decide (bitsOf (q.pattern.getD j 0) 7 4 = 0)
          || (List.range 8).all (fun m => bitOf q.mask ((j + m * q.pattern.length) % 8)))))

/-- Whether a port's node is enabled and in service; a router-only node forwards with its die (R345 item 2). -/
def State.nodeServes (s : State) (n : Nat) : Bool :=
  match unitAt n with
  | some u => s.unitUp (nodeDie n) u
  | none => s.dieUp (nodeDie n)

/-- Whether a port may carry a partition's schedule (R345 item 2). -/
def State.portInside (s : State) (c : Sched) (q : SchedPort) : Bool :=
  let d := nodeDie q.node
  let inside := match portOfNo q.port with
    | some .l | some .h => s.owns c.part q.node || sharedNode q.node
    | some .sx => (slLink q.node).any (fun x => bitOf c.dieMask x.1 && bitOf c.dieMask x.2)
    | some o =>
      s.interior c.part q.node o || ((dieNodes d).filter (fun n => s.inRegion c.part n)).any (fun e =>
        ((dieNodes d).filter sharedNode).any (fun n => [true, false].any (fun yx =>
          (routeHops yx 16 e n).contains (q.node, o) || (routeHops yx 16 n e).contains (q.node, o))))
    | none => false
  bitOf c.dieMask d && s.nodeServes q.node && inside

/-- Pattern bytes an image needs at a port. -/
def Sched.patternBytes (c : Sched) (node port : Nat) : Nat :=
  (c.ports.filter (fun q => q.node == node && q.port == port)).foldl (fun t q => t + q.pattern.length) 0

/-- Whether an image conflicts with what is installed (R345 item 3); an image that has passed and waits for its tick (R346) counts as
installed. -/
def State.schedConflict (s : State) (c : Sched) : Bool :=
  let s0 := s.modNet (fun n => { n with scheds := n.scheds.map (fun x => { x with active := true }) })
  let s1 := s0.modNet (fun n => { n with scheds := n.scheds ++ [{ c with active := true }] })
  let k : RegKey := ⟨.netShare, 0, 0, 0⟩
  c.ports.any (fun q => match portOfNo q.port with
      | some o => decide (s0.maskAt q.node o &&& q.mask ≠ 0)
      | none => true)
    || s1.sharesOver k (s.visWord k)
    || c.ports.any (fun q => decide (512 < s1.net.scheds.foldl (fun t x => t + x.patternBytes q.node q.port) 0))

/-- The checks of R345 on a schedule image of a partition, in order: the image, or the code of the first failure. An image for
another partition, or whose SRID is installed, has its field out of range (assumption log 8). -/
def State.checkSched (s : State) (x : Accessor) (va : Nat) : Except Code Sched × State :=
  match s.agReadClean x va 80 with
  | (.error c, s1) => (.error c, s1)
  | (.ok head, s1) =>
    match parseSchedHead head with
    | none => (.error .schedFormat, s1)
    | some (srid, part, mask, phases, blocks) =>
      if part ≠ x.part ∨ (s1.findSched srid).isSome ∨ 21504 < blocks then (.error .schedFormat, s1)
      else
        match s1.readBlocks x blocks (va + 80) with
        | (.error c, s2) => (.error c, s2)
        | (.ok none, s2) => (.error .schedFormat, s2)
        | (.ok (some qs), s2) =>
          let c : Sched :=
            { srid := srid, part := part, dieMask := mask, phases := phases, ports := qs, active := false, broken := false
              running := none, phase := 0, phaseStart := s2.tickOf (nodeDie x.node), late := 0, lateLogged := false
              removal := false, removing := none }
          if !blocksAgree c || (phases.drop 1).any (fun b => !s2.owns part b.1) then (.error .schedFormat, s2)
          else if !c.ports.all (s2.portInside c) then (.error .schedOutside, s2)
          else if s2.schedConflict c then (.error .schedConflict, s2)
          else (.ok c, s2)

end Sys2Proof.Machine
end

