-- ==== Sys2Proof/Machine/Cores.lean ====
section
/-! DEFINITION. Cluster cores (R171 to R200): issue of Beacon-class operations and commands, waits, fences, memory accesses and
their service at a home, and answers. A core performs its instructions one at a time and in order (assumption log 10). -/

namespace Sys2Proof.Machine

/-! ### Who runs -/

/-- The request a core runs, where the request is under way. -/
def State.runsReq (s : State) (c : Nat) : Option Request :=
  match (s.comp.cores.get c).req.bind s.findReq with
  | some r => if decide (r.step = .run) && !r.halted then some r else none
  | none => none

/-- The request a core runs, where nothing holds its next instruction. -/
def State.coreReq (s : State) (c : Nat) : Option Request :=
  if (s.comp.cores.get c).wait = .none then s.runsReq c else none

/-- Registers whose values are still due, from loads and an operation under way. -/
def Core.busy (k : Core) : List Nat :=
  k.loads.map (·.rd) ++ (match k.wait with
    | .op _ rd _ _ => [rd]
    | .watch _ _ _ _ rd _ _ _ _ _ _ => [rd]
    | _ => [])

/-- Whether an instruction may use registers: none of their values is still due. -/
def Core.ready (k : Core) (rs : List RegNo) : Bool := rs.all (fun r => decide (r = 0) || !k.busy.contains r.val)

/-- The interrupt a core takes next, where one is pending and enabled: external, software, timer, then the others. -/
def Core.irq (k : Core) : Option Nat :=
  if decide (k.mode = .u) || bitOf k.mstatus.toNat 3 then
    ([11, 3, 7] ++ List.range 64).find? (fun i => bitOf k.mip.toNat i && bitOf k.mie.toNat i)
  else none

/-- The request of a core that may perform an instruction with some registers now. -/
def State.issues (s : State) (c : Nat) (rs : List RegNo) : Option Request :=
  (s.coreReq c).filter (fun _ => (s.comp.cores.get c).irq.isNone && (s.comp.cores.get c).ready rs)

/-- An instruction is performed where the core may perform one; an interrupt that is due goes before it. -/
def State.onCore (s : State) (c : Nat) (may : Option Request) (f : Core → Request → State → State) : State :=
  let k := s.comp.cores.get c
  match (s.coreReq c).bind (fun _ => k.irq) with
  | some i => s.modCore c (·.enterIrq i)
  | none => withSome may s (fun r s => f k r s)

/-- An instruction that nothing earlier of the core may hold back. -/
def State.withCore (s : State) (c : Nat) (rs : List RegNo) (f : Core → Request → State → State) : State := s.onCore c (s.issues c rs) f

/-- The core writes rd and goes on past an instruction of `len` bytes. -/
def State.goOn (s : State) (c rd : Nat) (v : Word) (len : Nat) : State := s.modCore c (fun k => (k.setReg rd v).advance len)

/-- The core writes rd, waits no longer, and goes on. -/
def State.retire (s : State) (c rd : Nat) (v : Word) : State :=
  s.modCore c (fun k => ({ (k.setReg rd v) with wait := .none }).advance 4)

/-- Whether every earlier ordinary access of a core has been performed (R200). -/
def Core.quiet (k : Core) : Bool := decide (k.stores = 0) && k.loads.all (fun l => decide (l.op = .fetch))

/-! ### Issue of Beacon-class operations (R181 to R187) -/

/-- Whether a node may be the target of a Beacon-class operation of a partition (R180): valid, inside its regions. -/
def State.beaconNode (s : State) (p n : Nat) : Bool := nodeValid n && s.owns p n

/-- An access or operation of a core that awaits its answer (R316). -/
def State.await (s : State) (c tag dst cause : Nat) (tval : Word) : State :=
  let d := nodeDie (coreNode c)
  s.modNet (fun n => { n with waiting := n.waiting ++
    [⟨tag, .core c, (s.comp.cores.get c).req, dst, s.tickOf d, cause, tval⟩] })

/-- A core sends an operation to its home and waits as `w` says, given the operation's tag. Without aq it goes on to later ordinary
accesses (R200). -/
def State.issueOp (s : State) (c : Nat) (r : Request) (node : Nat) (op : BOp) (tval : Word) (aq : Bool) (w : Nat → CoreWait) : State :=
  let tag := s.net.nextId
  let s1 := s.send (coreNode c) (.node node) 0 1 (some r.part) (some r.id) (.beacon op (.core c) tag)
  (s1.await c tag node 7 tval).modCore c (fun k => if aq then { k with wait := w tag } else ({ k with wait := w tag }).advance 4)

/-- An operation whose answer goes to rd. -/
def State.valueOp (s : State) (c : Nat) (r : Request) (node : Nat) (op : BOp) (tval : Word) (rd : Nat) (aq : Bool) : State :=
  let pc := (s.comp.cores.get c).pc
  s.issueOp c r node op tval aq (fun t => .op t rd aq pc)

/-- An operation on a flag cell whose answer goes to rd. -/
def State.flagOp (s : State) (c : Nat) (rd rs1 : RegNo) (rs : List RegNo) (aq rl : Bool) (op : Core → Nat → BOp) : State :=
  s.withCore c (rd :: rs1 :: rs) (fun k r s =>
    let v := k.reg rs1
    match flagOperand v.toNat with
    | some (n, cell) =>
      if !s.beaconNode r.part n then s.coreTrap c 24 v
      else if rl && !k.quiet then s
      else s.valueOp c r n (op k cell) v rd.val aq
    | none => s.coreTrap c 24 v)

/-- BF.GET (R182). -/
def execBfGet (core : CoreId) (rd rs1 : RegNo) (aq : Bool) (s : State) : Out :=
  .next (s.flagOp core rd rs1 [] aq false (fun _ cell => .get cell))

/-- BF.SET (R182): with rl, after every earlier access is performed (R200). -/
def execBfSet (core : CoreId) (rd rs1 rs2 : RegNo) (aq rl : Bool) (s : State) : Out :=
  .next (s.flagOp core rd rs1 [rs2] aq rl (fun k cell => .set cell (low32 (k.reg rs2))))

/-- A wait on a cell or counter is placed at its home (R182, R184, R187), for a wait that was issued in tick `t`. -/
def State.placeWait (s : State) (c : Nat) (r : Request) (node cell : Nat) (bar : Bool) (cond : WaitCond) (rd : Nat) (v : Word) (t : Nat)
    (aq : Bool) (pc : Word) : State :=
  s.issueOp c r node (if bar then .barWait cell (match cond with | .gen g => g | _ => 0) else .wait cell cond) v true
    (fun tag => .watch node cell bar cond rd v t tag none aq pc)

/-- A wait begins. Without aq, later loads begin before it completes (R200), and the core keeps its registers as they stand at the wait. -/
def State.beginWait (s : State) (c : Nat) (r : Request) (node cell : Nat) (bar : Bool) (cond : WaitCond) (rd : Nat) (v : Word)
    (aq : Bool) : State :=
  let k := s.comp.cores.get c
  if !aq && !k.loads.isEmpty then s
  else
    let s1 := s.placeWait c r node cell bar cond rd v (s.tickOf (nodeDie (coreNode c))) aq k.pc
    if aq then s1 else s1.modCore c (fun k => ({ k with ckpt := k.x }).advance 4)

/-- A wait on a flag cell. -/
def State.flagWait (s : State) (c : Nat) (rd rs1 rs2 : RegNo) (aq : Bool) (cond : Core → WaitCond) : State :=
  s.withCore c [rd, rs1, rs2] (fun k r s =>
    let v := k.reg rs1
    match flagOperand v.toNat with
    | some (n, cell) =>
      if s.beaconNode r.part n then s.beginWait c r n cell false (cond k) rd.val v aq else s.coreTrap c 24 v
    | none => s.coreTrap c 24 v)

/-- BF.WAIT.EQ (R182). -/
def execBfWaitEq (core : CoreId) (rd rs1 rs2 : RegNo) (aq : Bool) (s : State) : Out :=
  .next (s.flagWait core rd rs1 rs2 aq (fun k => .eq (low32 (k.reg rs2))))

/-- BF.WAIT.NE (R182). -/
def execBfWaitNe (core : CoreId) (rd rs1 rs2 : RegNo) (aq : Bool) (s : State) : Out :=
  .next (s.flagWait core rd rs1 rs2 aq (fun k => .ne (low32 (k.reg rs2))))

/-- BF.WAIT.GEU (R182). -/
def execBfWaitGeu (core : CoreId) (rd rs1 rs2 : RegNo) (aq : Bool) (s : State) : Out :=
  .next (s.flagWait core rd rs1 rs2 aq (fun k => .geu (low32 (k.reg rs2))))

/-- BAR.ARRIVE (R186): always as if rl were set (R200); a count of 0 traps. -/
def execBarArrive (core : CoreId) (rd rs1 rs2 : RegNo) (s : State) : Out :=
  .next (s.withCore core [rd, rs1, rs2] (fun k r s =>
    let v := k.reg rs1
    match barrierOperand v.toNat, countOperand (k.reg rs2).toNat with
    | some (n, ctr), some count =>
      if !s.beaconNode r.part n then s.coreTrap core 24 v
      else if count = 0 then s.coreTrap core 26 v
      else if !k.quiet then s
      else s.valueOp core r n (.arrive ctr count) v rd.val false
    | _, _ => s.coreTrap core 24 v))

/-- BAR.WAIT (R187): always as if aq were set (R200). -/
def execBarWait (core : CoreId) (rd rs1 rs2 : RegNo) (s : State) : Out :=
  .next (s.withCore core [rd, rs1, rs2] (fun k r s =>
    let v := k.reg rs1
    match barrierOperand v.toNat with
    | some (n, ctr) =>
      if s.beaconNode r.part n then
        s.beginWait core r n ctr true (.gen (BitVec.ofNat 16 (k.reg rs2).toNat)) rd.val v true
      else s.coreTrap core 24 v
    | none => s.coreTrap core 24 v))

/-- An operation on a lock, at the CTL-N of its die (R204). -/
def State.lockOp (s : State) (c : Nat) (rd rs1 : RegNo) (rs : List RegNo) (aq rl : Bool) (op : Core → Nat → BOp) : State :=
  s.withCore c (rd :: rs1 :: rs) (fun k r s =>
    let v := k.reg rs1
    match lockOperand v.toNat with
    | some (d, i) => if rl && !k.quiet then s else s.valueOp c r (ctlNode d) (op k i) v rd.val aq
    | none => s.coreTrap c 24 v)

/-- LK.ACQ (R207): as if aq were set (R200), since what it returns is not known before. -/
def execLkAcq (core : CoreId) (rd rs1 : RegNo) (s : State) : Out := .next (s.lockOp core rd rs1 [] true false (fun _ i => .lkAcq i))

/-- LK.REL (R209): always as if rl were set (R200). -/
def execLkRel (core : CoreId) (rd rs1 rs2 : RegNo) (s : State) : Out :=
  .next (s.lockOp core rd rs1 [rs2] false true (fun k i => .lkRel i (low32 (k.reg rs2))))

/-- LK.INFO (R209). -/
def execLkInfo (core : CoreId) (rd rs1 : RegNo) (s : State) : Out := .next (s.lockOp core rd rs1 [] false false (fun _ i => .lkInfo i))

/-! ### Waits (R183, R184) -/

/-- WAIT_POLL (R183): once in a tick, a core whose wait was answered NOWATCH asks the home again, under a new tag. -/
def execWaitPoll (core : CoreId) (s : State) : Out :=
  let k := s.comp.cores.get core.val
  .next (match k.wait, k.req.bind s.findReq with
    | .watch node cell bar cond rd v t _ (some last) aq pc, some r =>
      whenB (decide (last ≠ s.tickOf (nodeDie (coreNode core)))) s (fun s => s.placeWait core r node cell bar cond rd v t aq pc)
    | _, _ => s)

/-- A wait ends without an answer (R184): a cancel goes to the home, and the core stands at the wait again. -/
def State.leaveWait (s : State) (c tag : Nat) : State := (s.cancelWait c).modCore c (·.rewind tag)

/-- WAIT_TIMEOUT (R184): LIMIT ticks after the tick in which the wait was issued the core traps; or it takes an interrupt, which its mode
and mstatus must allow, and mepc holds the wait's address. -/
def execWaitTimeout (core : WaitEnd) (s : State) : Out :=
  let irq := core.irq
  let core := core.core
  let k := s.comp.cores.get core.val
  .next (match k.wait, irq with
    | .watch _ _ _ _ _ v t tag _ _ _, none =>
      whenB (decide (k.zwaitlim ≠ 0) && decide (k.zwaitlim.toNat ≤ s.since (nodeDie (coreNode core)) t)) s
        (fun s => (s.leaveWait core tag).coreTrap core 25 v)
    | .watch _ _ _ _ _ _ _ tag _ _ _, some i =>
      whenB (decide (k.mode = .u) || bitOf k.mstatus.toNat 3) s
        (fun s => (s.leaveWait core tag).modCore core (·.enterIrq i.val))
    | _, _ => s)

/-! ### Answers -/

/-- A core's operation is answered with a value: it goes on past the operation, where it has not yet. -/
def State.finishOp (s : State) (c rd : Nat) (v : Word) (aq : Bool) : State :=
  if aq then s.retire c rd v else s.modCore c (fun k => { (k.setReg rd v) with wait := .none })

/-- An answer to a core's operation (R181): one whose tag the core no longer awaits is discarded (R184). -/
def State.coreAnswer (s : State) (c tag : Nat) (a : BAns) : State :=
  let k := s.comp.cores.get c
  let mine := match k.wait with
    | .op t rd aq _ => if t = tag then some (rd, aq) else none
    | .watch _ _ _ _ rd _ _ t _ aq _ => if t = tag then some (rd, aq) else none
    | _ => none
  let ent := s.net.waiting.find? (fun w => w.tag == tag)
  let s1 := s.modNet (fun n => { n with waiting := n.waiting.filter (fun w => !(w.tag == tag)) })
  let back := s1.modCore c (·.rewind tag)
  match mine, ent with
  | some (rd, aq), some w =>
    (match a with
     | .value v => s1.finishOp c rd v aq
     | .noWatch => s1.modCore c (fun k => match k.wait with
        | .watch n cl b cd rd v i t _ aq pc => { k with wait := .watch n cl b cd rd v i t (some w.issued) aq pc }
        | _ => k)
     | .barrierTrap => back.coreTrap c 26 w.tval
     | .targetTrap => back.coreTrap c 24 w.tval
     | .poison => back.coreFault c 7 w.tval .memPoison
     | .fenced => back.coreTrap c 7 w.tval)
  | _, _ => s1

/-! ### Fences and TICK (R194 to R197) -/

/-- ZT.TICK (R194). -/
def execZtTick (core : CoreId) (rd : RegNo) (s : State) : Out :=
  .next (s.withCore core [rd] (fun _ _ s => s.retire core rd.val (s.sys.clk.get (nodeDie (coreNode core))).tick))

/-- Whether a command of a core is still on its way to its target. -/
def State.cmdUnderWay (s : State) (c : Nat) : Bool :=
  s.allPackets.any (fun p => match p.payload with
    | .cmd _ x => x.core == c
    | _ => false)

/-- ZF.ALL (R195): it completes once every earlier access, operation, issue and host-bound store is performed. -/
def execZfAll (core : CoreId) (s : State) : Out :=
  .next (s.withCore core [] (fun k _ s =>
    if k.quiet ∧ k.hostStores = 0 ∧ !s.cmdUnderWay core then s.retire core 0 0 else s))

/-- ZF.CMD (R196): it completes once every command the core issued has ended. -/
def execZfCmd (core : CoreId) (s : State) : Out :=
  .next (s.withCore core [] (fun k _ s => if k.cmds = 0 then s.retire core 0 0 else s))

/-- ZF.HOST (R197): it completes once every earlier host-bound store is accepted by its port. -/
def execZfHost (core : CoreId) (s : State) : Out :=
  .next (s.withCore core [] (fun k _ s => if k.hostStores = 0 then s.retire core 0 0 else s))

/-! ### Command issue (R189 to R193) -/

/-- The block kind of a command's target (R180). -/
def CmdKind.block : CmdKind → BlockKind
  | .te => .te
  | .sua => .sc
  | .rlu => .ms
  | .copy => .ms
  | .steer => .sp

/-- Why an issue traps (R180, R190, R191), lowest mcause first; none where it may go. -/
def State.issueTrap (s : State) (r : Request) (kind : CmdKind) (tgt va : Nat) : Option Nat :=
  match targetOperand tgt with
  | none => some 24
  | some (n, notify) =>
    let inside := decide (kind = .steer) || s.owns r.part n
    let flagOk := match notify with
      | none => true
      | some f => s.beaconNode r.part (bitsOf f 13 6)
    if !nodeValid n || !inside || decide ((blockAt n).1 ≠ kind.block) || !s.blockUp n || !flagOk || (recordOperand va).isNone then
      some 24
    else if va % 64 ≠ 0 then some 27
    else if decide (kind = .sua) && (decide (va ≠ r.sprVa)
        || !(s.comp.models.any (fun m => m.part == r.part && m.id == r.model && m.sites.any (fun t => some t.sc == scAt n)))) then
      some 28
    else none

/-- A posted command leaves the core (R189): after every earlier store is performed, a host-bound one by its port (R197), and while the core
holds fewer than 8 (R192); its target answers that it has been taken (R293, R316). `done` is what the core does then. -/
def State.issueCmd (s : State) (c : Nat) (rs : List RegNo) (kind : CmdKind) (tgt va : Word) (done : State → State) : State :=
  s.withCore c rs (fun k r s =>
    match s.issueTrap r kind tgt.toNat va.toNat with
    | some m => s.coreTrap c m tgt
    | none =>
      if 8 ≤ k.cmds ∨ k.stores ≠ 0 ∨ k.hostStores ≠ 0 then s
      else
        let (n, notify) := (targetOperand tgt.toNat).getD (0, none)
        let x : CmdRef := ⟨c, r.id, va.toNat, notify, false⟩
        let tag := s.net.nextId
        let s1 := s.send (coreNode c) (.node n) 1 1 (some r.part) (some r.id) (.cmd kind x)
        let s2 := s1.modNet (fun m => { m with waiting := m.waiting ++
          [⟨tag, .notify c r.id, some r.id, n, s.tickOf (nodeDie (coreNode c)), 7, tgt⟩] })
        done (s2.modCore c (fun k => { k with cmds := k.cmds + 1 })))

/-- CMD.TE (R189). -/
def execCmdTe (core : CoreId) (rs1 rs2 : RegNo) (s : State) : Out :=
  let k := s.comp.cores.get core.val
  .next (s.issueCmd core [rs1, rs2] .te (k.reg rs1) (k.reg rs2) (fun s => s.retire core 0 0))

/-- CMD.SUA (R191). -/
def execCmdSua (core : CoreId) (rs1 rs2 : RegNo) (s : State) : Out :=
  let k := s.comp.cores.get core.val
  .next (s.issueCmd core [rs1, rs2] .sua (k.reg rs1) (k.reg rs2) (fun s => s.retire core 0 0))

/-- CMD.RLU (R189). -/
def execCmdRlu (core : CoreId) (rs1 rs2 : RegNo) (s : State) : Out :=
  let k := s.comp.cores.get core.val
  .next (s.issueCmd core [rs1, rs2] .rlu (k.reg rs1) (k.reg rs2) (fun s => s.retire core 0 0))

/-- An ECALL that posts a command (R281, R433): a7 selects it, a0 is the target and a1 the record; a0 becomes 0. -/
def State.ecallCmd (s : State) (c : Nat) (code : Word) (kind : CmdKind) : State :=
  let k := s.comp.cores.get c
  if k.ready [17] ∧ k.reg 17 = code then s.issueCmd c [10, 11, 17] kind (k.reg 10) (k.reg 11) (fun s => s.retire c 10 0) else s

/-- COPY_ECALL (R281). -/
def execCopyEcall (core : CoreId) (s : State) : Out := .next (s.ecallCmd core 0x0100 .copy)

/-- STEER_ECALL (R433). -/
def execSteerEcall (core : CoreId) (s : State) : Out := .next (s.ecallCmd core 0x0101 .steer)

/-- A command no longer counts at its core (R192), while the core still runs the request that issued it. -/
def State.cmdOver (s : State) (x : CmdRef) : State :=
  s.modCore x.core (fun k => if k.req = some x.req then { k with cmds := k.cmds - 1 } else k)

/-- A command ends at its target (R190, R192): its notify increment is sent, or it no longer counts at its core. -/
def State.endCmd (s : State) (node : Nat) (x : CmdRef) : State :=
  match x.notify with
  | some f =>
    let tag := s.net.nextId
    let part := (s.findReq x.req).map (·.part)
    let s1 := s.send node (.node (bitsOf f 13 6)) 0 1 part (some x.req) (.beacon (.notify (bitsOf f 5 0)) (.notify x.core x.req) tag)
    s1.modNet (fun n => { n with waiting := n.waiting ++
      [⟨tag, .notify x.core x.req, some x.req, bitsOf f 13 6, s.tickOf (nodeDie node), 7, 0⟩] })
  | none => s.cmdOver x

/-- The answer to a command's notify increment (R190, R315): the command has ended, or ends its request with MEM_POISON. -/
def State.notifyAnswer (s : State) (core req tag : Nat) (a : BAns) : State :=
  let s1 := s.modNet (fun n => { n with waiting := n.waiting.filter (fun w => !(w.tag == tag)) })
  let s2 := s1.modCore core (fun k => if k.req = some req then { k with cmds := k.cmds - 1 } else k)
  match a with
  | .poison => s2.endReq req .memPoison 0 0
  | .fenced => s2.endReq req .netDestFenced 0 0
  | _ => s2

/-- A target that cannot read a command's record (R193): the code is logged with the record VA, the request ends with it, and the
notify increment follows. -/
def State.cmdUnreadable (s : State) (node : Nat) (x : CmdRef) (c : Code) : State :=
  let s1 := if c = .memPoison then s.log (nodeDie node) node ((s.findReq x.req).map (·.part)) c x.va 0 else s
  (s1.endReq x.req c (BitVec.ofNat 64 x.va) node).endCmd node x

/-- A status record is written and the command ends (R190, R193): a misaligned STATUS_VA counts as `fmt`, and it or a failed
write ends the request with its code. -/
def State.writeStatus (s : State) (acc : Accessor) (x : CmdRef) (va : Nat) (bs : List Byte) (fmt : Code) : State :=
  if va % 16 ≠ 0 then
    ((s.log (nodeDie acc.node) acc.node (some acc.part) fmt va 0).endReq x.req fmt 0 0).endCmd acc.node x
  else match s.agWriteCode acc va bs with
    | (some c, s1) => (s1.endReq x.req c (BitVec.ofNat 64 va) acc.node).endCmd acc.node x
    | (none, s1) => s1.endCmd acc.node x

/-! ### Memory accesses (R173, R174, R177) -/

/-- mcause of an access fault, and of a page fault, of an access. -/
def accessCauses : MemOp → Nat × Nat
  | .fetch => (1, 12)
  | .load | .lr => (5, 13)
  | _ => (7, 15)

/-- The kind of access the Gatehouse checks (R232). -/
def accessKind : MemOp → AccKind
  | .fetch => .fetch
  | .load | .lr => .read
  | .store | .sc => .write
  | _ => .amo

/-- Whether an access is performed atomically at its home (R174). -/
def accessAtomic : MemOp → Bool
  | .fetch | .load | .store | .fence => false
  | _ => true

/-- The value of the low bytes of a datum, sign- or zero-extended to 64 bits. -/
def extendTo (log2 : Nat) (signed : Bool) (v : Nat) : Word :=
  let w := 8 * 2 ^ log2
  if signed then BitVec.ofInt 64 (sInt w v) else BitVec.ofNat 64 (v % 2 ^ w)

/-- The value an AMO writes. -/
def amoResult (op : MemOp) (log2 old new : Nat) : Nat :=
  let w := 8 * 2 ^ log2
  let m := 2 ^ w
  let a := old % m
  let b := new % m
  match op with
  | .amoswap => b
  | .amoadd => (a + b) % m
  | .amoxor => a ^^^ b
  | .amoand => a &&& b
  | .amoor => a ||| b
  | .amomin => if sInt w a ≤ sInt w b then a else b
  | .amomax => if sInt w a ≤ sInt w b then b else a
  | .amominu => min a b
  | .amomaxu => max a b
  | _ => b

/-! ### Parcels and caches (R176, R177) -/

/-- The parcels fetched at the present pc. -/
def Core.parcels (k : Core) : List Byte :=
  match k.fetched with
  | some (a, bs) => if a = k.pc then bs else []
  | none => []

/-- Whether parcels hold a whole instruction: a compressed one, or one of 32 bits. -/
def wholeInstr (bs : List Byte) : Bool := decide (4 ≤ bs.length) || (decide (bs.length = 2) && decide (leVal bs % 4 ≠ 3))

/-- The parcels that a fetch takes from a line at an offset (R171): the second of an instruction alone where the first has been fetched;
else the first, and with it the second of a 32-bit instruction where it lies in the same line. -/
def takeParcels (line : List Byte) (off : Nat) (second : Bool) : List Byte :=
  let first := (line.drop off).take 2
  if second || decide (leVal first % 4 ≠ 3) || decide (64 < off + 4) then first else (line.drop off).take 4

/-- A line enters a cache of 128 sets of 4 ways; where its set is full, the manual does not say which line leaves: a free choice. -/
def fillCache (l : List CacheLine) (x : CacheLine) (pick : Nat) : List CacheLine :=
  let set (y : CacheLine) : Bool := y.addr / 64 % 128 == x.addr / 64 % 128
  let rest := l.filter (fun y => !(y.addr == x.addr))
  let full := rest.filter set
  (match (if full.length < 4 then none else full[pick % 4]?) with
   | some y => rest.erase y
   | none => rest) ++ [x]

/-- A line enters the I-cache of a core. -/
def State.fillI (s : State) (c : Nat) (x : CacheLine) : State :=
  let (n, s1) := s.takeFree
  s1.modCore c (fun k => { k with icache := fillCache k.icache x (Config.freePick n) })

/-- A line enters the D-cache of a core. -/
def State.fillD (s : State) (c : Nat) (x : CacheLine) : State :=
  let (n, s1) := s.takeFree
  s1.modCore c (fun k => { k with dcache := fillCache k.dcache x (Config.freePick n) })

/-- A core takes parcels that its I-cache or its memory holds. -/
def Core.takeLine (k : Core) (line : List Byte) (off : Nat) : Core :=
  let had := k.parcels
  { k with fetched := some (k.pc, had ++ takeParcels line off (!had.isEmpty)) }

/-- The line at a store address is read for a core: its bytes, whether a word of the `n` bytes at the address is bad, and whether no word of
the line is (R505, R506, R514). -/
def State.readCacheLine (s : State) (part : Option Nat) (a n : Nat) : CacheLine × Bool × Bool × State :=
  let base := a / 64 * 64
  let x := s.readMem part base 64
  (⟨base, x.1.bytes, false⟩, (wordsOf a n).any (fun w => s.mem.mem.bad w), x.1.poison, x.2)

/-! ### Accesses at their home -/

/-- A core's access is performed at its home (R174, R503 to R506, R514): the datum, or poison. A fetch reads the line. -/
def State.performMem (s : State) (part : Option Nat) (r : MemReq) (core : Nat) : MemAns × State :=
  let n := 2 ^ r.log2
  let line := normAddr r.dpa / 64
  let clearResv (s : State) : State := s.modCore core (fun k => { k with resv := none })
  let wr (s : State) (bs : Nat) (v : Word) : MemAns × State :=
    let w := s.writeMem part r.dpa (leBytes n bs)
    (if w.1 then .poison else .value v, w.2)
  match r.op with
  | .fence => (.value 0, s)
  | .fetch =>
    let bytes := s.mem.mem.bytes (r.dpa / 64 * 64) 64
    let x := s.readCacheLine part r.dpa (takeParcels bytes (r.dpa % 64) (decide (r.log2 = 1))).length
    (if x.2.1 then .poison else .line x.1.addr x.1.bytes (!x.2.2.1), x.2.2.2)
  | .load | .lr =>
    let x := s.readMem part r.dpa n
    let s1 := if decide (r.op = .lr) && !x.1.poison then x.2.modCore core (fun k => { k with resv := some line }) else x.2
    (if x.1.poison then .poison else .value (extendTo r.log2 r.signed (leVal x.1.bytes)), s1)
  | .store => wr s r.data.toNat 0
  | .sc =>
    if (s.comp.cores.get core).resv = some line then wr (clearResv s) r.data.toNat 0
    else (.value 1, clearResv s)
  | op =>
    let x := s.readMem part r.dpa n
    if x.1.poison then (.poison, x.2)
    else
      let old := leVal x.1.bytes
      wr x.2 (amoResult op r.log2 old r.data.toNat) (extendTo r.log2 true old)

/-- A failed access of a core: poison ends its request with MEM_POISON (R514), another code with the trap (R180). -/
def State.memFault (s : State) (c : Nat) (op : MemOp) (va : Word) (a : MemAns) : State :=
  match a with
  | .value _ => s
  | .line .. => s
  | .poison => s.coreFault c (accessCauses op).1 va .memPoison
  | .fault _ => s.coreTrap c (accessCauses op).1 va

/-- The answer to a posted store: it only ends its wait. -/
def State.storeAnswer (s : State) (c : Nat) (w : AwaitEnt) (a : MemAns) : State :=
  let host := decide ((blockAt w.dst).1 = .hp)
  let s1 := s.modCore c (fun k =>
    if host then { k with hostStores := k.hostStores - 1 } else { k with stores := k.stores - 1 })
  s1.memFault c .store w.tval a

/-- The answer to a load or a fetch under way: rd is written, or the parcels and the line are taken. -/
def State.loadAnswer (s : State) (c : Nat) (l : PendLoad) (a : MemAns) : State :=
  let done (s : State) : State := s.modCore c (fun k => { k with loads := k.loads.filter (fun y => !(y.tag == l.tag)) })
  match a with
  | .value v =>
    let s1 := done s
    if l.op = .fetch then s1.modCore c (fun k => k.takeLine (zeros (l.va.toNat % 64) ++ leBytes 4 v.toNat) (l.va.toNat % 64))
    else s1.modCore c (fun k => k.setReg l.rd (extendTo l.log2 l.signed v.toNat))
  | .line _ bs _ => (done s).modCore c (fun k => k.takeLine bs (l.va.toNat % 64))
  | x => (s.modCore c (·.rewind l.tag)).memFault c l.op l.va x

/-- An answer reaches the core that awaits it (R316). A line without an error enters the I-cache, unless a later request has begun. -/
def State.memAnswer (s : State) (c tag : Nat) (a : MemAns) : State :=
  match s.net.waiting.find? (fun w => w.tag == tag) with
  | none => s
  | some w =>
    let s1 := s.modNet (fun n => { n with waiting := n.waiting.filter (fun x => !(x.tag == tag)) })
    let s2 := match a with
      | .line base bs true => s1.fillI c ⟨base, bs, false⟩
      | _ => s1
    let k := s.comp.cores.get c
    match k.loads.find? (fun l => l.tag == tag), k.wait with
    | some l, _ => s2.loadAnswer c l a
    | none, .mem t rd log2 signed va op =>
      if t = tag then
        (match a with
         | .value v => s2.retire c rd (if op = .sc then v else extendTo log2 signed v.toNat)
         | x => s2.memFault c op va x)
      else if w.cause = 7 then s2.storeAnswer c w a else s2
    | none, _ => if w.cause = 7 then s2.storeAnswer c w a else s2

/-! ### Accesses of a core -/

/-- What an access instruction is to the pipeline: its length, and the pc it stands at. -/
structure AccInfo where
  rd : Nat
  len : Nat
deriving DecidableEq, Repr

/-- A cached line with a parity error is invalidated, to be fetched again, and counted as a corrected error of the SC (R502). -/
def State.dropBadLines (s : State) (c base : Nat) : State :=
  let k := s.comp.cores.get c
  let bad (l : CacheLine) : Bool := l.addr == base && l.bad
  whenB (k.icache.any bad || k.dcache.any bad) s (fun s =>
    (s.countCe none (cmemAddr (c / 8) 0)).modCore c (fun k => { k with icache := k.icache.filter (fun l => !bad l), dcache := k.dcache.filter (fun l => !bad l) }))

/-- An access to the core's own CMEM (R177): a load that hits the D-cache, and a fetch that hits the I-cache, go to no bank; any other asks
its banks (R299), and a load then brings its line. -/
def State.ownAccess (s : State) (c : Nat) (r : Request) (m : MemReq) (i : AccInfo) : State :=
  let k := s.comp.cores.get c
  let sc := c / 8
  let off := match placeOf m.dpa with | .cmem _ o => o | _ => 0
  let base := m.dpa / 64 * 64
  let asked (bs : List Nat) (f : State → State) : State :=
    let g := s.askBanks sc (c % 8) k.pc.toNat bs
    if g.1 then f g.2 else g.2
  match m.op with
  | .load =>
    match k.dcache.find? (fun l => l.addr == base) with
    | some l => s.goOn c i.rd (extendTo m.log2 m.signed (leVal ((l.bytes.drop (m.dpa % 64)).take (2 ^ m.log2)))) i.len
    | none => asked (cmemBanks (off / 64 * 64) 64) (fun s =>
        let x := s.readCacheLine (some r.part) m.dpa (2 ^ m.log2)
        if x.2.1 then x.2.2.2.memFault c m.op m.va .poison
        else
          let v := extendTo m.log2 m.signed (leVal ((x.1.bytes.drop (m.dpa % 64)).take (2 ^ m.log2)))
          (if x.2.2.1 then x.2.2.2 else x.2.2.2.fillD c x.1).goOn c i.rd v i.len)
  | .fetch => asked (cmemBanks (off / 64 * 64) 64) (fun s =>
      match s.performMem (some r.part) m c with
      | (.line _ bs clean, s1) => (if clean then s1.fillI c ⟨base, bs, false⟩ else s1).modCore c (fun k => k.takeLine bs (m.dpa % 64))
      | (a, s1) => s1.memFault c m.op m.va a)
  | _ => asked (cmemBanks off (2 ^ m.log2)) (fun s =>
      match s.performMem (some r.part) m c with
      | (.value v, s1) => s1.goOn c (if m.op = .store then 0 else i.rd) v i.len
      | (a, s1) => s1.memFault c m.op m.va a)

/-- An access that leaves the core (R177): it is sent on VC1; a store is posted, a load and a fetch are answered later while the core goes
on, and an LR, SC or AMO holds the core. -/
def State.sendAccess (s : State) (c : Nat) (r : Request) (node : Nat) (m : MemReq) (i : AccInfo) : State :=
  let tag := s.net.nextId
  let pc := (s.comp.cores.get c).pc
  let s1 := (s.send (coreNode c) (.node node) 1 1 (some r.part) (some r.id) (.mem m c tag)).await c tag node (accessCauses m.op).1 m.va
  let pend (k : Core) : Core := { k with loads := k.loads ++ [⟨tag, i.rd, m.log2, m.signed, m.va, m.op, pc⟩] }
  match m.op with
  | .store => s1.modCore c (fun k =>
      (if m.host.isSome then { k with hostStores := k.hostStores + 1 } else { k with stores := k.stores + 1 }).advance i.len)
  | .load => s1.modCore c (fun k => (pend k).advance i.len)
  | .fetch => s1.modCore c pend
  | op => s1.modCore c (fun k => { k with wait := .mem tag i.rd m.log2 m.signed m.va op })

/-- An access that passed the Gatehouse (R176, R177). -/
def State.coreGo (s0 : State) (c : Nat) (r : Request) (m : MemReq) (i : AccInfo) (t : Target) : State :=
  let s := match t with
    | .dev a => s0.dropBadLines c (a / 64 * 64)
    | .host .. => s0
  match t with
  | .host p f a ns ro => s.sendAccess c r (hpNode p) { m with dpa := a, host := some (p, f, a, ns, ro) } i
  | .dev a =>
    let m1 := { m with dpa := a, host := none }
    let k := s.comp.cores.get c
    match (if m.op = .fetch then k.icache.find? (fun l => l.addr == a / 64 * 64) else none) with
    | some l => s.modCore c (fun k => k.takeLine l.bytes (a % 64))
    | none =>
      if decide (homeNode a = coreNode c) && (match placeOf a with | .cmem .. => true | _ => false) then s.ownAccess c r m1 i
      else s.sendAccess c r (homeNode a) m1 i

/-- A check of the Gatehouse fails (R174, R233): a page fault or an access fault; the wanted atomic raises the store fault. -/
def State.coreGateFails (s : State) (c : Nat) (x : Accessor) (op : MemOp) (va : Word) (code : Code) : State :=
  let s1 := s.gateLog x va.toNat code
  match code with
  | .ghNotPinned | .ghTableFormat | .ghNotMapped | .ghPerm => s1.coreTrap c (accessCauses op).2 va
  | .ghAtomic => s1.coreTrap c 7 va
  | .memUe => s1.coreFault c (accessCauses op).1 va .memUe
  | _ => s1.coreTrap c (accessCauses op).1 va

/-- A miss of a core begins a walk, or waits for one (R235). -/
def State.startWalk (s : State) (c : Nat) (x : Accessor) (va : Nat) : State :=
  let w : WalkReq := ⟨x.part, va, c, [], 0⟩
  (if s.mayWalk x.node x.part va then s.beginWalk x.node w else s.modGh x.node (fun g => { g with waiting := g.waiting ++ [w] })).modCore c
    (fun k => { k with wait := .walk })

/-- The code of a walk that failed, as a core's translation carries it. -/
def walkCode (n : Nat) : Code :=
  if n = Code.ghTableFormat.val.toNat then .ghTableFormat else if n = Code.memUe.val.toNat then .memUe else .ghNotMapped

/-- A core's access through the Gatehouse (R232, R235): with the translation a walk has brought, or from its node's cache, or it
waits for a walk. -/
def State.coreAccess (s : State) (c : Nat) (r : Request) (m : MemReq) (i : AccInfo) : State :=
  let va := m.va.toNat
  let x := accessor r.part (coreNode c) .core (some r.id)
  let k := s.comp.cores.get c
  let s0 := s.modCore c (fun k => { k with xlat := none })
  let go (res : Except Code Target) (s : State) : State :=
    match res with
    | .ok t => s.coreGo c r m i t
    | .error e => s.coreGateFails c x m.op m.va e
  match k.xlat.filter (fun t => t.1.part == r.part && t.1.va == pageBase va t.1.big) with
  | some (tag, e, code) =>
    if code = 0 then go (s.checkEntry x (accessKind m.op) (accessAtomic m.op) va e tag.big) s0 else s0.coreGateFails c x m.op m.va (walkCode code)
  | none =>
    if decide (va < 2 ^ 57) && !s.noWalk (some r.id) && ((s.mem.nodes.get x.node).hit r.part va).isNone then
      (if k.wait = .none then s0.startWalk c x va else s)
    else
      let g := s0.gate x (accessKind m.op) (accessAtomic m.op) va
      go g.1 g.2

/-- Whether what a core waits for lets an access begin (R200): an operation without aq holds back no load, store, fetch or FENCE, a wait
without aq no load, fetch or FENCE. -/
def CoreWait.lets (w : CoreWait) (op : MemOp) : Bool :=
  match w with
  | .none => true
  | .op _ _ aq _ => !aq && [MemOp.load, .store, .fetch, .fence].contains op
  | .watch _ _ _ _ _ _ _ _ _ aq _ => !aq && [MemOp.load, .fetch, .fence].contains op
  | _ => false

/-- Registers of an access that must hold their values. -/
def accessRegs (op : MemOp) (rd rs1 rs2 : RegNo) : List RegNo :=
  match op with
  | .fetch | .fence => []
  | .load | .lr => [rd, rs1]
  | .store => [rs1, rs2]
  | _ => [rd, rs1, rs2]

/-- FENCE (R198): it orders ordinary accesses only; earlier reads where PR is set, earlier writes where PW is, host-bound stores where PO
is, are performed before the core goes on. -/
def Core.fenceOk (k : Core) (f : Nat) : Bool :=
  (!bitOf f 5 || k.loads.all (fun l => decide (l.op = .fetch))) && (!bitOf f 4 || decide (k.stores = 0)) && (!bitOf f 6 || decide (k.hostStores = 0))

/-- The parcels at pc are fetched (R171, R173), those that have not been. -/
def State.fetch (s : State) (c : Nat) (r : Request) : State :=
  let k := s.comp.cores.get c
  let had := k.parcels
  if wholeInstr had || k.loads.any (fun l => decide (l.op = .fetch)) then s
  else if k.pc.toNat % 2 ≠ 0 then s.coreTrap c 0 k.pc
  else s.coreAccess c r ⟨.fetch, 0, if had.isEmpty then 2 else 1, false, 0, k.pc + BitVec.ofNat 64 had.length, none⟩ ⟨0, 0⟩

/-- An access of an instruction of `len` bytes at an address (R173): a misaligned one traps (R174); an LR, SC or AMO of a byte or half is no
encoding (R171); with rl it waits for every earlier access (R198). -/
def State.access (s : State) (c : Nat) (r : Request) (op : MemOp) (log2 : Nat) (signed : Bool) (rd rs2 : RegNo) (va : Word) (len : Nat)
    (rl : Bool) : State :=
  let k := s.comp.cores.get c
  if accessAtomic op && decide (log2 < 2) then
    let (n, s1) := s.takeFree
    s1.coreTrap c 2 (Config.freeWord n)
  else if va.toNat % 2 ^ log2 ≠ 0 then s.coreTrap c (match op with | .load | .lr => 4 | _ => 6) va
  else if accessAtomic op && rl && !k.quiet then s
  else s.coreAccess c r ⟨op, 0, log2, signed || accessAtomic op, k.reg rs2, va, none⟩ ⟨rd.val, len⟩

/-- The request of a core that may begin an access with some registers now. -/
def State.mayAccess (s : State) (c : Nat) (op : MemOp) (rs : List RegNo) : Option Request :=
  let k := s.comp.cores.get c
  (s.runsReq c).filter (fun _ => k.wait.lets op && k.irq.isNone && k.ready rs)

/-- CORE_ACCESS (R173, R198). An interrupt that is due goes before it. -/
def execCoreAccess (core : CoreId) (op : AccessForm) (log2 : Fin 4) (signed : Bool) (rd rs1 rs2 : RegNo) (imm : BitVec 12) (s : State) : Out :=
  .next (s.onCore core (s.mayAccess core op.op (accessRegs op.op rd rs1 rs2)) (fun k r s =>
    match op.op with
    | .fetch => s.fetch core r
    | .fence => if k.fenceOk imm.toNat then s.goOn core 0 0 4 else s
    | o => s.access core r o log2 signed rd rs2 (k.reg rs1 + (if accessAtomic o then 0 else imm.signExtend 64)) (if op.short then 2 else 4)
        op.rl))

end Sys2Proof.Machine
end

