-- ==== Sys2Proof/Machine/Beacon.lean ====
section
/-! DEFINITION. Beacon units and the lock table: flags, barriers, watches, locks, and the order S in which operations are performed
(R182 to R187, R199, R204 to R210, R310, R311, R315, R502). -/

namespace Sys2Proof.Machine

/-- Whether a condition holds of a cell's value, or of a counter's generation (R182, R187). -/
def WaitCond.holds : WaitCond → Nat → Bool
  | .eq v, x => decide (x = v.toNat)
  | .ne v, x => decide (x ≠ v.toNat)
  | .geu v, x => decide (v.toNat ≤ x)
  | .gen g, x => decide (x ≠ g.toNat)

/-- Change a cell. -/
def State.modCell (s : State) (node cell : Nat) (f : Cell → Cell) : State :=
  s.modNet (fun n => { n with cells := n.cells.modify (node, cell) f })

/-- Change a barrier counter. -/
def State.modCounter (s : State) (node ctr : Nat) (f : Counter → Counter) : State :=
  s.modNet (fun n => { n with counters := n.counters.modify (node, ctr) f })

/-- The watches of a cell or counter whose condition now holds are satisfied with its value; they are answered in ascending entry
number (R311). -/
def State.satisfy (s : State) (node : Nat) (bar : Bool) (cell v : Nat) : State :=
  let hit := (List.range 32).filter (fun i =>
    (s.net.watches.get (node, i)).any (fun w => w.bar == bar && w.cell == cell && w.answer.isNone && w.cond.holds v))
  eachOf hit (fun i s => s.modNet (fun n => { n with
    watches := n.watches.modify (node, i) (fun w => w.map (fun w => { w with answer := some (BitVec.ofNat 64 v) }))
    answersDue := n.answersDue.modify node (· ++ [i]) })) s

/-- What an operation answers, if it answers at once. -/
abbrev OpRes := Option BAns × State

/-- A wait whose condition does not hold takes the lowest free watch entry, or is answered NOWATCH (R183, R311). -/
def State.placeWatch (s : State) (node : Nat) (p : Packet) (bar : Bool) (cell : Nat) (cond : WaitCond) (a : Agent) (tag : Nat) :
    OpRes :=
  match (List.range 32).find? (fun i => (s.net.watches.get (node, i)).isNone) with
  | some i =>
    let w : Watch := ⟨bar, cell, cond, a, p.src, tag, p.part, p.req, p.tickRel, none⟩
    (none, s.modNet (fun n => { n with watches := n.watches.set (node, i) (some w) }))
  | none => (some .noWatch, s)

/-- An operation on a cell (R182, R190): an uncorrectable error poisons the cell, an operation that reads it is answered with poison,
and BF.SET clears it and returns 0 (R502). -/
def State.cellOp (s : State) (node cell : Nat) (f : Cell → OpRes) : OpRes :=
  let c := s.net.cells.get (node, cell)
  if c.ue || c.poison then (some .poison, s.modCell node cell (fun c => { c with poison := true, ue := false })) else f c

/-- BF.SET at the home. -/
def State.setCell (s : State) (node cell : Nat) (v : Word32) : OpRes :=
  let c := s.net.cells.get (node, cell)
  let old : Word32 := if c.ue || c.poison then 0 else c.v
  (some (.value (old.setWidth 64)), (s.modCell node cell (fun _ => ⟨v, false, false⟩)).satisfy node false cell v.toNat)

/-- A notify increment at the home (R190). -/
def State.notifyCell (s : State) (node cell : Nat) : OpRes :=
  s.cellOp node cell (fun c =>
    (some (.value 0), (s.modCell node cell (fun c => { c with v := c.v + 1 })).satisfy node false cell (c.v + 1).toNat))

/-- An operation on a counter: an uncorrectable error poisons it (R502). -/
def State.counterOp (s : State) (node ctr : Nat) (f : Counter → OpRes) : OpRes :=
  let c := s.net.counters.get (node, ctr)
  if c.ue || c.poison then (some .poison, s.modCounter node ctr (fun c => { c with poison := true, ue := false })) else f c

/-- An arrival (R186): the first latches its count, a later one with another count traps, and the last advances the generation and
answers every watch of the counter; a phase that waits for it is announced (R338). -/
def State.arriveAt (s : State) (node ctr count : Nat) : OpRes :=
  s.counterOp node ctr (fun c =>
    if count = 0 ∨ (c.latched.any (fun l => l != count)) then (some .barrierTrap, s)
    else
      let old : BAns := .value (c.gen.setWidth 64)
      if c.arrivals + 1 = count then
        let g := c.gen + 1
        let s1 := s.modCounter node ctr (fun c => { c with gen := g, arrivals := 0, latched := none })
        (some old, (s1.satisfy node true ctr g.toNat).phaseNotices node ctr)
      else (some old, s.modCounter node ctr (fun c => { c with arrivals := c.arrivals + 1, latched := some count })))

/-! ### Locks -/

/-- Whether a lock is assigned to a partition (R210). -/
def State.lockAssigned (s : State) (d i p : Nat) : Bool :=
  let w := s.appWord ⟨.glbLockmap, d, i / 8, 0⟩
  bitOf w (8 * (i % 8) + 7) && decide (bitsOf w (8 * (i % 8) + 3) (8 * (i % 8)) = p)

/-- LK.ACQ at the table (R204, R207). -/
def Lock.acquire (l : Lock) (part port func core : Nat) : Word × Lock :=
  let taken : Lock := { l with st := 1, epoch := l.epoch + 1, cause := 0, part := part, port := port, func := func, core := core }
  if l.st = 0 then (BitVec.ofNat 64 (taken.epoch.toNat * 2 ^ 32), taken)
  else if l.st = 1 then (BitVec.ofNat 64 (l.epoch.toNat * 2 ^ 32 + 1), l)
  else (BitVec.ofNat 64 (taken.epoch.toNat * 2 ^ 32 + l.cause * 2 ^ 13 + l.core * 2 ^ 4 + 2), taken)

/-- LK.REL at the table (R204, R209): 0 RELEASED, 1 NOT_OWNER. -/
def Lock.release (l : Lock) (part core : Nat) (epoch : Word32) : Word × Lock :=
  if l.st = 1 ∧ l.part = part ∧ l.core = core ∧ l.epoch = epoch then (0, { l with st := 0 }) else (1, l)

/-- An operation on a lock (R210, R502): not assigned to the partition, it changes nothing and traps; a copy with an error is
repaired from the other; both fence the die. -/
def State.lockAt (s : State) (node i : Nat) (p : Packet) (f : Lock → Word × Lock) : OpRes :=
  let d := nodeDie node
  let k := 256 * d + i
  let l := s.comp.locks.get k
  if l.badA && l.badB then (none, s.fenceDie d)
  else
    let s1 := s.modLock k (fun l => { l with badA := false, badB := false })
    if !p.part.any (fun q => s.lockAssigned d i q) then (some .targetTrap, s1)
    else
      let r := f { l with badA := false, badB := false }
      (some (.value r.1), s1.modLock k (fun _ => r.2))

/-- Port, function and core of an operation's agent (R204). -/
def State.ownerOfOp (s : State) (p : Packet) (a : Agent) : Nat × Nat × Nat :=
  let r := p.req.bind s.findReq
  let c := match a with | .core c => c | .notify c _ => c | _ => 0
  ((r.map (·.port)).getD 0, (r.map (·.func)).getD 0, c)

/-! ### Operations in the order of S -/

/-- An operation takes effect at its home (R182 to R187, R199, R204): what it answers at once. One that arrives poisoned is not
performed (R315); one for a node that another partition owns is not delivered (R321). -/
def State.performOp (s : State) (node : Nat) (p : Packet) (op : BOp) (a : Agent) (tag : Nat) : OpRes :=
  let o := s.ownerOfOp p a
  let foreign := match s.ownerOf node, p.part with
    | some q, some r => decide (q ≠ r)
    | _, _ => false
  if p.poison then (some .poison, s)
  else if foreign then (some .fenced, s.log (nodeDie node) node p.part .netDestFenced 0 0)
  else match op with
    | .get c => s.cellOp node c (fun x => (some (.value (x.v.setWidth 64)), s))
    | .set c v => s.setCell node c v
    | .wait c cond => s.cellOp node c (fun x =>
        if cond.holds x.v.toNat then (some (.value (x.v.setWidth 64)), s) else s.placeWatch node p false c cond a tag)
    | .arrive c n => s.arriveAt node c n
    | .barWait c g => s.counterOp node c (fun x =>
        if x.gen ≠ g then (some (.value (x.gen.setWidth 64)), s) else s.placeWatch node p true c (.gen g) a tag)
    | .lkAcq i => s.lockAt node i p (fun l => l.acquire (p.part.getD 0) o.1 o.2.1 o.2.2)
    | .lkRel i e => s.lockAt node i p (fun l => l.release (p.part.getD 0) o.2.2 e)
    | .lkInfo i => s.lockAt node i p (fun l => (BitVec.ofNat 64 l.record, l))
    | .notify c => s.notifyCell node c
    | .cancel _ => (none, s)

/-- An answer goes back on VC0 in a router cycle (R310); the agent that no one is gets none. -/
def State.answerOp (s : State) (node src : Nat) (part req : Option Nat) (a : Agent) (tag : Nat) (x : Option BAns) (c : Nat) : State :=
  match x, a with
  | none, _ => s
  | _, .none => s
  | some v, a => s.sendAt node (.node src) 0 1 part req (.beaconAns v a tag) c

/-- The later of two router cycles. -/
def laterCycle (a b : Nat) : Nat := if cycleReached a b then a else b

/-- Whether a router cycle has come by the end of the present tick of a node's die. -/
def State.cycleCome (s : State) (node c : Nat) : Bool := cycleReached (8 * s.tickOf (nodeDie node) + 7) c

/-- The router cycle in which a Beacon unit performs its next operation (R310): one a cycle, none before the home port has delivered it. -/
def State.opCycle (s : State) (node : Nat) : Nat :=
  laterCycle (s.net.beaconNext.get node) (((s.net.homeDue.get node).head?).getD (8 * s.tickOf (nodeDie node)))

/-- The first operation at a home is taken from it, in a router cycle. -/
def State.popHome (s : State) (node c : Nat) : State :=
  s.modNet (fun n => { n with
    home := n.home.modify node (·.drop 1), homeDue := n.homeDue.modify node (·.drop 1), beaconNext := n.beaconNext.set node (c + 1) })

/-- Watches that an operation has satisfied are answered from a router cycle on (R311). -/
def State.watchesFrom (s : State) (node before c : Nat) : State :=
  if (s.net.answersDue.get node).length = before then s
  else s.modNet (fun n => { n with watchNext := n.watchNext.modify node (fun w => laterCycle w c) })

/-- BEACON_OP_APPLY (R310, R311): the unit performs the next operation its home port delivered, one a router cycle. Its own answer leaves
in the next cycle, those of the watches it has satisfied after it. -/
def execBeaconOpApply (node : NodeId) (s : State) : Out :=
  let n := node.toNat
  if !nodeValid n then .fault .noSuchNode
  else .next (match s.net.home.get n with
    | p :: _ =>
      (match p.payload with
       | .beacon (.cancel _) _ _ => s
       | .beacon op a tag =>
         let c := s.opCycle n
         whenB (s.cycleCome n c) s (fun s =>
           let r := (s.popHome n c).performOp n p op a tag
           let s1 := r.2.answerOp n p.src p.part p.req a tag r.1 (c + 1)
           s1.watchesFrom n (s.net.answersDue.get n).length (c + (if r.1.isSome then 2 else 1)))
       | _ => s)
    | [] => s)

/-- WATCH_ANSWER (R311): the next satisfied watch is answered, one a router cycle, and its entry is free. -/
def execWatchAnswer (node : NodeId) (s : State) : Out :=
  let n := node.toNat
  if !nodeValid n then .fault .noSuchNode
  else .next (match s.net.answersDue.get n with
    | i :: _ =>
      let c := s.net.watchNext.get n
      whenB (s.cycleCome n c) s (fun s =>
        let s1 := s.modNet (fun m => { m with
          answersDue := m.answersDue.modify n (·.drop 1), watches := m.watches.set (n, i) none, watchNext := m.watchNext.set n (c + 1) })
        match s.net.watches.get (n, i) with
        | some w => s1.answerOp n w.src w.part w.req w.agent w.tag (w.answer.map BAns.value) c
        | none => s1)
    | [] => s)

/-- WATCH_CANCEL (R184): a cancel is the next item of the home port; the watch it names, if its condition is not yet met, is
freed. -/
def execWatchCancel (node : NodeId) (s : State) : Out :=
  let n := node.toNat
  if !nodeValid n then .fault .noSuchNode
  else .next (match s.net.home.get n with
    | p :: _ =>
      (match p.payload with
       | .beacon (.cancel tag) _ _ =>
         let c := s.opCycle n
         whenB (s.cycleCome n c) s (fun s =>
           eachOf (List.range 32) (fun i s =>
             if (s.net.watches.get (n, i)).any (fun w => w.tag == tag && w.answer.isNone) then
               s.modNet (fun m => { m with watches := m.watches.set (n, i) none })
             else s) (s.popHome n c))
       | _ => s)
    | [] => s)

end Sys2Proof.Machine
end

