-- ==== Sys2Proof/Machine/Models.lean ====
section
/-! DEFINITION. Resident models as the coupling store holds them (R40 to R50): headers, unit headers, lists, halos and
exports, unit states, and fields (R52, R55 to R57). -/

namespace Sys2Proof.Machine

/-- A model header (R44). -/
structure ModelHdr where
  id : Nat
  kind : Nat
  q : Nat
  width : Nat
  scale : Int
  classes : Nat
  order : Nat
  replicas : Nat
  nLocal : Nat
  hLocal : Nat
  slotBase : Nat
  unitOff : Nat
  refOff : Nat
  coefOff : Nat
  haloOff : Nat
  exportOff : Nat
  gidxOff : Nat
deriving DecidableEq, Repr

/-- The header of 64 bytes (R44). -/
def parseHdr (b : List Byte) : ModelHdr :=
  { id := fieldLe b 0 2, kind := byteAt b 2, q := byteAt b 3, width := byteAt b 4, scale := sInt 8 (byteAt b 5)
    classes := byteAt b 6, order := byteAt b 7, replicas := fieldLe b 8 2, nLocal := fieldLe b 12 4
    hLocal := fieldLe b 16 4, slotBase := fieldLe b 20 4, unitOff := fieldLe b 24 4, refOff := fieldLe b 28 4
    coefOff := fieldLe b 32 4, haloOff := fieldLe b 36 4, exportOff := fieldLe b 40 4, gidxOff := fieldLe b 44 4 }

/-- Bytes of a coefficient (R44). -/
def ModelHdr.coefBytes (h : ModelHdr) : Nat := 2 * 2 ^ h.width

/-- Whether a model is Potts (R41). -/
def ModelHdr.potts (h : ModelHdr) : Bool := decide (h.kind = 1)

/-- Slots of a model of `r` replicas (R42). -/
def ModelHdr.slots (h : ModelHdr) (r : Nat) : Nat := (if h.potts then 4 else 1) * h.nLocal * r

/-- A unit header (R45). -/
structure UnitHdr where
  listOff : Nat
  degree : Nat
  cls : Nat
  dense : Bool
  clamp : Bool
  biasOff : Nat
  exportIdx : Nat
  exportCount : Nat
deriving DecidableEq, Repr

/-- The unit header of 16 bytes (R45). -/
def parseUnit (b : List Byte) : UnitHdr :=
  { listOff := fieldLe b 0 4, degree := fieldLe b 4 2, cls := bitsOf (byteAt b 6) 5 0, dense := bitOf (byteAt b 7) 1
    clamp := bitOf (byteAt b 7) 0, biasOff := fieldLe b 8 4, exportIdx := fieldLe b 12 3, exportCount := byteAt b 15 }

/-- A model's site as the SUA reads it: the SC, the CST offset of its header, and the header. -/
structure Site where
  sc : Nat
  off : Nat
  h : ModelHdr
deriving DecidableEq, Repr

/-- Bytes of a coupling store. -/
def State.cst (s : State) (sc off n : Nat) : List Byte := s.mem.mem.bytes (cstAddr sc off) n

/-- The site of a model on an SC. -/
def State.siteOf (s : State) (t : ModelSite) : Site := ⟨t.sc, t.hdr, parseHdr (s.cst t.sc t.hdr 64)⟩

/-- A model of a partition by its identifier. -/
def State.findModel (s : State) (part id : Nat) : Option Model := s.comp.models.find? (fun m => m.part == part && m.id == id)

/-- The site of a model on one SC. -/
def State.modelOn (s : State) (m : Model) (sc : Nat) : Option Site := (m.sites.find? (fun t => t.sc == sc)).map s.siteOf

/-- Unit header `u` of a site. -/
def State.unitHdr (s : State) (t : Site) (u : Nat) : UnitHdr := parseUnit (s.cst t.sc (t.off + t.h.unitOff + 16 * u) 16)

/-- Coefficient `n` of a site (R44). -/
def State.coef (s : State) (t : Site) (n : Nat) : Int :=
  let w := t.h.coefBytes
  sInt (8 * w) (leVal (s.cst t.sc (t.off + t.h.coefOff + w * n) w))

/-- Reference `n` of a site (R46): whether it is a halo reference, and its number. -/
def State.refAt (s : State) (t : Site) (n : Nat) : Bool × Nat :=
  let v := leVal (s.cst t.sc (t.off + t.h.refOff + 2 * n) 2)
  (bitOf v 15, v % 2 ^ 15)

/-- The entries from list index `n`: halo or local, number, coefficient. -/
def State.entries (s : State) (t : Site) (n count : Nat) : List (Bool × Nat × Int) :=
  (upFrom n count).map (fun i => let r := s.refAt t i; (r.1, r.2, s.coef t i))

/-- The entries of a local unit. -/
def State.unitEntries (s : State) (t : Site) (u : Nat) : List (Bool × Nat × Int) :=
  let x := s.unitHdr t u
  s.entries t x.listOff x.degree

/-- A halo table entry (R47): first list index, count, class. -/
def State.haloEnt (s : State) (t : Site) (i : Nat) : Nat × Nat × Nat :=
  let b := s.cst t.sc (t.off + t.h.haloOff + 8 * i) 8
  (fieldLe b 0 4, fieldLe b 4 2, bitsOf (byteAt b 6) 5 0)

/-- The exports of a unit (R48): destination SC and halo index there. -/
def State.exportsOf (s : State) (t : Site) (x : UnitHdr) : List (Nat × Nat) :=
  (upFrom x.exportIdx x.exportCount).map (fun i =>
    let v := leVal (s.cst t.sc (t.off + t.h.exportOff + 4 * i) 4)
    (bitsOf v 31 26, bitsOf v 14 0))

/-- The model-global index of a local unit (R49). -/
def State.gidx (s : State) (t : Site) (u : Nat) : Nat := leVal (s.cst t.sc (t.off + t.h.gidxOff + 4 * u) 4)

/-- First slot of unit `u` of replica `r` (R42). -/
def Site.slot (t : Site) (u r : Nat) : Nat := t.h.slotBase + (if t.h.potts then 4 else 1) * (r * t.h.nLocal + u)

/-- The state of a local unit (R40): 1 or 0 for a binary unit, the state number of a Potts unit. -/
def State.unitState (s : State) (t : Site) (u r : Nat) : Nat :=
  let st := (s.comp.suas.get t.sc).states
  let b := t.slot u r
  if t.h.potts then b2n (st.get b) + 2 * b2n (st.get (b + 1)) + 4 * b2n (st.get (b + 2)) + 8 * b2n (st.get (b + 3))
  else b2n (st.get b)

/-- A local unit takes a state (R40). -/
def State.setUnit (s : State) (t : Site) (u r v : Nat) : State :=
  let b := t.slot u r
  s.modSua t.sc (fun k =>
    if t.h.potts then { k with states := ((((k.states.set b (bitOf v 0)).set (b + 1) (bitOf v 1)).set (b + 2) (bitOf v 2)).set (b + 3) (bitOf v 3)) }
    else { k with states := k.states.set b (bitOf v 0) })

/-- The state a reference names: a local unit's, or the halo copy's (R46). -/
def State.refState (s : State) (m : Model) (t : Site) (halo : Bool) (i r : Nat) : Nat :=
  if halo then m.halo.get (t.sc, i, r) else s.unitState t i r

/-- The spin of a binary state (R40). -/
def spinOf (v : Nat) : Int := if v = 1 then 1 else -1

/-- The field of a binary unit summed from the current states (R52), with its dense shadow where it is DENSE (R57). -/
def State.fullField (s : State) (m : Model) (t : Site) (u r : Nat) : Int :=
  let x := s.unitHdr t u
  let sum := (s.entries t x.listOff x.degree).foldl
    (fun (h : Int) e => h + e.2.2 * spinOf (s.refState m t e.1 e.2.1 r)) (s.coef t x.biasOff)
  if x.dense then sum + (s.comp.suas.get t.sc).shadows.get (t.slot u r) else sum

/-- The q state energies of a Potts unit (R56). -/
def State.pottsFields (s : State) (m : Model) (t : Site) (u r : Nat) : List Int :=
  let x := s.unitHdr t u
  let es := s.entries t x.listOff x.degree
  (List.range t.h.q).map (fun a =>
    -(es.foldl (fun (h : Int) e => if s.refState m t e.1 e.2.1 r = a then h + e.2.2 else h) (s.coef t (x.biasOff + a))))

/-- The field register of a binary slot changes by `d`. -/
def State.addField (s : State) (sc slot : Nat) (d : Int) : State :=
  s.modSua sc (fun k => { k with fields := k.fields.set slot (k.fields.get slot + d) })

/-- Upkeep of the local units that a list joins to a flipped unit (R54): the new spin less the old one times each
coefficient. A Potts model has no field registers in use (R56). -/
def State.upkeep (s : State) (t : Site) (es : List (Bool × Nat × Int)) (r : Nat) (old new : Nat) : State :=
  if t.h.potts then s
  else (es.filter (fun e => !e.1)).foldl
    (fun s e => s.addField t.sc (t.slot e.2.1 r) (e.2.2 * (spinOf new - spinOf old))) s

/-- Words of a coupling store with an error, within ranges of it. -/
def State.cstMarks (s : State) (sc : Nat) (ranges : List (Nat × Nat)) : List Nat :=
  s.mem.mem.marks.keys.filter (fun w => ranges.any (fun x =>
    decide (cstAddr sc x.1 < w + 8) && decide (w < cstAddr sc (x.1 + x.2))))

/-- The ranges of a coupling store that the update of a unit reads: header, references, coefficients and biases. -/
def State.unitRanges (s : State) (t : Site) (u : Nat) : List (Nat × Nat) :=
  let x := s.unitHdr t u
  let w := t.h.coefBytes
  [(t.off + t.h.unitOff + 16 * u, 16), (t.off + t.h.refOff + 2 * x.listOff, 2 * x.degree),
   (t.off + t.h.coefOff + w * x.listOff, w * x.degree),
   (t.off + t.h.coefOff + w * x.biasOff, w * (if t.h.potts then t.h.q else 1)),
   (t.off + t.h.exportOff + 4 * x.exportIdx, 4 * x.exportCount), (t.off + t.h.gidxOff + 4 * u, 4)]

/-- The ranges of a coupling store that the upkeep of a halo unit reads (R47). -/
def State.haloRanges (s : State) (t : Site) (i : Nat) : List (Nat × Nat) :=
  let x := s.haloEnt t i
  let w := t.h.coefBytes
  [(t.off + t.h.haloOff + 8 * i, 8), (t.off + t.h.refOff + 2 * x.1, 2 * x.2.1), (t.off + t.h.coefOff + w * x.1, w * x.2.1)]

/-- The units of a class of a site (R45); every unit in synchronous order (R68). -/
def State.classUnits (s : State) (t : Site) (cls : Nat) : List Nat :=
  (List.range t.h.nLocal).filter (fun u => decide (t.h.order = 2) || decide ((s.unitHdr t u).cls = cls))

/-- Where a dense contribution goes (R57, R148): the slot, none where it is dropped. DESIGN CHOICE: a target whose model is not resident on
the SC is dropped as one whose unit or replica does not exist. -/
def State.denseSlot (s : State) (part sc model unit rep : Nat) : Option Nat :=
  match (s.findModel part model).bind (fun m => (s.modelOn m sc).map (fun t => (m, t))) with
  | some (m, t) =>
    if unit < t.h.nLocal ∧ rep < m.replicas ∧ (s.unitHdr t unit).dense ∧ !t.h.potts then some (t.slot unit rep) else none
  | none => none

/-- A model's next sweep evaluates every field in full, and its dense shadows are set to 0 (R55, R57). -/
def State.needFull (s : State) (m : Model) : State :=
  let s1 := s.modModel m.part m.id (fun x => { x with fullNext := true })
  m.sites.foldl (fun s x =>
    let t := s.siteOf x
    let slots := upFrom t.h.slotBase (t.h.slots m.replicas)
    s.modSua x.sc (fun k => { k with shadows := k.shadows.modifyAll (slots.filter (fun i => k.shadows.get i ≠ 0)) (fun _ _ => 0) })) s1

end Sys2Proof.Machine
end

