-- ==== Sys2Proof/Machine/Programs.lean ====
section
/-! DEFINITION. Sampling programs (R71 to R91): the record, segments and the β schedule, the sections of the readout,
doubled energies and state records. -/

namespace Sys2Proof.Machine

/-- A sampling program record (R71). -/
structure Spr where
  modelId : Nat
  want : Nat
  floor : Nat
  sweeps : Nat
  restart : Nat
  exchEvery : Nat
  energyEvery : Nat
  burnIn : Nat
  sampleEvery : Nat
  betaSteps : Nat
  flags : Nat
  nGlobal : Nat
  traceMax : Nat
  betaVa : Nat
  outVa : Nat
  outBytes : Nat
  teCount : Nat
  streams : Nat
  teTicks : Nat
  posMask : Nat
  streamIds : List Nat
deriving DecidableEq, Repr

/-- The record of 128 bytes (R71). -/
def parseSpr (b : List Byte) : Spr :=
  { modelId := fieldLe b 0 2, want := byteAt b 2, floor := byteAt b 3, sweeps := fieldLe b 4 4, restart := fieldLe b 8 4
    exchEvery := fieldLe b 12 2, energyEvery := fieldLe b 14 2, burnIn := fieldLe b 16 4, sampleEvery := fieldLe b 20 2
    betaSteps := byteAt b 22, flags := byteAt b 23, nGlobal := fieldLe b 24 4, traceMax := fieldLe b 28 4
    betaVa := fieldLe b 32 8, outVa := fieldLe b 40 8, outBytes := fieldLe b 48 4, teCount := byteAt b 52
    streams := byteAt b 53, teTicks := fieldLe b 56 4, posMask := fieldLe b 64 8
    streamIds := (List.range 8).map (fun i => fieldLe b (72 + 4 * i) 4) }

/-- Marked positions below `r`, ascending (POS_MASK). -/
def Spr.marked (p : Spr) (r : Nat) : List Nat := (List.range r).filter (fun k => bitOf p.posMask k)

/-- First sweep of the segment that holds sweep `n` (R74). -/
def Spr.segStart (p : Spr) (n : Nat) : Nat := if p.restart = 0 then 1 else (n - 1) / p.restart * p.restart + 1

/-- Last sweep of the segment that holds sweep `n` (R74). -/
def Spr.segEnd (p : Spr) (n : Nat) : Nat := if p.restart = 0 then p.sweeps else min p.sweeps (p.segStart n + p.restart - 1)

/-- Whether the end of a sweep is an energy point (R78). -/
def Spr.energyPoint (p : Spr) (n : Nat) : Bool :=
  (decide (p.energyEvery ≠ 0) && decide (n % p.energyEvery = 0))
    || (decide (p.exchEvery ≠ 0) && decide (n % p.exchEvery = 0)) || decide (n = p.segEnd n)

/-- Bytes of a step of the β schedule (R72). -/
def Spr.stepBytes (p : Spr) : Nat := 8 + 8 * p.want

/-- The step that applies at sweep `n` (R76): the last whose first sweep is not past it. -/
def Spr.stepAt (p : Spr) (betas : List Byte) (n : Nat) : Nat :=
  let k := n - p.segStart n + 1
  ((List.range p.betaSteps).foldl (fun (acc : Nat × Nat) i =>
    (if acc.2 ≤ k then i else acc.1, acc.2 + fieldLe betas (i * p.stepBytes) 4)) (0, 1)).1

/-- β of a ladder position in a step (R72). DESIGN CHOICE: the entry of a position that the RUN's own record has no entry for (its
REPLICAS_WANT is below the admitted count, R97) is read from the bytes that follow the step's. -/
def Spr.beta (p : Spr) (betas : List Byte) (step pos : Nat) : Beta :=
  let o := step * p.stepBytes + 8 + 8 * pos
  ⟨fieldLe betas o 4, sInt 8 (byteAt betas (o + 4))⟩

/-- β of a ladder position at sweep `n` (R76). -/
def Spr.betaAt (p : Spr) (betas : List Byte) (n pos : Nat) : Beta := p.beta betas (p.stepAt betas n) pos

/-- Whether a sweep counts into the marginals, and whether it is sampled (R89). -/
def Spr.counted (p : Spr) (n : Nat) : Bool := decide (p.burnIn < n - p.segStart n + 1)
def Spr.sampled (p : Spr) (n : Nat) : Bool :=
  p.counted n && decide (p.sampleEvery ≠ 0) && decide ((n - p.segStart n + 1 - p.burnIn) % p.sampleEvery = 0)

/-- Segments of a request: how many are whole, and the length of the last (R74). -/
def Spr.segments (p : Spr) : Nat × Nat :=
  if p.restart = 0 then (0, p.sweeps) else (p.sweeps / p.restart, p.sweeps % p.restart)

/-- Sampled sweeps of a request (R89). -/
def Spr.sampleCount (p : Spr) : Nat :=
  if p.sampleEvery = 0 then 0
  else p.segments.1 * ((p.restart - p.burnIn) / p.sampleEvery) + (p.segments.2 - p.burnIn) / p.sampleEvery

/-- Energy points of a request (R78). -/
def Spr.energyCount (p : Spr) : Nat := ((upFrom 1 p.sweeps).filter p.energyPoint).length

/-- Bytes of a state record (R86). -/
def recordBytes (nGlobal : Nat) (potts : Bool) : Nat := 32 + roundUp 64 ((nGlobal * (if potts then 4 else 1) + 7) / 8)

/-- The sections of a readout (R84): offsets, 0 for a section that is not requested, sample records and trace entries that
have space (R91), and its end. -/
structure Sections where
  acc : Nat
  best : Nat
  marg : Nat
  samp : Nat
  trace : Nat
  samples : Nat
  traces : Nat
  fin : Nat
deriving DecidableEq, Repr

/-- Bytes of a trace entry (R88): positions marked in POS_MASK are traced. -/
def Spr.traceBytes (p : Spr) (r : Nat) : Nat := 16 + 16 * (p.marked r).length

/-- The sections at a replica count (R84, R88). The trace has space for the entries the program can make, at most TRACE_MAX;
the samples have what OUT_BYTES leaves. -/
def Spr.sections (p : Spr) (r : Nat) (potts : Bool) (q : Nat) (outBytes : Nat) : Sections :=
  let rb := recordBytes p.nGlobal potts
  let np := (p.marked r).length
  let accOn := decide (p.exchEvery ≠ 0)
  let e1 := if accOn then 64 + 8 * (r - 1) else 64
  let a1 := roundUp 64 e1
  let bestOn := bitOf p.flags 3
  let e2 := if bestOn then a1 + rb else e1
  let a2 := roundUp 64 e2
  let margOn := bitOf p.flags 2
  let e3 := if margOn then a2 + 4 * np * p.nGlobal * (if potts then q else 1) else e2
  let a3 := roundUp 64 e3
  let traceOn := bitOf p.flags 4
  let tn := if traceOn then min p.traceMax p.energyCount else 0
  let room := outBytes - a3 - tn * p.traceBytes r
  let room := if traceOn then room / 64 * 64 else room
  let sampOn := decide (p.sampleEvery ≠ 0)
  let sn := if sampOn then min (p.sampleCount * np) (room / rb) else 0
  let e4 := if sampOn then a3 + sn * rb else e3
  let a4 := roundUp 64 e4
  { acc := if accOn then 64 else 0, best := if bestOn then a1 else 0, marg := if margOn then a2 else 0
    samp := if sampOn then a3 else 0, trace := if traceOn then a4 else 0, samples := sn, traces := tn
    fin := if traceOn then a4 + tn * p.traceBytes r else e4 }

/-! ### Energies (R77) -/

/-- The doubled energy of a replica over one site (R77, R79), from the field registers, or, with `fresh`, from fields summed anew. -/
def State.siteEnergy (s : State) (m : Model) (t : Site) (r : Nat) (fresh : Bool) : Int :=
  (List.range t.h.nLocal).foldl (fun (d : Int) u =>
    let x := s.unitHdr t u
    let v := s.unitState t u r
    if t.h.potts then d + ((s.pottsFields m t u r).getD v 0 - s.coef t (x.biasOff + v))
    else
      let h := if fresh then s.fullField m t u r else (s.comp.suas.get t.sc).fields.get (t.slot u r)
      d - spinOf v * (h + s.coef t x.biasOff)) 0

/-- The doubled energy of a replica (R77): exact over the model's SCs. -/
def State.energy (s : State) (m : Model) (r : Nat) : Int :=
  (m.sites.map (fun x => s.siteEnergy m (s.siteOf x) r false)).foldl (· + ·) 0

/-- The doubled energy of a replica at a stop (R398): while the next sweep is to evaluate the fields in full (R55), they are summed anew. -/
def State.energyAtStop (s : State) (m : Model) (r : Nat) : Int :=
  (m.sites.map (fun x => s.siteEnergy m (s.siteOf x) r m.fullNext)).foldl (· + ·) 0

/-! ### State records (R86, R87) -/

/-- The states of units 0 to `n` - 1 of a replica in global index order; where two SCs carry an index, the higher SC's (R87). -/
def State.globalStates (s : State) (m : Model) (n r : Nat) : List Nat :=
  m.sites.foldl (fun l x =>
    let t := s.siteOf x
    (List.range t.h.nLocal).foldl (fun (l : List Nat) u => l.set (s.gidx t u) (s.unitState t u r)) l) (List.replicate n 0)

/-- A state record (R86). -/
def stateRecord (sweep pos rep : Nat) (nonGibbs : Bool) (d : Int) (potts : Bool) (states : List Nat) : List Byte :=
  let bits := states.flatMap (fun v => if potts then [bitOf v 0, bitOf v 1, bitOf v 2, bitOf v 3] else [bitOf v 0])
  let body := packBits bits
  leBytes 4 sweep ++ leBytes 1 pos ++ leBytes 1 rep ++ leBytes 2 (b2n nonGibbs) ++ zeros 8 ++ leBytes 16 (ofSInt 128 d)
    ++ padTo (roundUp 64 body.length) body

/-- Whether a model is Potts, and its q, by its first site. -/
def State.modelKind (s : State) (m : Model) : Bool × Nat :=
  match m.sites with
  | t :: _ => let h := (s.siteOf t).h; (h.potts, h.q)
  | [] => (false, 0)

/-- The replica that holds a position. -/
def holder (pos : List Nat) (k : Nat) : Nat := pos.findIdx (· == k)

/-- The sections of a running program. -/
def State.progSections (s : State) (r : Request) (g : Program) (m : Model) : Sections :=
  let k := s.modelKind m
  (parseSpr g.spr).sections g.replicas k.1 k.2 r.outBytes

/-- The accessor of a model's SUA writes: its lead SC (R79). -/
def Model.writer (m : Model) (r : Request) : Accessor := accessor r.part (scNode ((m.sites.head?.map (·.sc)).getD 0)) .sua (some r.id)

/-- A write of an SUA into the readout buffer (R84): a failure ends the request with its code (R233, R514). -/
def State.suaWrite (s : State) (x : Accessor) (req va : Nat) (bs : List Byte) : State :=
  if bs.isEmpty then s
  else match s.agWriteCode x va bs with
    | (some .memPoison, s1) => s1.poisonReq x.node req va
    | (some c, s1) => s1.endReq req c va x.node
    | (none, s1) => s1

/-- The summary of R84. -/
def summaryBytes (r : Request) (g : Program) (l : Sections) (sweepsDone : Nat) : List Byte :=
  let flags := readoutFlagBits g.nonGibbs r.live g.margSat g.traceFull g.samplesFull g.best.isSome
  leBytes 4 sweepsDone ++ leBytes 2 g.restarts ++ leBytes 1 g.replicas ++ leBytes 1 flags ++ leBytes 4 g.exchRounds
    ++ leBytes 4 g.samples ++ leBytes 4 g.trace ++ leBytes 4 g.counted ++ leBytes 4 l.acc ++ leBytes 4 l.best
    ++ leBytes 4 l.marg ++ leBytes 4 l.samp ++ leBytes 4 l.trace ++ zeros 20

/-- Acceptance counts (R88). -/
def acceptBytes (g : Program) : List Byte :=
  (List.range (g.replicas - 1)).flatMap (fun k => leBytes 4 (g.attempts.getD k 0) ++ leBytes 4 (g.accepts.getD k 0))

/-- The sections of the readout that are written at the end of a request, at a base address, the summary last (R84). -/
def State.writeReadout (s : State) (r : Request) (g : Program) (m : Model) (base sweepsDone : Nat) : State :=
  let l := s.progSections r g m
  let k := s.modelKind m
  let p := parseSpr g.spr
  let x := m.writer r
  let s1 := if l.acc = 0 then s else s.suaWrite x r.id (base + l.acc) (acceptBytes g)
  let s2 := if l.best = 0 then s1 else match g.best with
    | some (d, n, pos, rep, st) => s1.suaWrite x r.id (base + l.best) (stateRecord n pos rep g.nonGibbs d k.1 st)
    | none => s1
  let n := (p.marked g.replicas).length * p.nGlobal * (if k.1 then k.2 else 1)
  let s3 := if l.marg = 0 then s2
    else s2.suaWrite x r.id (base + l.marg) ((List.range n).flatMap (fun i => leBytes 4 (g.marg.get i)))
  s3.suaWrite x r.id base (summaryBytes r g l sweepsDone)

end Sys2Proof.Machine
end

