-- ==== Sys2Proof/Machine/Sua.lean ====
section
/-! DEFINITION. Sweeps on the stochastic unit arrays (R55 to R70), energy points, samples and counts (R78 to R91), and
replica exchange (R80 to R82). -/

namespace Sys2Proof.Machine

/-- A request whose program runs, with its program and model. -/
def State.withProg (s : State) (id : Nat) (f : Request → Program → Model → State → State) : State :=
  withSome (s.findReq id) s (fun r s =>
    withSome r.prog s (fun g s =>
      withSome (s.findModel r.part r.model) s (fun m s =>
        whenB (decide (r.step = .run) && !g.finished && !g.stopped) s (fun s => f r g m s))))

/-- Change the program of a request. -/
def State.modProg (s : State) (id : Nat) (f : Program → Program) : State :=
  s.modReq id (fun r => { r with prog := r.prog.map f })

/-- The key of a request's ZCG words (R110, R111). -/
def Program.key (g : Program) (r : Request) : Quad := zcgKey (g.liveKey.getD r.seed)

/-! ### CMD.SUA (R70, R191) -/

/-- The next CMD.SUA of an SC takes the SUA where it is free (R70). -/
def State.suaNext (s : State) (sc : Nat) : State :=
  s.modSua sc (fun k => if k.running.isNone then { k with running := k.cmds.head?.map (·.req) } else k)

/-- A CMD.SUA reaches an SC (R191): its sweeps wait for those of another request (R70). -/
def State.suaArrive (s : State) (sc : Nat) (x : CmdRef) : State :=
  (s.modSua sc (fun k => { k with cmds := k.cmds ++ [x] })).suaNext sc

/-- An SC no longer runs a request's sweeps: its CMD.SUA end, and the next request's may begin (R70). -/
def State.suaLeave (s : State) (req sc : Nat) : State :=
  let k := s.comp.suas.get sc
  let s1 := (k.cmds.filter (fun x => x.req == req)).foldl (fun s x => s.endCmd (scNode sc) x) s
  let s2 := s1.modSua sc (fun k => { k with
    cmds := k.cmds.filter (fun x => !(x.req == req)), running := if k.running = some req then none else k.running })
  s2.suaNext sc

/-- A request's program has ended on every SC. -/
def State.releaseSuas (s : State) (req : Nat) : State :=
  ((List.range 64).filter (fun sc => (s.comp.suas.get sc).cmds.any (fun x => x.req == req))).foldl (fun s sc => s.suaLeave req sc) s

/-! ### Segments (R75) -/

/-- The state a unit takes at re-initialisation (R75). -/
def initState (h : ModelHdr) (u : Word32) : Nat :=
  if h.potts then u.toNat * h.q / 2 ^ 32 else b2n (decide (u.toNat < 0x80000000))

/-- Every SC's halo holds the present states of the units that others export to it (R65). -/
def State.fillHalos (s : State) (m : Model) : State :=
  let copies := m.sites.flatMap (fun x =>
    let t := s.siteOf x
    (List.range t.h.nLocal).flatMap (fun u => (s.exportsOf t (s.unitHdr t u)).flatMap (fun e =>
      (List.range m.replicas).map (fun r => ((e.1, e.2, r), s.unitState t u r)))))
  s.modModel m.part m.id (fun k => { k with halo := copies.foldl (fun h c => h.set c.1 c.2) k.halo })

/-- Start of a segment (R75): every unclamped slot of every replica is re-initialised, and replica r holds position r. DESIGN CHOICE: a
clamped unit that nothing has written since LOAD_MODEL keeps the bits that its slots held before, those of a removed model among them:
R43 gives it the state last written, and no command writes slot states. -/
def State.startSegment (s : State) (r : Request) (g : Program) (m : Model) (n : Nat) : State :=
  let key := g.key r
  let s1 := m.sites.foldl (fun s x =>
    let t := s.siteOf x
    (List.range t.h.nLocal).foldl (fun s u =>
      if (s.unitHdr t u).clamp then s
      else (List.range g.replicas).foldl (fun s rep =>
        s.setUnit t u rep (initState t.h (zcgUnitWord .init key (s.gidx t u) n rep))) s) s) s
  ((s1.fillHalos m).needFull m).modProg r.id (fun g => { g with
    pos := List.range g.replicas, restarts := if n = 1 then 0 else g.restarts + 1 })

/-! ### Sweeps -/

/-- Whether every SC of a model runs the request's sweeps (R191). -/
def State.sitesReady (s : State) (id : Nat) (m : Model) : Bool :=
  m.sites.all (fun x => decide ((s.comp.suas.get x.sc).running = some id))

/-- Whether the request's last position map has reached every SC (R82). -/
def State.mapArrived (s : State) (id : Nat) : Bool :=
  !s.allPackets.any (fun p => match p.payload with
    | .posMap q _ => q == id
    | _ => false)

/-- SWEEP_START (R69): once every SC has finished the sweep before, at a tick boundary in a reproducible mode or a scheduled
region; a segment's first sweep follows its re-initialisation and evaluates in full (R55, R75). A REPLAY of step 0 stops before its
first update (R398). -/
def execSweepStart (req : Nat) (s : State) : Out :=
  .next (s.withProg req (fun r g m s =>
    let p := parseSpr g.spr
    let n := g.n + 1
    let boundary := r.reproducible || r.srid.isSome
    let due := !g.sweeping && !g.roundDue && decide (n ≤ p.sweeps) && s.sitesReady r.id m && s.mapArrived r.id
      && (!r.live || g.liveKey.isSome)
      && (!boundary || decide (g.n = 0) || decide (g.endTick < s.extTick (nodeDie r.lead)))
    whenB due s (fun s =>
      let s1 := if p.segStart n = n then s.startSegment r g m n else s
      let full := ((s1.findModel m.part m.id).map (·.fullNext)).getD false
      if g.stopAt = some 0 then (s1.modProg r.id (fun g => { g with stopped := true })).releaseSuas r.id
      else (s1.modModel m.part m.id (fun k => { k with fullNext := false })).modProg r.id (fun g => { g with
        n := n, sweeping := true, full := full, clsDone := .const 0, sent := .const 0, exch := .const .idle
        seqPos := .const 0, repSent := .const 0, owed := [] }))))

/-- A unit's update in one replica (R60, R61). -/
structure UnitFlip where
  u : Nat
  rep : Nat
  old : Nat
  new : Nat
deriving DecidableEq, Repr

/-- The new state a unit draws in a replica from the present fields and states (R60 to R62). -/
def State.drawUnit (s : State) (r : Request) (g : Program) (m : Model) (t : Site) (u rep : Nat) : Nat :=
  let p := parseSpr g.spr
  let b := p.betaAt g.betas g.n (g.pos.getD rep 0)
  let w := zcgUnitWord .update (g.key r) (s.gidx t u) g.n rep
  if t.h.potts then pottsUpdate (s.pottsFields m t u rep) t.h.scale b w
  else b2n (binaryUpdate ((s.comp.suas.get t.sc).fields.get (t.slot u rep)) t.h.scale b w)

/-- The fields of a class's binary units are evaluated in full (R55, R66). -/
def State.evalFields (s : State) (m : Model) (t : Site) (reps us : List Nat) : State :=
  if t.h.potts then s
  else us.foldl (fun s u => reps.foldl (fun s rep =>
    let h := s.fullField m t u rep
    s.modSua t.sc (fun k => { k with fields := k.fields.set (t.slot u rep) h })) s) s

/-- The flips of units that update at once (R63, R68); clamped units are never updated (R43). -/
def State.drawFlips (s : State) (r : Request) (g : Program) (m : Model) (t : Site) (reps us : List Nat) : List UnitFlip :=
  (us.filter (fun u => !(s.unitHdr t u).clamp)).flatMap (fun u => reps.filterMap (fun rep =>
    let old := s.unitState t u rep
    let new := s.drawUnit r g m t u rep
    if old = new then none else some ⟨u, rep, old, new⟩))

/-- A flip record (R65). -/
def flipRecord (new rep halo : Nat) : Nat := new % 16 * 2 ^ 28 + rep % 64 * 2 ^ 22 + halo % 2 ^ 15

/-- A flip takes effect on its SC: the new state, local upkeep (R54), and one record per export (R64). -/
def State.applyFlip (s : State) (r : Request) (m : Model) (t : Site) (f : UnitFlip) : State :=
  let s1 := (s.setUnit t f.u f.rep f.new).upkeep t (s.unitEntries t f.u) f.rep f.old f.new
  let es := s.exportsOf t (s.unitHdr t f.u)
  let s2 := es.foldl (fun s e =>
    s.send (scNode t.sc) (.node (scNode e.1)) 1 1 (some r.part) (some r.id) (.flip m.id r.id (flipRecord f.new f.rep e.2))) s1
  s2.modProg r.id (fun g => { g with
    sent := g.sent.modify t.sc (· + es.length), repSent := g.repSent.modify f.rep (· + es.length) })

/-- A halo copy takes a new state, and its upkeep is applied through the halo's list (R54, R65). -/
def State.haloFlip (s : State) (m : Model) (t : Site) (halo rep new : Nat) : State :=
  let k := s.findModel m.part m.id
  let old := ((k.getD m).halo).get (t.sc, halo, rep)
  let e := s.haloEnt t halo
  (s.modModel m.part m.id (fun k => { k with halo := k.halo.set (t.sc, halo, rep) new })).upkeep t (s.entries t e.1 e.2.1) rep old new

/-- A list with an element inserted after those of a smaller or equal key. -/
def insertKey {A : Type} (k : A → Nat) (x : A) : List A → List A
  | [] => [x]
  | y :: ys => if k x < k y then x :: y :: ys else y :: insertKey k x ys

/-- A list in ascending order of a key, elements of one key in their order. -/
def sortKey {A : Type} (k : A → Nat) (l : List A) : List A := l.foldl (fun acc x => insertKey k x acc) []

/-- The units of a model with their sites, in ascending global index (R67). -/
def State.indexOrder (s : State) (m : Model) : List (Nat × Site × Nat) :=
  let all := m.sites.flatMap (fun x => let t := s.siteOf x; (List.range t.h.nLocal).map (fun u => (s.gidx t u, t, u)))
  sortKey (fun x => x.1) all

/-- One update of sequential order (R67): a unit in one replica; its flip goes to the SCs that hold it in their halo. -/
def State.seqUpdate (s : State) (r : Request) (g : Program) (m : Model) (t : Site) (u rep : Nat) : State :=
  let m1 := (s.findModel m.part m.id).getD m
  let s1 := if g.full then s.evalFields m1 t [rep] [u] else s
  (s1.drawFlips r g m1 t [rep] [u]).foldl (fun s f => s.applyFlip r m t f) s1

/-- A replica goes on along the units that are left in its sweep, until a flip of it is in flight or the next unit's SC has not begun
(R67). -/
def State.seqRun (r : Request) (m : Model) (rep : Nat) : List (Nat × Site × Nat) → State → State
  | [], s => s
  | x :: xs, s =>
    match (s.findReq r.id).bind (·.prog) with
    | none => s
    | some g =>
      if g.clsDone.get x.2.1.sc = 0 ∨ g.repSent.get rep ≠ 0 then s
      else State.seqRun r m rep xs ((s.seqUpdate r g m x.2.1 x.2.2 rep).modProg r.id (fun g => { g with seqPos := g.seqPos.modify rep (· + 1) }))

/-- A replica goes on from where it stands (R67). -/
def State.seqGo (s : State) (r : Request) (m : Model) (rep : Nat) : State :=
  withSome ((s.findReq r.id).bind (·.prog)) s (fun g s => State.seqRun r m rep ((s.indexOrder m).drop (g.seqPos.get rep)) s)

/-- Whether every replica has passed every unit, where the order is sequential (R67). -/
def State.seqDone (s : State) (g : Program) (m : Model) : Bool :=
  !(m.sites.any (fun x => decide ((s.siteOf x).h.order = 1)))
    || (List.range g.replicas).all (fun rep => decide ((s.indexOrder m).length ≤ g.seqPos.get rep))

/-- An SC takes up a sequential sweep (R67): replicas go on independently. -/
def State.seqStart (s : State) (r : Request) (g : Program) (m : Model) (t : Site) : State :=
  let s1 := s.modProg r.id (fun g => { g with clsDone := g.clsDone.set t.sc 64 })
  (List.range g.replicas).foldl (fun s rep => s.seqGo r m rep) s1

/-! ### Class phases -/

/-- The router whose Beacon unit holds a model's barrier, its lead SC's, and the counter's number (R64). -/
def Model.barrier (m : Model) : Nat × Nat := (scNode ((m.sites.head?.map (·.sc)).getD 0), Config.suaCounter m.id % 16)

/-- An SUA arrives at its model's barrier, as a core does (R64, R186, R188). -/
def State.suaArrival (s : State) (r : Request) (m : Model) (sc : Nat) : State :=
  let tag := s.net.nextId
  let n := scNode sc
  let s1 := s.send n (.node m.barrier.1) 0 1 (some r.part) (some r.id) (.beacon (.arrive m.barrier.2 m.sites.length) (.sua sc r.id) tag)
  (s1.modNet (fun k => { k with waiting := k.waiting ++ [⟨tag, .sua sc r.id, some r.id, m.barrier.1, s.tickOf (nodeDie n), 7, 0⟩] })).modProg
    r.id (fun g => { g with exch := g.exch.set sc .arriving })

/-- The exchange of an SC's class goes on (R64): with no record of it in flight, the SUA arrives at the barrier. -/
def State.closeExchange (s : State) (r : Request) (m : Model) (sc : Nat) : State :=
  withSome ((s.findReq r.id).bind (·.prog)) s (fun g s =>
    if g.sent.get sc = 0 then s.suaArrival r m sc else s.modProg r.id (fun g => { g with exch := g.exch.set sc .records }))

/-- Whether the exchange of an SC's last class is complete for every SC of the model (R64): none has been begun, or the barrier's
generation is no longer that of the SC's arrival. -/
def State.exchanged (s : State) (g : Program) (m : Model) (sc : Nat) : Bool :=
  match g.exch.get sc with
  | .idle => true
  | .arrived k => decide ((s.net.counters.get m.barrier).gen ≠ k)
  | _ => false

/-- The answer to an SUA's arrival (R186, R188): the generation before it. One that traps ends the request with CORE_TRAP and XZ_BARRIER,
as a core's would. -/
def State.barrierAnswer (s : State) (sc req tag : Nat) (a : BAns) : State :=
  let s1 := s.modNet (fun n => { n with waiting := n.waiting.filter (fun w => !(w.tag == tag)) })
  match a with
  | .value v => s1.modProg req (fun g => { g with exch := g.exch.modify sc (fun e => if e = .arriving then .arrived (v.setWidth 16) else e) })
  | .poison => s1.endReq req .memPoison 0 0
  | .fenced => s1.endReq req .netDestFenced 0 0
  | _ => s1.endReq req .coreTrap 0 (26 * 2 ^ 24)

/-- The class phase of an SC (R64, R66, R68): fields in a full sweep, updates, upkeep of its own flips and of those that came before its
updates, and the exchange of its flips. -/
def State.classPhase (s : State) (r : Request) (g : Program) (m : Model) (t : Site) (cls : Nat) : State :=
  let us := s.classUnits t cls
  let reps := List.range g.replicas
  let s1 := if g.full then s.evalFields m t reps us else s
  let s2 := (s1.drawFlips r g m t reps us).foldl (fun s f => s.applyFlip r m t f) s1
  let mine := g.owed.filter (fun o => o.sc == t.sc)
  let s3 := mine.foldl (fun s o => s.haloFlip m t o.idx o.rep o.state) s2
  (s3.modProg r.id (fun g => { g with
    clsDone := g.clsDone.set t.sc (if t.h.order = 2 then 64 else cls + 1), owed := g.owed.filter (fun o => !(o.sc == t.sc))
    nonGibbs := g.nonGibbs || decide (t.h.order = 2) })).closeExchange r m t.sc

/-- An SUA reads its slots and words of its coupling store: an uncorrectable error in them ends the request (R502, R514). -/
def State.suaReads (s : State) (r : Request) (m : Model) (sc : Nat) (ranges : List (Nat × Nat)) (f : State → State) : State :=
  let k := s.comp.suas.get sc
  if k.ue then ((s.modSua sc (fun k => { k with ue := false })).needFull m).endReq r.id .memUe 0 0
  else match s.demandWords (some r.part) (s.cstMarks sc ranges) with
    | (true, s1) => s1.endReq r.id .memPoison 0 0
    | (false, s1) => f s1

/-- Whether a class may begin on an SC (R64, R67, R68): in chromatic order, once the exchange of the class before is complete for every
SC. -/
def State.phaseDue (s : State) (g : Program) (m : Model) (t : Site) (cls : Nat) : Bool :=
  g.sweeping && decide (g.clsDone.get t.sc = cls) && (match t.h.order with
    | 0 => decide (cls < t.h.classes) && s.exchanged g m t.sc
    | _ => decide (cls = 0))

/-- CLASS_PHASE_START (R64): class `cls` of the SC's running request begins. In sequential order the SC takes up its part of the sweep
(R67). -/
def execClassPhaseStart (sc : ScId) (cls : Fin 64) (s : State) : Out :=
  .next (withSome (s.comp.suas.get sc.val).running s (fun id s => s.withProg id (fun r g m s =>
    withSome (s.modelOn m sc) s (fun t s =>
      whenB (s.phaseDue g m t cls.val) s (fun s =>
        let us := if t.h.order = 1 then List.range t.h.nLocal else s.classUnits t cls
        s.suaReads r m sc.val ((t.off, 64) :: us.flatMap (s.unitRanges t)) (fun s =>
          if t.h.order = 1 then s.seqStart r g m t else s.classPhase r g m t cls))))))

/-- DENSE_CONTRIBUTION (R57): the difference to the last contribution is added to the field, and the new value becomes the
shadow. -/
def execDenseContribution (sc : ScId) (s : State) : Out :=
  .next (match s.comp.denseIn.get sc.val with
    | [] => s
    | d :: ds =>
      let s1 := s.modComp (fun k => { k with denseIn := k.denseIn.set sc.val ds })
      withSome (s.denseSlot d.part sc d.model d.unit d.rep) s1 (fun slot s =>
        s.modSua sc (fun k => { k with
          fields := k.fields.set slot (k.fields.get slot + (d.value - k.shadows.get slot)), shadows := k.shadows.set slot d.value })))

/-- The first packet of a node's inbox that satisfies `p`, and the state without it. -/
def State.takeInbox (s : State) (node : Nat) (p : Packet → Bool) : Option (Packet × State) :=
  match (s.net.inbox.get node).find? p with
  | none => none
  | some k => some (k, s.modNet (fun n => { n with inbox := n.inbox.modify node (fun l => l.eraseP p) }))

/-- Whether a packet carries a flip record. -/
def Packet.isFlip (p : Packet) : Bool :=
  match p.payload with
  | .flip .. => true
  | _ => false

/-- A flip record has come (R64, R67): its sender's exchange, or its replica, goes on with the last of them. -/
def State.flipDone (s : State) (req src rep : Nat) : State :=
  let s1 := s.modProg req (fun g => { g with sent := g.sent.modify src (· - 1), repSent := g.repSent.modify rep (· - 1) })
  s1.withProg req (fun r g m s =>
    withSome (s.modelOn m src) s (fun t s =>
      if t.h.order = 1 then s.seqGo r m rep
      else if g.exch.get src = .records ∧ g.sent.get src = 0 then s.suaArrival r m src
      else s))

/-- FLIP_RECORD_RECEIVE (R65): the new state enters the halo and upkeep follows; in synchronous order after the SC's own
updates (R68). Its sender's exchange goes on. A poisoned record ends the request (R315). -/
def execFlipRecordReceive (sc : ScId) (s : State) : Out :=
  .next (withSome (s.takeInbox (scNode sc) Packet.isFlip) s (fun x _ =>
    match x.1.payload with
    | .flip _ req rec =>
      let halo := bitsOf rec 14 0
      let rep := bitsOf rec 27 22
      let new := bitsOf rec 31 28
      if x.1.poison then x.2.endReq req .memPoison 0 0
      else (x.2.withProg req (fun r g m s => withSome (s.modelOn m sc) s (fun t s =>
        if t.h.order = 2 ∧ g.clsDone.get sc.val = 0 then
          s.modProg req (fun g => { g with owed := g.owed ++ [⟨sc, halo, rep, new⟩] })
        else s.suaReads r m sc.val (s.haloRanges t halo) (fun s => s.haloFlip m t halo rep new)))).flipDone req
          ((scAt x.1.src).getD 0) rep
    | _ => x.2))

/-! ### The end of a sweep -/

/-- The lowest energy of an energy point, the lowest ladder position first (R90). -/
def lowestOf (ds : List Int) (pos : List Nat) : Option (Int × Nat × Nat) :=
  (List.range pos.length).foldl (fun b k =>
    let rep := holder pos k
    let d := ds.getD rep 0
    match b with
    | some (d', _, _) => if d < d' then some (d, k, rep) else b
    | none => some (d, k, rep)) none

/-- An energy point (R78, R79, R90, R91): the doubled energies, the best state and the trace entry. -/
def State.energyPoint (s : State) (r : Request) (g : Program) (m : Model) : State :=
  let p := parseSpr g.spr
  let l := s.progSections r g m
  let ds := (List.range g.replicas).map (s.energy m)
  let best := match lowestOf ds g.pos, g.best with
    | some (d, k, rep), some (d', b) => if d < d' then some (d, g.n, k, rep, s.globalStates m p.nGlobal rep) else some (d', b)
    | some (d, k, rep), none => some (d, g.n, k, rep, s.globalStates m p.nGlobal rep)
    | none, b => b
  let traceOn := bitOf p.flags 4
  let room := decide (g.trace < l.traces)
  let s1 := s.modProg r.id (fun g => { g with
    energies := ds, energyAt := some g.n, best := best, trace := if traceOn && room then g.trace + 1 else g.trace
    traceFull := g.traceFull || (traceOn && !room) })
  if traceOn && room then
    s1.suaWrite (m.writer r) r.id (r.outVa + l.trace + g.trace * p.traceBytes g.replicas)
      (leBytes 4 g.n ++ zeros 12 ++ (p.marked g.replicas).flatMap (fun k => leBytes 16 (ofSInt 128 (ds.getD (holder g.pos k) 0))))
  else s1

/-- A counted sweep enters the marginals (R88, R89). -/
def State.countSweep (s : State) (r : Request) (g : Program) (m : Model) : State :=
  let p := parseSpr g.spr
  let k := s.modelKind m
  let w := if k.1 then k.2 else 1
  let hits := ((p.marked g.replicas).zipIdx).flatMap (fun x =>
    ((s.globalStates m p.nGlobal (holder g.pos x.1)).zipIdx).filterMap (fun y =>
      if k.1 then some (x.2 * p.nGlobal * w + y.2 * w + y.1)
      else if y.1 = 1 then some (x.2 * p.nGlobal + y.2) else none))
  s.modProg r.id (fun g => { g with
    counted := g.counted + 1
    marg := if bitOf p.flags 2 then hits.foldl (fun t i => t.set i (satTo (2 ^ 32 - 1) (t.get i + 1))) g.marg else g.marg
    margSat := g.margSat || (bitOf p.flags 2 && hits.any (fun i => decide (g.marg.get i = 2 ^ 32 - 1))) })

/-- A sampled sweep's records, one per marked position (R88, R91); D only at an energy point (R86). -/
def State.sampleSweep (s : State) (r : Request) (g : Program) (m : Model) (ds : Option (List Int)) : State :=
  let p := parseSpr g.spr
  let l := s.progSections r g m
  let k := s.modelKind m
  let rb := recordBytes p.nGlobal k.1
  (p.marked g.replicas).foldl (fun s pos =>
    match (s.findReq r.id).bind (·.prog) with
    | none => s
    | some h =>
      if l.samples ≤ h.samples then s.modProg r.id (fun g => { g with samplesFull := true })
      else
        let rep := holder h.pos pos
        (s.suaWrite (m.writer r) r.id (r.outVa + l.samp + h.samples * rb)
          (stateRecord h.n pos rep h.nonGibbs ((ds.map (fun d => d.getD rep 0)).getD 0) k.1 (s.globalStates m p.nGlobal rep))).modProg r.id
          (fun g => { g with samples := g.samples + 1 })) s

/-- A program's sweeps have ended: its position map stays with the model (R485), its SCs take the next request's (R70). -/
def State.finishProg (s : State) (id : Nat) (m : Model) : State :=
  let pos := (((s.findReq id).bind (·.prog)).map (·.pos)).getD []
  ((s.modProg id (fun g => { g with finished := true })).modModel m.part m.id (fun k => { k with pos := pos })).releaseSuas id

/-- What follows a sweep and its exchange round: the end of the program, or a new segment's live key (R110). -/
def State.closeSweep (s : State) (r : Request) (m : Model) (n : Nat) : State :=
  let p := parseSpr ((r.prog.map (·.spr)).getD [])
  if p.sweeps ≤ n then s.finishProg r.id m
  else if p.segStart (n + 1) = n + 1 then s.modProg r.id (fun g => { g with liveKey := none })
  else s

/-- SWEEP_END (R395): once every SC has done every class and every flip record has arrived; the energy point, the counts and the
samples follow (R78, R89). A REPLAY that stops at this step stops before them (R398). -/
def execSweepEnd (req : Nat) (s : State) : Out := heldWait s fun s =>
  .next (s.withProg req (fun r g m s =>
    let p := parseSpr g.spr
    let done := g.sweeping && g.owed.isEmpty && s.seqDone g m && m.sites.all (fun x =>
      let h := (s.siteOf x).h
      decide (h.classes ≤ g.clsDone.get x.sc) && s.exchanged g m x.sc && decide (g.sent.get x.sc = 0))
    whenB done s (fun s =>
      let s0 := s.modProg r.id (fun g => { g with sweeping := false, endTick := s.extTick (nodeDie r.lead) })
      if g.stopAt = some g.n then (s0.modProg r.id (fun g => { g with stopped := true })).releaseSuas r.id
      else
        let s1 := if p.energyPoint g.n then s0.energyPoint r g m else s0
        let ds := if p.energyPoint g.n then (((s1.findReq r.id).bind (·.prog)).map (·.energies)) else none
        let s2 := if p.counted g.n then s1.countSweep r g m else s1
        let s3 := if p.sampled g.n then s2.sampleSweep r g m ds else s2
        let round := decide (p.exchEvery ≠ 0) && decide (g.n % p.exchEvery = 0)
        if round then s3.modProg r.id (fun g => { g with roundDue := true }) else s3.closeSweep r m g.n)))

/-- The pairs of an exchange round (R80). -/
def exchangePairs (k replicas : Nat) : List Nat :=
  (List.range (replicas - 1)).filter (fun a => decide (a % 2 = k % 2))

/-- The accepted swaps applied together to the position of each replica (R82). -/
def swapPos (pos : List Nat) (swaps : List Nat) : List Nat :=
  pos.map (fun p => if swaps.contains p then p + 1 else if p ≠ 0 ∧ swaps.contains (p - 1) then p - 1 else p)

/-- `n` counts, with one more at the listed indices. -/
def bumpAt (n : Nat) (is : List Nat) (l : List Nat) : List Nat :=
  (List.range n).map (fun i => l.getD i 0 + b2n (is.contains i))

/-- The lead SC multicasts a position map to a model's SCs (R82, R300): to each die the least rectangle that holds the model's SCs there, so
that it lies within the region (R302). -/
def State.sendMap (s : State) (r : Request) (m : Model) (pos : List Nat) : State :=
  let ns := m.sites.map (fun x => scNode x.sc)
  if ns.length < 2 then s
  else (List.range 4).foldl (fun s d =>
    let on := ns.filter (fun n => nodeDie n == d)
    let xs := on.map nodeX
    let ys := on.map nodeY
    if on.isEmpty then s
    else s.send (ns.headD 0) (.rect (xs.foldl min 7) (xs.foldl max 0) (ys.foldl min 7) (ys.foldl max 0) (2 ^ d) (some .sc)) 0 1
      (some r.part) (some r.id) (.posMap r.id pos)) s

/-- EXCHANGE_ROUND (R80 to R82): every pair is decided from the energy point just before, the swaps are applied together, and the
lead SC multicasts the new map. -/
def execExchangeRound (req : Nat) (s : State) : Out :=
  .next (s.withProg req (fun r g m s =>
    whenB g.roundDue s (fun s =>
      let p := parseSpr g.spr
      let pairs := exchangePairs (g.n / p.exchEvery) g.replicas
      let e := (m.sites.head?.map (fun x => (s.siteOf x).h.scale)).getD 0
      let d (k : Nat) : Int := g.energies.getD (holder g.pos k) 0
      let swaps := pairs.filter (fun a => exchangeAccept (d a) (d (a + 1)) (p.betaAt g.betas g.n a) (p.betaAt g.betas g.n (a + 1))
        e (zcgExchangeWord (g.key r) a g.n))
      let pos := swapPos g.pos swaps
      let s1 := s.modProg r.id (fun g => { g with
        pos := pos, roundDue := false, exchRounds := g.exchRounds + 1
        attempts := bumpAt (g.replicas - 1) pairs g.attempts, accepts := bumpAt (g.replicas - 1) swaps g.accepts })
      (s1.sendMap r m pos).closeSweep r m g.n)))

end Sys2Proof.Machine
end

