-- ==== Sys2Proof/Machine/Views.lean ====
section
/-! DEFINITION. Command records and tensor descriptors as the engines use them: reading a record (R193, R641), elements through a
descriptor (R271 to R273), owner tables (R278, R279), local-only pieces (R280), and ordered writes (R277). -/

namespace Sys2Proof.Machine

/-- How the reading of a command's record ended: its bytes, a refusal with a code and the STATUS_VA to report it at, or a record
that cannot be read (R193). -/
inductive RecRead where
  | ok (bytes : List Byte)
  | refuse (c : Code) (statusVa : Nat)
  | unread (c : Code)
deriving DecidableEq, Repr

/-- A command's record is read at the head of its queue (R193, R502, R641): `off` is where STATUS_VA lies. A failed check is
logged with the record's VA. -/
def State.readRecord (s : State) (x : Accessor) (c : CmdRef) (len off : Nat) : RecRead × State :=
  let x := { x with logVa := some c.va }
  if c.ue then
    match s.agReadClean x (c.va + off) 8 with
    | (.error e, s1) => (.unread e, s1)
    | (.ok b, s1) => (.refuse .memUe (leVal b), s1)
  else match s.agRead x c.va len with
    | (.error e, s1) => (.unread e, s1)
    | (.ok r, s1) =>
      if r.poison then
        (match s1.agReadClean x (c.va + off) 8 with
         | (.error e, s2) => (.unread e, s2)
         | (.ok b, s2) => (.refuse .memPoison (leVal b), s2))
      else (.ok r.bytes, s1)

/-- The issuing request ends where a command ends with a data error (R502, R514, R641). -/
def State.dataError (s : State) (node : Nat) (x : CmdRef) (c : Code) (va : Nat) : State :=
  match c with
  | .memPoison => s.poisonReq node x.req va
  | .memUe => s.endReq x.req .memUe 0 0
  | _ => s

/-! ### Elements -/

/-- What a line of a view must translate to: anywhere, the memory of the unit at a node (R279), or a frame of a die (R280). -/
inductive HomeRule where
  | any
  | node (n : Nat)
  | die (d : Nat)
deriving DecidableEq, Repr

/-- Whether a target obeys a rule. -/
def HomeRule.ok (h : HomeRule) (t : Target) : Bool :=
  match h, t with
  | .any, _ => true
  | _, .host .. => false
  | .node n, .dev a => decide (placeOf a ≠ .hole) && decide (homeNode a = n)
  | .die d, .dev a => decide (nodeDie (homeNode a) = d)

/-- A line of a view passes the Gatehouse and translates where it must (R279, R280): its target. -/
def State.checkLine (s : State) (x : Accessor) (k : AccKind) (h : HomeRule) (va : Nat) : Except Code Target × State :=
  match s.gate x k false va with
  | (.error c, s1) => (.error c, s1.gateLog x va c)
  | (.ok t, s1) => if h.ok t then (.ok t, s1) else (.error .tdOwner, s1.gateLog x va .tdOwner)

/-- Every line of a run passes. -/
def State.checkLines (s : State) (x : Accessor) (k : AccKind) (h : HomeRule) : List (Nat × Nat) → Option Code × State
  | [] => (none, s)
  | p :: ps =>
    match s.checkLine x k h p.1 with
    | (.error c, s1) => (some c, s1)
    | (.ok _, s1) => s1.checkLines x k h ps

/-- Ticks that an access waits for a refresh of its eDRAM bank (R219). -/
def State.refreshWait (s : State) (t : Target) : Nat :=
  match t with
  | .dev a =>
    (match placeOf a with
     | .edram ms off =>
       let now := 4 * s.tickOf (ms / 8)
       let fin := s.mem.edramBusy.get (32 * ms + off / 1024 % 32)
       if now < fin ∧ fin - now < 64000 then (fin - now + 3) / 4 else 0
     | _ => 0)
  | .host .. => 0

/-- A 64-byte line that a consumer has read (R272): its DVA, its bytes, whether it held a poisoned word, and the ticks it waited for a
refresh. -/
structure LineBuf where
  va : Nat
  bytes : List Byte
  poison : Bool
  wait : Nat
deriving DecidableEq, Repr

/-- What a consumer has read and kept: owner entries (R279), and the lines of the elements it reads together (R272). -/
structure ReadBuf where
  owners : List OwnerEnt
  lines : List LineBuf
deriving DecidableEq, Repr

/-- The line of an address is read, unless it is among those already read (R272). -/
def State.fetchLine (s : State) (x : Accessor) (h : HomeRule) (va : Nat) (buf : List LineBuf) : Except Code (List LineBuf) × State :=
  let la := va / 64 * 64
  if buf.any (fun l => l.va == la) then
    (match s.checkLine x .read h va with
     | (.error c, s1) => (.error c, s1)
     | (.ok _, s1) => (.ok buf, s1))
  else match s.checkLine x .read h va with
    | (.error c, s1) => (.error c, s1)
    | (.ok t, s1) =>
      match s1.readLine { x with logVa := some va } la 64 with
      | (.error c, s2) => (.error c, s2)
      | (.ok r, s2) => (.ok (⟨la, r.bytes, r.poison, s.refreshWait t⟩ :: buf), s2)

/-- The lines of a run. -/
def State.fetchLines (s : State) (x : Accessor) (h : HomeRule) : List (Nat × Nat) → List LineBuf → Except Code (List LineBuf) × State
  | [], buf => (.ok buf, s)
  | p :: ps, buf =>
    match s.fetchLine x h p.1 buf with
    | (.error c, s1) => (.error c, s1)
    | (.ok b, s1) => s1.fetchLines x h ps b

/-- Bytes of a run, from lines that have been read; whether one of the lines was poisoned. -/
def bufBytes (buf : List LineBuf) (ps : List (Nat × Nat)) : List Byte × Bool :=
  let line (va : Nat) : Option LineBuf := buf.find? (fun l => l.va == va / 64 * 64)
  (ps.flatMap (fun p => ((((line p.1).map (·.bytes)).getD []).drop (p.1 % 64)).take p.2), ps.any (fun p => (line p.1).any (·.poison)))

/-- The entry of a block, read once per command and kept (R279). -/
def State.ownerEntry (s : State) (x : Accessor) (ow : List OwnerEnt) (d : Td) (block : Nat) :
    Except Code OwnerEnt × List OwnerEnt × State :=
  match ow.find? (fun e => e.tableVa == d.ownerVa && e.block == block) with
  | some e => (.ok e, ow, s)
  | none =>
    match s.agReadClean x (d.ownerVa + 16 * block) 16 with
    | (.error c, s1) => (.error c, ow, s1)
    | (.ok b, s1) =>
      let e : OwnerEnt := ⟨d.ownerVa, block, byteAt b 0, bitOf (byteAt b 1) 0, fieldLe b 8 8⟩
      (.ok e, ow ++ [e], s1)

/-- Where an element of a view lies: address and bit, and the rule its lines obey. -/
structure ElemAt where
  addr : Nat
  bit : Nat
  rule : HomeRule
deriving DecidableEq, Repr

/-- An in-bounds address below 0 or at or above 2^57 is GH_RANGE (R273). -/
def State.inRange (s : State) (x : Accessor) (addr : Int) (bit n : Nat) (rule : HomeRule) : Except Code (Option ElemAt) × State :=
  if addr < 0 ∨ (2 ^ 57 : Int) < addr + n then (.error .ghRange, s.gateLog x (ofSInt 64 addr) .ghRange)
  else (.ok (some ⟨addr.toNat, bit, rule⟩), s)

/-- Bytes an element's access touches: the byte of its bit for SPIN1 (R269). -/
def Td.elemBytes (d : Td) : Nat := if d.ty = .spin1 then 1 else d.ty.bytes

/-- `locate` of R271; none where the element is out of bounds. -/
def State.locateElem (s : State) (x : Accessor) (ow : List OwnerEnt) (d : Td) (idx : List Nat) :
    Except Code (Option ElemAt) × List OwnerEnt × State :=
  match d.locate idx with
  | .out => (.ok none, ow, s)
  | .at a b =>
    let r := s.inRange x a b d.elemBytes (if d.dist = 2 then .die (nodeDie x.node) else .any)
    (r.1, ow, r.2)
  | .owned blk off b =>
    match s.ownerEntry x ow d blk with
    | (.error c, ow1, s1) => (.error c, ow1, s1)
    | (.ok e, ow1, s1) =>
      if e.present then
        let r := s1.inRange x (e.base + off) b d.elemBytes (.node e.node)
        (r.1, ow1, r.2)
      else (.ok none, ow1, s1)

/-- An element of a view, as its encoding, with the address it is poisoned at (R270 to R272): its lines are read, but for those already
kept. -/
def State.readElem (s : State) (x : Accessor) (b : ReadBuf) (d : Td) (idx : List Nat) :
    Except Code (Nat × Option Nat) × ReadBuf × State :=
  match s.locateElem x b.owners d idx with
  | (.error c, ow1, s1) => (.error c, { b with owners := ow1 }, s1)
  | (.ok none, ow1, s1) => (.ok (d.fillBits, none), { b with owners := ow1 }, s1)
  | (.ok (some e), ow1, s1) =>
    let n := d.elemBytes
    let ps := linePieces (n / 64 + 2) e.addr n
    match s1.fetchLines x e.rule ps b.lines with
    | (.error c, s2) => (.error c, { b with owners := ow1 }, s2)
    | (.ok buf, s2) =>
      let r := bufBytes buf ps
      let v := leVal r.1
      (.ok (if d.ty = .spin1 then b2n (bitOf v e.bit) else v, if r.2 then some e.addr else none), ⟨ow1, buf⟩, s2)

/-- Elements in order, each line read once; poison is logged and ends the command (R514). -/
def State.readAll (s : State) (x : Accessor) (d : Td) : List (List Nat) → ReadBuf → Except Code (List Nat) × ReadBuf × State
  | [], b => (.ok [], b, s)
  | i :: is, b =>
    match s.readElem x b d i with
    | (.error c, b1, s1) => (.error c, b1, s1)
    | (.ok (_, some va), b1, s1) => (.error .memPoison, b1, s1.logPoison (nodeDie x.node) x.node x.req va)
    | (.ok (v, none), b1, s1) =>
      match s1.readAll x d is b1 with
      | (.error c, b2, s2) => (.error c, b2, s2)
      | (.ok vs, b2, s2) => (.ok (v :: vs), b2, s2)

/-- Elements that a consumer reads together, in order, with the owner entries it keeps. -/
def State.readElems (s : State) (x : Accessor) (ow : List OwnerEnt) (d : Td) (is : List (List Nat)) :
    Except Code (List Nat) × List OwnerEnt × State :=
  let r := s.readAll x d is ⟨ow, []⟩
  (r.1, r.2.1.owners, r.2.2)

/-- A descriptor is read once (R275): its 256 bytes; poison or a Gatehouse failure is the code. -/
def State.readTd (s : State) (x : Accessor) (va : Nat) : Except Code Td × State :=
  match s.agReadClean x va 256 with
  | (.error c, s1) => (.error c, s1)
  | (.ok b, s1) => (.ok (parseTd va b), s1)

/-! ### Writes -/

/-- A byte to write, in its bits of `mask`, with poison. -/
structure ByteW where
  va : Nat
  b : Byte
  mask : Byte
  poison : Bool
deriving DecidableEq, Repr

/-- The bytes to write in ascending address order; a byte written later stands (R277), bit by bit under its mask. -/
def putByte (w : ByteW) : List ByteW → List ByteW
  | [] => [w]
  | v :: vs =>
    if w.va < v.va then w :: v :: vs
    else if w.va = v.va then
      ⟨w.va, (w.b &&& w.mask) ||| (v.b &&& ~~~ w.mask), w.mask ||| v.mask, if w.mask = 0xFF then w.poison else w.poison || v.poison⟩ :: vs
    else v :: putByte w vs

/-- Bytes from an address, whole. -/
def putBytes (va : Nat) (bs : List Byte) (poison : Bool) (l : List ByteW) : List ByteW :=
  (bs.zipIdx).foldl (fun l x => putByte ⟨va + x.2, x.1, 0xFF, poison⟩ l) l

/-- MEM_OOBDROP of the consumer's partition on its die counts a dropped write (R272). -/
def State.countDrop (s : State) (x : Accessor) : State := s.hwCount ⟨.memOobdrop, nodeDie x.node, x.part, 0⟩ 63 0

/-- What the placing of an element's write gives: dropped, or the bytes to write. -/
abbrev Placed := Except Code (Option (List ByteW)) × List OwnerEnt × State

/-- An element's write is placed: its lines are checked, for reading too where SPIN1 bytes are merged (R282, R283); an
out-of-bounds write is dropped and counted (R272). -/
def State.placeElem (s : State) (x : Accessor) (ow : List OwnerEnt) (d : Td) (idx : List Nat) (v : Nat) (poison : Bool)
    (l : List ByteW) : Placed :=
  match s.locateElem x ow d idx with
  | (.error c, ow1, s1) => (.error c, ow1, s1)
  | (.ok none, ow1, s1) => (.ok none, ow1, s1.countDrop x)
  | (.ok (some e), ow1, s1) =>
    let n := d.elemBytes
    let ps := linePieces (n / 64 + 2) e.addr n
    match s1.checkLines x .write e.rule ps with
    | (some c, s2) => (.error c, ow1, s2)
    | (none, s2) =>
      if d.ty = .spin1 then
        (match s2.checkLines x .read e.rule ps with
         | (some c, s3) => (.error c, ow1, s3)
         | (none, s3) =>
           let m : Byte := BitVec.ofNat 8 (2 ^ e.bit)
           (.ok (some (putByte ⟨e.addr, if v = 1 then m else 0, m, poison⟩ l)), ow1, s3))
      else (.ok (some (putBytes e.addr (leBytes n v) poison l)), ow1, s2)

/-- Merged bytes take the bits outside their masks from memory, whose lines are read once (R272, R283). -/
def State.mergeBytes (s : State) (x : Accessor) : List ByteW → List LineBuf → Except Code (List ByteW) × State
  | [], _ => (.ok [], s)
  | w :: ws, buf =>
    let rest (w : ByteW) (buf : List LineBuf) (s : State) : Except Code (List ByteW) × State :=
      match s.mergeBytes x ws buf with
      | (.error c, s1) => (.error c, s1)
      | (.ok l, s1) => (.ok (w :: l), s1)
    if w.mask = 0xFF then rest w buf s
    else match s.fetchLine x .any w.va buf with
      | (.error c, s1) => (.error c, s1)
      | (.ok b, s1) =>
        let r := bufBytes b [(w.va, 1)]
        rest ⟨w.va, (w.b &&& w.mask) ||| (r.1.headD 0 &&& ~~~ w.mask), 0xFF, w.poison || r.2⟩ b s1

/-- Sorted bytes as runs of neighbours within a 64-byte line (R272). -/
def byteRuns : List ByteW → List (Nat × List ByteW)
  | [] => []
  | w :: ws =>
    match byteRuns ws with
    | (a, r) :: rest => if a = w.va + 1 ∧ a % 64 ≠ 0 then (w.va, w :: r) :: rest else (w.va, [w]) :: (a, r) :: rest
    | [] => [(w.va, [w])]

/-- The words of a poisoned byte's target become poisoned (R285, R515). -/
def State.poisonTarget (s : State) (x : Accessor) (va : Nat) : State :=
  match (s.gate x .write false va).1 with
  | .ok (.dev a) => s.modMem (fun m => { m with mem := { m.mem with marks := m.mem.marks.set (wordAt (normAddr a)) .poison } })
  | _ => s

/-- Writes of runs, line by line; the answer is the first failure, or MEM_POISON where a partial word was poisoned (R504). -/
def State.writeRuns (s : State) (x : Accessor) : List (Nat × List ByteW) → Option Code × State
  | [] => (none, s)
  | (a, r) :: rs =>
    match s.agWriteCode x a (r.map (·.b)) with
    | (some .memPoison, s1) =>
      let t := s1.writeRuns x rs
      (some (t.1.getD .memPoison), t.2)
    | (some c, s1) => (some c, s1)
    | (none, s1) => ((r.filter (·.poison)).foldl (fun s w => s.poisonTarget x w.va) s1).writeRuns x rs

/-- The bytes gathered are written. -/
def State.flushBytes (s : State) (x : Accessor) (l : List ByteW) : Option Code × State :=
  match s.mergeBytes x l [] with
  | (.error c, s1) => (some c, s1)
  | (.ok m, s1) => s1.writeRuns x (byteRuns m)

end Sys2Proof.Machine
end

