-- ==== Sys2Proof/Machine/Tensor.lean ====
section
/-! DEFINITION. Tensor engines (R121 to R170): the command record and its checks, output tiles with their prologue,
accumulation and epilogue, COMBINE, dense delivery, and the status record. Times are TE cycles, 5 to a tick. -/

namespace Sys2Proof.Machine

/-- A TE command record (R123). -/
structure TeCmd where
  op : Nat
  aTy : Nat
  bTy : Nat
  preKind : Nat
  exact : Bool
  outFmt : Nat
  preFmt : Nat
  m : Nat
  n : Nat
  k : Nat
  terms : Nat
  aVa : Nat
  bVa : Nat
  outVa : Nat
  preVa : Nat
  chainVa : Nat
  statusVa : Nat
deriving DecidableEq, Repr

/-- The record of 128 bytes (R123); its reserved bits read as 0 (R17). -/
def parseTe (b : List Byte) : TeCmd :=
  { op := byteAt b 0, aTy := byteAt b 1, bTy := byteAt b 2, preKind := bitsOf (byteAt b 3) 2 1, exact := bitOf (byteAt b 3) 0
    outFmt := byteAt b 4, preFmt := byteAt b 5, m := fieldLe b 8 4, n := fieldLe b 12 4, k := fieldLe b 16 4
    terms := fieldLe b 20 4, aVa := fieldLe b 24 8, bVa := fieldLe b 32 8, outVa := fieldLe b 40 8, preVa := fieldLe b 48 8
    chainVa := fieldLe b 56 8, statusVa := fieldLe b 64 8 }

/-- Type of A; INT8 where the code is none. -/
def TeCmd.ty (c : TeCmd) : ElemTy := (ElemTy.ofCode c.aTy).getD .int8

/-- Whether the operands are a float type (R124). -/
def TeCmd.float (c : TeCmd) : Bool := c.ty.isFloat

/-- Rows and columns of the tile grid (R122). -/
def TeCmd.tileRows (c : TeCmd) : Nat := (c.m + 127) / 128
def TeCmd.tileCols (c : TeCmd) : Nat := (c.n + 127) / 128

/-- Tiles of a command (R122). -/
def TeCmd.tileCount (c : TeCmd) : Nat := c.tileRows * c.tileCols

/-- Stream length of a tile: K x Q (R130). -/
def TeCmd.streamLen (c : TeCmd) : Nat := c.k * cyclesPerStep c.ty c.exact

/-- Drain length of a tile (R130). -/
def TeCmd.drainLen (c : TeCmd) : Nat := if c.exact then 512 else 128

/-- The preload checks of the record (R128 check 1, R145). -/
def TeCmd.preloadOk (c : TeCmd) : Bool :=
  decide (c.preFmt ≤ 4)
    && (if c.preKind = 0 then decide (c.preFmt = 0) && decide (c.preVa = 0) else decide (c.preVa ≠ 0))
    && (decide (c.preKind = 0) || c.exact || (if c.float then decide (c.preFmt = 0 ∨ c.preFmt = 4) else decide (c.preFmt = 1 ∨ c.preFmt = 2)))

/-- The checks of a MATMUL's record (R124, R125, R128 check 1). -/
def TeCmd.matmulOk (c : TeCmd) : Bool :=
  decide (1 ≤ c.aTy ∧ c.aTy ≤ 8) && decide (1 ≤ c.bTy ∧ c.bTy ≤ 8)
    && (match ElemTy.ofCode c.aTy, ElemTy.ofCode c.bTy with
        | some a, some b => pairAllowed a b
        | _, _ => false)
    && decide (1 ≤ c.m ∧ c.m ≤ 2 ^ 24) && decide (1 ≤ c.n ∧ c.n ≤ 2 ^ 24) && decide (1 ≤ c.k) && c.preloadOk
    && (match c.outFmt with
        | 0 | 1 => true
        | 2 | 3 => !c.float
        | 4 => c.exact
        | 5 => c.exact && decide (c.aTy = 4) && decide (c.bTy = 8) && decide (c.n ≤ 128) && decide (c.chainVa = 0)
        | _ => false)
    && (decide (c.chainVa = 0) || decide (c.outFmt = 0))
    && (decide (c.terms = 0) || (c.exact && decide (c.preKind ≠ 0) && decide (c.preFmt = 3)))

/-- The checks of a COMBINE's record (R126, R128 check 1). -/
def TeCmd.combineOk (c : TeCmd) : Bool :=
  decide (c.bTy = 0) && decide (c.bVa = 0) && decide (c.chainVa = 0) && decide (c.preKind = 0) && c.preloadOk
    && (match c.aTy with
        | 7 => !c.exact && decide (c.outFmt ≤ 1)
        | 10 => !c.exact && decide (c.outFmt = 0 ∨ c.outFmt = 2 ∨ c.outFmt = 3)
        | 12 => c.exact && decide (1 ≤ c.outFmt ∧ c.outFmt ≤ 4)
        | _ => false)
    && decide (1 ≤ c.m ∧ c.m ≤ 2 ^ 24) && decide (1 ≤ c.n ∧ c.n ≤ 2 ^ 24) && decide (1 ≤ c.k ∧ c.k ≤ 4096)
    && (c.exact || decide (c.terms = 0))

/-- The element type of the output where the command has no stages (R268). -/
def TeCmd.outTy (c : TeCmd) : ElemTy :=
  match c.outFmt with
  | 0 => if c.float then .fp32 else .int48
  | 1 => .fp32
  | 2 => .int32
  | 4 => .exact72
  | _ => .int64

/-- Checks 2 to 4 of R128 and R379; none where the command may run. -/
def TeCmd.exactCode (c : TeCmd) (exactEn anyShape : Bool) : Option Code :=
  if c.exact && decide (c.op = 1) && decide (c.aTy = 7) then some .teExactFp32
  else if c.exact && !exactEn then some .teExactOff
  else if c.exact && decide (2 ^ 32 < c.terms + (if c.op = 1 then c.k + (if c.preKind ≠ 0 ∧ c.preFmt ≠ 3 then 1 else 0) else 0)) then
    some .teExactTerms
  else if !c.exact && anyShape then some .detNotExact
  else none

/-- A descriptor matches the view a command has of it (R268, R274, R276). -/
def viewOk (d : Td) (ty : ElemTy) (es : List Nat) : Bool := d.wellFormed && decide (d.ty = ty) && d.extentsAre es

/-- The extents of a preload's descriptor (R276). -/
def TeCmd.preExtents (c : TeCmd) : List Nat :=
  match c.preKind with
  | 1 => [c.n]
  | 2 => [c.m]
  | _ => [c.n, c.m]

/-- A target record of a dense list (R148): SC, first column, model, first unit, columns. -/
structure DenseTarget where
  sc : Nat
  col : Nat
  model : Nat
  unit : Nat
  cols : Nat
deriving DecidableEq, Repr

/-- Target record `n` of a dense list. -/
def denseTarget (b : List Byte) (n : Nat) : DenseTarget :=
  let o := 16 + 16 * n
  ⟨byteAt b o, byteAt b (o + 1), fieldLe b (o + 2) 2, fieldLe b (o + 4) 4, byteAt b (o + 8)⟩

/-- The targets of a dense list. -/
def denseTargets (b : List Byte) : List DenseTarget := (List.range (byteAt b 0)).map (denseTarget b)

/-- Whether a record covers a column. -/
def DenseTarget.covers (t : DenseTarget) (j : Nat) : Bool := decide (t.col ≤ j) && decide (j < t.col + t.cols)

/-- A dense list covers each column exactly once, and none beyond (R148). -/
def denseListOk (b : List Byte) (n : Nat) : Bool :=
  decide (1 ≤ byteAt b 0) && decide (byteAt b 0 ≤ 128)
    && (denseTargets b).all (fun t => decide (t.sc < 64) && decide (t.col ≤ 127) && decide (1 ≤ t.cols) && decide (t.cols ≤ 64) && decide (t.col + t.cols ≤ n))
    && (List.range n).all (fun j => decide (((denseTargets b).filter (·.covers j)).length = 1))

/-- The partition whose command this is. -/
def State.cmdPart (s : State) (node : Nat) (x : CmdRef) : Nat :=
  ((s.findReq x.req).map (·.part)).getD ((s.ownerOf node).getD 0)

/-- The accessor of a TE's command. -/
def State.teAcc (s : State) (te : Nat) (x : CmdRef) : Accessor := accessor (s.cmdPart (teNode te) x) (teNode te) .te (some x.req)

/-- The present TE cycle, counted without wrapping. -/
def State.teCycle (s : State) (te c : Nat) : Nat := 5 * s.extTick (te / 4) + c

/-- EXACT_EN of a TE (R149). -/
def State.exactEn (s : State) (te : Nat) : Bool := decide (s.appF .teModectl (te / 4) (te % 4) 0 0 0 = 1)

/-- A TE status record (R129). -/
def teStatus (code : Half) (f : TeFlags) (drop : Bool) (tiles tick : Nat) : List Byte :=
  leBytes 2 code.toNat ++ leBytes 1 (teFlagBits f drop) ++ zeros 1 ++ leBytes 4 tiles ++ leBytes 8 tick

/-- The head of a TE's queue leaves it. -/
def State.tePop (s : State) (te : Nat) : State := s.modTe te (fun t => { t with queue := t.queue.drop 1 })

/-- A TE refuses the head of its queue (R128): only its status record is written. END_TICK of a command that drained no tile is the present
tick (DESIGN CHOICE: R129 gives only that of a last drain cycle). -/
def State.teRefuse (s : State) (te : Nat) (x : CmdRef) (statusVa : Nat) (c : Code) : State :=
  let acc := s.teAcc te x
  ((s.tePop te).dataError acc.node x c x.va).writeStatus acc x statusVa
    (teStatus c.val .none false 0 (s.tickOf (te / 4))) .teCmdFormat

/-- Whether a packet carries a command of a kind. -/
def Packet.isCmd (k : CmdKind) (p : Packet) : Bool :=
  match p.payload with
  | .cmd j _ => decide (j = k)
  | _ => false

/-- TE_COMMAND_ARRIVE (R127): queued, or refused with TE_QUEUE_FULL where the queue holds 16. -/
def execTeCommandArrive (te : TeId) (s : State) : Out := heldWait s fun s =>
  .next (withSome (s.takeInbox (teNode te) (Packet.isCmd .te)) s (fun y _ =>
    match y.1.payload with
    | .cmd _ x =>
      let s1 := y.2
      if (s1.comp.tes.get te.val).queue.length < 16 then s1.modTe te (fun t => { t with queue := t.queue ++ [x] })
      else
        let acc := s1.teAcc te x
        match s1.agReadClean { acc with logVa := some x.va } (x.va + 64) 8 with
        | (.error c, s2) => s2.cmdUnreadable acc.node x c
        | (.ok b, s2) => s2.writeStatus acc x (leVal b) (teStatus Code.teQueueFull.val .none false 0 (s.tickOf (te.val / 4))) .teCmdFormat
    | _ => y.2))

/-! ### Taking a command (R128, R275) -/

/-- Whether any use in a chain is the user table (R158). -/
def ChainRec.usesTable (c : ChainRec) : Bool :=
  c.stages.any (fun s => decide (s.kind = 3 ∧ s.arg = 7)) || (decide (c.proKind = 1 ∨ c.proKind = 2) && decide (c.proAct = 7))

/-- Alignments of the table, the statistics and the vectors a chain reads (R150, R151). -/
def ChainRec.aligned (c : ChainRec) : Bool :=
  (!c.usesTable || decide (c.tableVa % 4 = 0)) && (decide (c.proKind ≠ 3) || decide (c.proVa % 8 = 0))
    && c.stages.all (fun s => match s.kind with
      | 1 | 2 => decide (s.arg = 0) || decide (s.va % 4 = 0)
      | _ => true)

/-- A state and an error or a value. -/
abbrev Res (A : Type) := Except Code A × State

/-- Sequencing of reads that may fail. -/
def Res.andThen {A B : Type} (r : Res A) (f : A → State → Res B) : Res B :=
  match r with
  | (.error c, s) => (.error c, s)
  | (.ok a, s) => f a s

/-- A failed check. -/
def failUnless (c : Bool) (e : Code) (s : State) : Res Unit := (if c then .ok () else .error e, s)

/-- Descriptors read in order. -/
def State.readTds (s : State) (x : Accessor) : List Nat → Res (List Td)
  | [] => (.ok [], s)
  | va :: vas => Res.andThen (s.readTd x va) (fun d s => (s.readTds x vas).andThen (fun ds s => (.ok (d :: ds), s)))

/-- The chain of a command, where it has one (R150, R161). -/
def State.readChain (s : State) (x : Accessor) (c : TeCmd) : Res (Option ChainRec) :=
  if c.chainVa = 0 then (.ok none, s)
  else if c.chainVa % 64 ≠ 0 then (.error .teCmdFormat, s)
  else Res.andThen (s.agReadClean x c.chainVa 192) (fun b s =>
    let k := parseChain b
    (failUnless (chainValid k c.ty c.outFmt && k.aligned) .teCmdFormat s).andThen (fun _ s => (.ok (some k), s)))

/-- The element type of the output descriptor (R155, R268). -/
def outElem (c : TeCmd) (k : Option ChainRec) : Option ElemTy :=
  match k.bind (fun k => k.stages.getLast?) with
  | some st => stageElemTy st.fmt
  | none => some c.outTy

/-- Words of `n` bytes from bytes. -/
def wordsLe (n : Nat) (bs : List Byte) : List Nat := (chunksOf n bs).map leVal

/-- The dense list of a DENSE64 command, read once (R148): its header, then its records. -/
def State.readDense (s : State) (x : Accessor) (c : TeCmd) : Res (List Byte) :=
  if c.outFmt ≠ 5 then (.ok [], s)
  else if c.outVa % 16 ≠ 0 then (.error .teCmdFormat, s)
  else Res.andThen (s.agReadClean x c.outVa 16) (fun h s =>
    if byteAt h 0 = 0 ∨ 128 < byteAt h 0 then (.error .teCmdFormat, s)
    else Res.andThen (s.agReadClean x (c.outVa + 16) (16 * byteAt h 0)) (fun b s => (.ok (h ++ b), s)))

/-- A MATMUL's checks, and the run it begins (R128, R164, R275). -/
def State.loadMatmul (s : State) (te : Nat) (x : CmdRef) (rec : List Byte) : Res TeRun :=
  let c := parseTe rec
  let acc := s.teAcc te x
  let fmt := Code.teCmdFormat
  let any := (s.findReq x.req).any (fun r => decide (r.mode = .any))
  (failUnless c.matmulOk fmt s).andThen fun _ s =>
  (s.readChain acc c).andThen fun k s =>
  (s.readTds acc [c.aVa, c.bVa]).andThen fun ab s =>
  (s.readDense acc c).andThen fun list s =>
  (s.readTds acc (if c.outFmt = 5 then [] else [c.outVa])).andThen fun out s =>
  (s.readTds acc (if c.preKind = 0 then [] else [c.preVa])).andThen fun pre s =>
  (s.readTds acc (((k.map (·.stages)).getD []).filterMap (fun st => if st.kind = 7 then some st.va else none))).andThen fun res s =>
  let ok := (match ab with
      | [a, b] => viewOk a c.ty [c.k, c.m] && viewOk b ((ElemTy.ofCode c.bTy).getD .int8) [c.n, c.k]
      | _ => false)
    && (match out with
        | [o] => o.wellFormed && decide (some o.ty = outElem c k) && o.extentsAre [c.n, c.m]
        | _ => denseListOk list c.n)
    && pre.all (fun p => viewOk p ((preloadTy c.preFmt).getD .fp32) c.preExtents)
    && res.all (fun r => r.wellFormed && r.extentsAre [c.n, c.m])
  (failUnless ok fmt s).andThen fun _ s =>
  match c.exactCode (s.exactEn te) any with
  | some e => (.error e, s)
  | none =>
    Res.andThen (s.agReadClean acc ((k.map (·.tableVa)).getD 0) (if k.any (·.usesTable) then 1024 else 0)) fun tbl s =>
    Res.andThen (s.agReadClean acc ((k.map (·.proVa)).getD 0) (if k.any (fun k => decide (k.proKind = 3)) then 8 * c.m else 0)) fun st s =>
    (.ok { cmd := x, record := rec, aTd := ab[0]?, bTd := ab[1]?, outTd := out[0]?, preTd := pre[0]?, resTds := res, chain := k
           table := (wordsLe 4 tbl).map fmtFP32.decode, stats := (wordsLe 8 st).map (fun w => (w % 2 ^ 32, w / 2 ^ 32))
           targets := list, owners := [], next := 0, inFlight := [], tilesDone := 0, flags := .none, denseDrop := false
           rowSums := .const RowSum.empty, quantBuf := [], lastWrite := 0, code := none }, s)

/-- The head of an idle TE's queue whose record has the opcode `op`; an opcode that is neither is taken by MATMUL's row, which
refuses it. -/
def State.teTake (s : State) (te : Nat) (mine : Nat → Bool) (f : CmdRef → List Byte → State → State) : State :=
  let t := s.comp.tes.get te
  match t.cur, t.queue with
  | none, x :: _ =>
    let acc := s.teAcc te x
    if s.cmdHeld x then s else
    (match s.readRecord acc x 128 64 with
     | (.unread c, s1) => (s1.tePop te).cmdUnreadable acc.node x c
     | (.refuse c va, s1) => s1.teRefuse te x va c
     | (.ok b, s1) => if mine (byteAt b 0) then f x b s1 else s)
  | _, _ => s

/-- MATMUL (R121, R128): the command at the head of the queue is checked and begins. -/
def execMatmul (te : TeId) (s : State) : Out := heldWait s fun s =>
  .next (s.teTake te (fun op => decide (op ≠ 2)) (fun x b s =>
    if byteAt b 0 ≠ 1 then s.teRefuse te x (parseTe b).statusVa .teCmdFormat
    else match s.loadMatmul te x b with
      | (.error c, s1) => s1.teRefuse te x (parseTe b).statusVa c
      | (.ok r, s1) => s1.modTe te (fun t => { t with cur := some r })))

/-! ### Streaming a tile (R121, R130 to R145) -/

/-- Rows or columns of tile `t` of `n`. -/
def tileSpan (t n : Nat) : List Nat := upFrom (128 * t) (min 128 (n - 128 * t))

/-- An element of A after the prologue (R162, R163), with the flags its rounding sets. -/
def TeRun.proA (r : TeRun) (c : TeCmd) (i : Nat) (x : XVal) : XVal × TeFlags :=
  match r.chain with
  | none => (x, .none)
  | some k =>
    let q : Rounded := match k.proKind with
      | 1 => proAct c.ty k r.table x
      | 3 =>
        let st := r.stats.getD i (0, 0)
        normElem (c.ty.flt.getD fmtFP32) (fmtFP32.decode st.1) (fmtFP32.decode st.2) (fmtFP32.decode k.proEps) x
      | _ => ⟨x, false, false⟩
    (q.val, ⟨q.sat, q.nonfin⟩)

/-- An element of B after the prologue (R162). -/
def TeRun.proB (r : TeRun) (bTy : ElemTy) (x : XVal) : XVal × TeFlags :=
  match r.chain with
  | none => (x, .none)
  | some k => if k.proKind = 2 then let q := proAct bTy k r.table x; (q.val, ⟨q.sat, q.nonfin⟩) else (x, .none)

/-- A tile's operands: rows of A and columns of B after the prologue. -/
def State.tileOperands (s : State) (acc : Accessor) (r : TeRun) (c : TeCmd) (a b : Td) (rows cols : List Nat) :
    Except Code (List (List XVal) × List (List XVal) × TeFlags) × List OwnerEnt × State :=
  let ks := List.range c.k
  match s.readElems acc r.owners a (rows.flatMap (fun i => ks.map (fun k => [k, i]))) with
  | (.error e, ow, s1) => (.error e, ow, s1)
  | (.ok av, ow, s1) =>
    match s1.readElems acc ow b (cols.flatMap (fun j => ks.map (fun k => [j, k]))) with
    | (.error e, ow1, s2) => (.error e, ow1, s2)
    | (.ok bv, ow1, s2) =>
      let bTy := (ElemTy.ofCode c.bTy).getD .int8
      let as_ := (rows.zipIdx).map (fun x => ((av.drop (x.2 * c.k)).take c.k).map (fun v => r.proA c x.1 (c.ty.value v)))
      let bs := (List.range cols.length).map (fun n => ((bv.drop (n * c.k)).take c.k).map (fun v => r.proB bTy (bTy.value v)))
      let fl := orFlags ((as_.flatten ++ bs.flatten).map (·.2))
      (.ok (as_.map (·.map (·.1)), bs.map (·.map (·.1)), fl), ow1, s2)

/-- The initial accumulators of a tile, row by row (R145). -/
def State.tilePreloads (s : State) (acc : Accessor) (ow : List OwnerEnt) (r : TeRun) (c : TeCmd) (rows cols : List Nat) :
    Except Code (List (Acc × TeFlags)) × List OwnerEnt × State :=
  let cells := rows.flatMap (fun i => cols.map (fun j => (i, j)))
  match r.preTd with
  | none => (.ok (cells.map (fun _ => (accZero c.float c.exact, .none))), ow, s)
  | some d =>
    let idx (x : Nat × Nat) : List Nat := match c.preKind with
      | 1 => [x.2]
      | 2 => [x.1]
      | _ => [x.2, x.1]
    match s.readElems acc ow d (cells.map idx) with
    | (.error e, ow1, s1) => (.error e, ow1, s1)
    | (.ok vs, ow1, s1) => (.ok (vs.map (accPreload c.float c.exact d.ty)), ow1, s1)

/-- A command that fails while it runs ends with a code: its other tiles are discarded (R128). -/
def State.teFail (s : State) (te : Nat) (x : CmdRef) (c : Code) (va : Nat) : State :=
  let s1 := s.dataError (teNode te) x c va
  s1.modTe te (fun t => { t with cur := t.cur.map (fun r => { r with code := some c.val, inFlight := [], quantBuf := [] }) })

/-- Change the command a TE runs. -/
def State.modRun (s : State) (te : Nat) (f : TeRun → TeRun) : State := s.modTe te (fun t => { t with cur := t.cur.map f })

/-- The parameters of a stage over a tile, row by row: scalars, vector elements, residual elements (R156). -/
def State.stageParams (s : State) (acc : Accessor) (ow : List OwnerEnt) (r : TeRun) (st : Stage) (rows cols : List Nat) :
    Except Code (List XVal) × List OwnerEnt × State :=
  let cells := rows.flatMap (fun i => cols.map (fun j => (i, j)))
  let vec (is : List Nat) (pick : Nat × Nat → Nat) : Except Code (List XVal) × List OwnerEnt × State :=
    match s.agReadClean acc (st.va + 4 * is.headD 0) (4 * is.length) with
    | (.error e, s1) => (.error e, ow, s1)
    | (.ok b, s1) => (.ok (cells.map (fun x => fmtFP32.decode (fieldLe b (4 * (pick x - is.headD 0)) 4))), ow, s1)
  match st.kind, st.arg with
  | 1, 0 | 2, 0 => (.ok (cells.map (fun _ => fmtFP32.decode st.param)), ow, s)
  | 1, 1 | 2, 1 => vec cols (·.2)
  | 1, 2 | 2, 2 => vec rows (·.1)
  | 7, _ =>
    match r.resTds.find? (fun d => d.va == st.va) with
    | none => (.ok [], ow, s)
    | some d =>
      match s.readElems acc ow d (cells.map (fun x => [x.2, x.1])) with
      | (.error e, ow1, s1) => (.error e, ow1, s1)
      | (.ok vs, ow1, s1) => (.ok (vs.map d.ty.value), ow1, s1)
  | _, _ => (.ok (cells.map (fun _ => XVal.zero)), ow, s)

/-- The parameters of every stage, read with the operands of the tile (R166, R167). -/
def State.allParams (s : State) (acc : Accessor) (r : TeRun) (rows cols : List Nat) : List Stage → List OwnerEnt →
    Except Code (List (List XVal)) × List OwnerEnt × State
  | [], ow => (.ok [], ow, s)
  | st :: sts, ow =>
    match s.stageParams acc ow r st rows cols with
    | (.error e, ow1, s1) => (.error e, ow1, s1)
    | (.ok ps, ow1, s1) =>
      match s1.allParams acc r rows cols sts ow1 with
      | (.error e, ow2, s2) => (.error e, ow2, s2)
      | (.ok rest, ow2, s2) => (.ok (ps :: rest), ow2, s2)

/-- Tile `t` of a command: its accumulators after all products, and the parameters of its stages (R121 to R140, R166). -/
def State.streamTile (s : State) (te : Nat) (r : TeRun) (c : TeCmd) (now : Nat) : State :=
  let acc := s.teAcc te r.cmd
  let tm := r.next / c.tileCols
  let tn := r.next % c.tileCols
  let rows := tileSpan tm c.m
  let cols := tileSpan tn c.n
  match r.aTd, r.bTd with
  | some a, some b =>
    (match s.tileOperands acc r c a b rows cols with
     | (.error e, _, s1) => s1.teFail te r.cmd e a.base
     | (.ok (as_, bs, fl), ow, s1) =>
       match s1.tilePreloads acc ow r c rows cols with
       | (.error e, _, s2) => s2.teFail te r.cmd e c.preVa
       | (.ok ps, ow1, s2) =>
         let cells := as_.flatMap (fun x => bs.map (fun y => x.zip y))
         match s2.allParams acc r rows cols ((r.chain.map (·.stages)).getD []) ow1 with
         | (.error e, _, s3) => s3.teFail te r.cmd e c.outVa
         | (.ok params, ow2, s3) =>
           let out := (ps.zip cells).map (fun z => let q := accumulate c.ty z.1.1 z.2; (q.1, q.2.or z.1.2))
           let tile : Tile := ⟨tm, tn, now, none, out.map (·.1), params, fl.or (orFlags (out.map (·.2)))⟩
           (s3.modRun te (fun r => { r with next := r.next + 1, owners := ow2, inFlight := r.inFlight ++ [tile] })).modTe te
             (fun t => { t with
               queue := if r.next = 0 then t.queue.drop 1 else t.queue
               lastStream := now + c.streamLen - 1, tiles := t.tiles + 1 }))
  | _, _ => s

/-- A TE with a MATMUL under way. -/
def State.withRun (s : State) (te : Nat) (f : TeRun → TeCmd → State → State) : State :=
  withSome (s.comp.tes.get te).cur s (fun r s => f r (parseTe r.record) s)

/-- TILE_STREAM_START (R130 to R132): after the last stream cycle of the tile before and the last drain cycle of the tile
before that; operands outside the tile memory may make it later. -/
def execTileStreamStart (te : TeId) (c : Fin 5) (s : State) : Out := heldWait s fun s =>
  .next (s.withRun te (fun r cmd s =>
    let t := s.comp.tes.get te.val
    let now := s.teCycle te c
    let freed := match r.inFlight with
      | [] => decide (t.prevDrain < now)
      | [_] => decide (t.lastDrain < now)
      | _ => false
    let due := r.code.isNone && decide (cmd.op = 1) && decide (r.next < cmd.tileCount) && freed && decide (t.lastStream < now)
    whenB due s (fun s => s.streamTile te r cmd now)))

/-- TILE_COMPLETE (R130): the oldest tile that has not completed, at start + L + 11. -/
def execTileComplete (te : TeId) (c : Fin 5) (s : State) : Out :=
  .next (s.withRun te (fun r cmd s =>
    let now := s.teCycle te c
    match r.inFlight.find? (fun t => t.complete.isNone) with
    | some t =>
      whenB (decide (t.start + cmd.streamLen + 11 ≤ now)) s (fun s =>
        s.modRun te (fun r => { r with inFlight := r.inFlight.map (fun u =>
          if u.tm = t.tm ∧ u.tn = t.tn then { u with complete := some now } else u) }))
    | none => s))

/-! ### The epilogue (R143, R155 to R160) -/

/-- What an element is after the stages before a QUANT: value, the input of ROWSTAT, flags. -/
structure EpiOut where
  w : XVal
  stat : Option XVal
  flags : TeFlags
deriving DecidableEq, Repr

/-- An element through its stages with their parameters (R155); QUANT is formed by group afterwards. -/
def epiElem (once : Bool) (table : List XVal) : List (Stage × XVal) → EpiOut → EpiOut
  | [], o => o
  | (st, p) :: rest, o =>
    if st.kind = 6 then o
    else
      let stat := if st.kind = 5 then some o.w else o.stat
      let q := stageRound (roundTo (stageTarget once rest.isEmpty st)) st table p o.w
      epiElem once table rest ⟨q.val, stat, o.flags.or ⟨q.sat, q.nonfin⟩⟩

/-- A gathered write of a plain array: its lines pass the Gatehouse. -/
def State.placePlain (s : State) (x : Accessor) (va : Nat) (bs : List Byte) (l : List ByteW) : Res (List ByteW) :=
  match s.checkLines x .write .any (linePieces (bs.length / 64 + 2) va bs.length) with
  | (some c, s1) => (.error c, s1)
  | (none, s1) => (.ok (putBytes va bs false l), s1)

/-- Elements placed in drain order (R277); dropped ones are counted. -/
def State.placeAll (s : State) (x : Accessor) (d : Td) : List (List Nat × Nat) → List OwnerEnt → List ByteW →
    Except Code (List ByteW) × List OwnerEnt × State
  | [], ow, l => (.ok l, ow, s)
  | (i, v) :: es, ow, l =>
    match s.placeElem x ow d i v false l with
    | (.error c, ow1, s1) => (.error c, ow1, s1)
    | (.ok none, ow1, s1) => s1.placeAll x d es ow1 l
    | (.ok (some l1), ow1, s1) => s1.placeAll x d es ow1 l1

/-- Plain arrays placed in order. -/
def State.placePlains (s : State) (x : Accessor) : List (Nat × List Byte) → List ByteW → Res (List ByteW)
  | [], l => (.ok l, s)
  | (va, bs) :: ps, l => (s.placePlain x va bs l).andThen (fun l1 s => s.placePlains x ps l1)

/-- What a drained tile writes and leaves: output elements, plain arrays, row sums, a held QUANT tile, flags. -/
structure Drained where
  elems : List (List Nat × Nat)
  plain : List (Nat × List Byte)
  sums : Tbl Nat RowSum
  quant : Option QuantTile
  flags : TeFlags

/-- The rows of a list by row length. -/
def rowsOf {A : Type} (w : Nat) (rows : List Nat) (l : List A) : List (Nat × List A) :=
  (rows.zipIdx).map (fun x => (x.1, (l.drop (x.2 * w)).take w))

/-- A drained tile with no stages: the conversion of R143. -/
def drainPlain (c : TeCmd) (rows cols : List Nat) (t : Tile) (sums : Tbl Nat RowSum) : Drained :=
  let cells := rows.flatMap (fun i => cols.map (fun j => [j, i]))
  let outs := t.accs.map (accOut c.float c.outFmt)
  ⟨cells.zip (outs.map (fun o => leVal o.1)), [], sums, none, orFlags (outs.map (·.2))⟩

/-- A drained tile through its chain (R155, R159, R160). -/
def drainChain (c : TeCmd) (k : ChainRec) (table : List XVal) (rows cols : List Nat) (t : Tile) (params : List (List XVal))
    (sums : Tbl Nat RowSum) (last : Nat) : Drained :=
  let w := cols.length
  let cells := rows.flatMap (fun i => cols.map (fun j => [j, i]))
  let ins := (t.accs.zipIdx).map (fun x =>
    epiElem (decide (k.rounding = 1)) table (k.stages.zip (params.map (fun p => p.getD x.2 .zero))) ⟨x.1.value, none, .none⟩)
  let fmt := (k.stages.getLast?.map (·.fmt)).getD 1
  let enc (v : XVal) : Nat := leVal (stageBytes fmt v)
  -- ROWSTAT (R159)
  let stat := k.stages.find? (fun s => decide (s.kind = 5))
  let sums1 := match stat with
    | none => sums
    | some _ => (rowsOf w rows ins).foldl (fun tb x => tb.modify x.1 (fun r => x.2.foldl (fun r o => r.add (o.stat.getD .zero)) r)) sums
  let fin := decide (t.tn + 1 = c.tileCols)
  let statEnts := match stat with
    | some st => if fin then rows.map (fun i => let q := (sums1.get i).finish c.n; (st.va + 8 * i, leBytes 4 q.1 ++ leBytes 4 q.2.1, q.2.2)) else []
    | none => []
  let fl := (orFlags (ins.map (·.flags))).or ⟨statEnts.any (·.2.2), false⟩
  let statPlain := statEnts.map (fun e => (e.1, e.2.1))
  match k.stages.find? (fun s => decide (s.kind = 6)) with
  | none => ⟨cells.zip (ins.map (fun o => enc o.w)), statPlain, sums1, none, fl⟩
  | some st =>
    if st.arg = 0 then
      let gs := (rowsOf w rows ins).map (fun x => (x.1, quantGroup st.fmt (x.2.map (·.w))))
      ⟨cells.zip (gs.flatMap (fun g => g.2.1.map enc)),
       statPlain ++ gs.map (fun g => (st.va + 4 * (g.1 * c.tileCols + t.tn), leBytes 4 g.2.2.1)), sums1, none,
       fl.or (orFlags (gs.map (·.2.2.2)))⟩
    else
      let g := quantGroup st.fmt (ins.map (·.w))
      ⟨[], statPlain, sums1, some ⟨last + 1, t.tm, t.tn, g.1, st.va + 4 * (t.tm * c.tileCols + t.tn), g.2.1⟩, fl.or g.2.2⟩

/-- The dense values of a tile go to the SUAs (R148): a value with no slot is dropped. -/
def State.sendDense (s : State) (te : Nat) (acc : Accessor) (r : TeRun) (rows cols : List Nat) (t : Tile) : State :=
  let cells := rows.flatMap (fun i => cols.map (fun j => (i, j)))
  let ts := denseTargets r.targets
  ((cells.zip t.accs).foldl (fun (s : State) x =>
    match ts.find? (·.covers x.1.2) with
    | none => s
    | some g =>
      let unit := g.unit + x.1.1
      let rep := x.1.2 - g.col
      if (s.denseSlot acc.part g.sc g.model unit rep).isSome then
        s.send (teNode te) (.node (scNode g.sc)) 1 1 (some acc.part) (some r.cmd.req) (.dense ⟨acc.part, g.model, unit, rep, (accToInt 64 x.2).1⟩)
      else s.modRun te (fun r => { r with denseDrop := true })) s).modRun te
    (fun r => { r with flags := r.flags.or (orFlags (t.accs.map (fun a => (accToInt 64 a).2))) })

/-- A tile has drained: counts and times (R130), its last write in cycle `wr` (R165). Only drained tiles count in FLAGS (DESIGN CHOICE: R129
does not say whether the tiles that a failed command discards count). -/
def State.tileDrained (s : State) (te last wr : Nat) (fl : TeFlags) : State :=
  (s.modRun te (fun r => { r with
    inFlight := r.inFlight.drop 1, tilesDone := r.tilesDone + 1, flags := r.flags.or fl, lastWrite := max r.lastWrite wr })).modTe te
    (fun t => { t with prevDrain := t.lastDrain, lastDrain := last })

/-- The last cycle in which a tile writes: its last drain cycle, or the one after it where a row's statistics end with it (R159, R165). -/
def TeRun.lastWriteOf (r : TeRun) (c : TeCmd) (t : Tile) (last : Nat) : Nat :=
  if t.tn + 1 = c.tileCols ∧ r.chain.any (fun k => k.stages.any (fun s => decide (s.kind = 5))) then last + 1 else last

/-- The oldest tile drains into its destination (R130, R143, R155). -/
def State.drainTile (s : State) (te : Nat) (r : TeRun) (c : TeCmd) (t : Tile) (last : Nat) : State :=
  let acc := s.teAcc te r.cmd
  let rows := tileSpan t.tm c.m
  let cols := tileSpan t.tn c.n
  if c.outFmt = 5 then (s.sendDense te acc r rows cols t).tileDrained te last last t.flags
  else match r.outTd with
    | none => s
    | some d =>
      let o := match r.chain with
        | some k => if k.stages.isEmpty then drainPlain c rows cols t r.rowSums else drainChain c k r.table rows cols t t.params r.rowSums last
        | none => drainPlain c rows cols t r.rowSums
      match s.placeAll acc d o.elems r.owners [] with
      | (.error e, _, s1) => s1.teFail te r.cmd e c.outVa
      | (.ok l, ow, s1) =>
        match s1.placePlains acc o.plain l with
        | (.error e, s2) => s2.teFail te r.cmd e c.outVa
        | (.ok l1, s2) =>
          match s2.flushBytes acc l1 with
          | (some e, s3) => s3.teFail te r.cmd e c.outVa
          | (none, s3) =>
            (s3.modRun te (fun r => { r with
              owners := ow, rowSums := o.sums, quantBuf := r.quantBuf ++ o.quant.toList })).tileDrained te last (r.lastWriteOf c t last) (t.flags.or o.flags)

/-- TILE_DRAIN_START (R130): after completion and after the last drain cycle of the tile before; of two QUANT buffers one must
be free (R165). -/
def execTileDrainStart (te : TeId) (c : Fin 5) (s : State) : Out := heldWait s fun s =>
  .next (s.withRun te (fun r cmd s =>
    let now := s.teCycle te c
    match r.inFlight with
    | t :: _ =>
      let due := r.code.isNone && t.complete.any (fun e => decide (e < now)) && decide ((s.comp.tes.get te.val).lastDrain < now)
        && decide (r.quantBuf.length < 2)
      whenB due s (fun s => s.drainTile te r cmd t (now + cmd.drainLen - 1))
    | [] => s))

/-- QUANT_TILE_WRITE (R165): a tile's quantised values and its scale, in the 128 cycles after its last drain cycle. -/
def execQuantTileWrite (te : TeId) (c : Fin 5) (s : State) : Out := heldWait s fun s =>
  .next (s.withRun te (fun r cmd s =>
    let now := s.teCycle te c
    match r.quantBuf, r.outTd with
    | q :: _, some d =>
      whenB (r.code.isNone && decide (q.due ≤ now)) s (fun s =>
        let acc := s.teAcc te r.cmd
        let fmt := ((r.chain.bind (fun k => k.stages.getLast?)).map (·.fmt)).getD 6
        let cells := (tileSpan q.tm cmd.m).flatMap (fun i => (tileSpan q.tn cmd.n).map (fun j => [j, i]))
        match s.placeAll acc d (cells.zip (q.vals.map (fun v => leVal (stageBytes fmt v)))) r.owners [] with
        | (.error e, _, s1) => s1.teFail te r.cmd e cmd.outVa
        | (.ok l, ow, s1) =>
          match s1.placePlain acc q.scaleVa (leBytes 4 q.scale) l with
          | (.error e, s2) => s2.teFail te r.cmd e q.scaleVa
          | (.ok l1, s2) =>
            match s2.flushBytes acc l1 with
            | (some e, s3) => s3.teFail te r.cmd e cmd.outVa
            | (none, s3) => s3.modRun te (fun r => { r with
                owners := ow, quantBuf := r.quantBuf.drop 1, lastWrite := max r.lastWrite (max now (q.due + 127)) }))
    | _, _ => s))

/-! ### COMBINE (R126, R147) -/

/-- The elements of an output in the order in which a TE forms and writes them: tile by tile, each row by row (R122, R277). -/
def TeCmd.cells (c : TeCmd) : List (Nat × Nat) :=
  (List.range c.tileRows).flatMap (fun tm => (List.range c.tileCols).flatMap (fun tn =>
    (tileSpan tm c.m).flatMap (fun i => (tileSpan tn c.n).map (fun j => (i, j)))))

/-- The sums of a COMBINE, element by element. -/
def State.combineCells (s : State) (acc : Accessor) (d : Td) (c : TeCmd) : List (Nat × Nat) → List OwnerEnt →
    Except Code (List (Acc × TeFlags)) × List OwnerEnt × State
  | [], ow => (.ok [], ow, s)
  | x :: xs, ow =>
    match s.readElems acc ow d ((List.range c.k).map (fun p => [x.2, x.1, p])) with
    | (.error e, ow1, s1) => (.error e, ow1, s1)
    | (.ok vs, ow1, s1) =>
      match s1.combineCells acc d c xs ow1 with
      | (.error e, ow2, s2) => (.error e, ow2, s2)
      | (.ok rest, ow2, s2) => (.ok (combineElem c.ty vs :: rest), ow2, s2)

/-- The checks of a COMBINE (R126, R128): its two descriptors. -/
def State.loadCombine (s : State) (te : Nat) (x : CmdRef) (c : TeCmd) : Res (Td × Td) :=
  let acc := s.teAcc te x
  let any := (s.findReq x.req).any (fun r => decide (r.mode = .any))
  (failUnless c.combineOk .teCmdFormat s).andThen fun _ s =>
  (s.readTds acc [c.aVa, c.outVa]).andThen fun ds s =>
  match ds with
  | [a, o] =>
    (failUnless (viewOk a c.ty [c.n, c.m, c.k] && viewOk o c.outTy [c.n, c.m]) .teCmdFormat s).andThen fun _ s =>
    (match c.exactCode (s.exactEn te) any with
     | some e => (.error e, s)
     | none => (.ok (a, o), s))
  | _ => (.error .teCmdFormat, s)

/-- The VE's own time for a COMBINE (R147). -/
def TeCmd.veCycles (c : TeCmd) : Nat :=
  let w := if c.exact then 32 else 128
  (c.m * c.n + w - 1) / w * (c.k - 1)

/-- COMBINE (R147): checked, then its sums are formed and written; it ends after the VE's time. Its END_TICK is that of its first cycle plus
the VE's own cycles (DESIGN CHOICE: the manual states no drain cycles of a COMBINE for R129). -/
def execCombine (te : TeId) (s : State) : Out := heldWait s fun s =>
  .next (s.teTake te (fun op => decide (op = 2)) (fun x b s =>
    let c := parseTe b
    match s.loadCombine te x c with
    | (.error e, s1) => s1.teRefuse te x c.statusVa e
    | (.ok (a, o), s1) =>
      let acc := s1.teAcc te x
      let cells := c.cells
      let run : TeRun := { cmd := x, record := b, aTd := some a, bTd := none, outTd := some o, preTd := none, resTds := [], chain := none
                           table := [], stats := [], targets := [], owners := [], next := c.tileCount, inFlight := [], tilesDone := 0
                           flags := .none, denseDrop := false, rowSums := .const RowSum.empty, quantBuf := [], lastWrite := 0, code := none }
      let s2 := (s1.tePop te).modTe te (fun t => { t with cur := some run })
      let last := s2.teCycle te 0 + c.veCycles
      match s2.combineCells acc a c cells [] with
      | (.error e, _, s3) => s3.teFail te x e c.aVa
      | (.ok vs, ow, s3) =>
        let outs := vs.map (fun v => let q := accOut c.float c.outFmt v.1; (leVal q.1, q.2.or v.2))
        match s3.placeAll acc o ((cells.map (fun y => [y.2, y.1])).zip (outs.map (·.1))) ow [] with
        | (.error e, _, s4) => s4.teFail te x e c.outVa
        | (.ok l, _, s4) =>
          match s4.flushBytes acc l with
          | (some e, s5) => s5.teFail te x e c.outVa
          | (none, s5) =>
            (s5.modRun te (fun r => { r with tilesDone := c.tileCount, flags := orFlags (outs.map (·.2)), lastWrite := last })).modTe te
              (fun t => { t with prevDrain := t.lastDrain, lastDrain := last })))

/-- TE_COMMAND_END (R129, R165): after the last write, or once the command has failed; the status record, then the notice. -/
def execTeCommandEnd (te : TeId) (c : Fin 5) (s : State) : Out := heldWait s fun s =>
  .next (s.withRun te (fun r cmd s =>
    let now := s.teCycle te c
    let done := decide (cmd.tileCount ≤ r.next) && r.inFlight.isEmpty && r.quantBuf.isEmpty && decide (r.lastWrite < now)
    whenB (r.code.isSome || done) s (fun s =>
      let acc := s.teAcc te r.cmd
      let tick := if r.tilesDone = 0 then s.tickOf (te.val / 4) else (s.comp.tes.get te.val).lastDrain / 5 % 2 ^ 64
      (s.modTe te (fun t => { t with cur := none, satCmds := if r.flags.sat then satTo 65535 (t.satCmds + 1) else t.satCmds
                                     queue := if r.next = 0 then t.queue.drop 1 else t.queue })).writeStatus
        acc r.cmd cmd.statusVa (teStatus (r.code.getD Code.ok.val) r.flags r.denseDrop r.tilesDone tick) .teCmdFormat)))

end Sys2Proof.Machine
end

