-- ==== Sys2Proof/Machine/RowLogic.lean ====
section
/-! DEFINITION. Row logic of the memory slices (R243 to R265). Times are eDRAM cycles, 4 to a tick. -/

namespace Sys2Proof.Machine

/-- An operation entry (R249). -/
structure RowOp where
  op : Nat
  hold : Bool
  cadd : Bool
  dst : Nat
  a : Nat
  b : Nat
  c : Nat
deriving DecidableEq, Repr

/-- The header of an RLU record (R247). -/
structure RluHdr where
  ops : Nat
  rows : Nat
  statusVa : Nat
  countVa : Nat
deriving DecidableEq, Repr

/-- The header of 64 bytes (R247). -/
def parseRlu (b : List Byte) : RluHdr := ⟨byteAt b 0, byteAt b 1, fieldLe b 8 8, fieldLe b 16 8⟩

/-- Operation entries of a record (R249). -/
def rluOps (b : List Byte) : List RowOp :=
  (List.range (byteAt b 0)).map (fun i =>
    let o := 64 + 8 * byteAt b 1 + 8 * i
    ⟨byteAt b o, bitOf (byteAt b (o + 1)) 7, bitOf (byteAt b (o + 1)) 6, byteAt b (o + 2), byteAt b (o + 3), byteAt b (o + 4),
     byteAt b (o + 5)⟩)

/-- Number of sources of an operation (R243). -/
def rowSources (op : Nat) : Nat :=
  match op with
  | 2 => 0
  | 1 | 3 | 9 => 1
  | 8 => 3
  | _ => 2

/-- The sources an operation names, `0x3F` for SA. -/
def RowOp.srcs (o : RowOp) : List Nat := [o.a, o.b, o.c].take (rowSources o.op)

/-- Whether source A is SA (R249). -/
def RowOp.useSa (o : RowOp) : Bool := decide (1 ≤ rowSources o.op) && decide (o.a = 0x3F)

/-- Cost of an operation in eDRAM cycles (R254): ACT for each row, LOGIC and WB (or COUNT) 4 together, ENC, PRE. -/
def RowOp.cost (o : RowOp) : Nat :=
  2 * (o.srcs.filter (fun x => decide (x ≠ 0x3F))).length + 4
    + (if o.op = 4 ∨ o.op = 5 ∨ o.op = 8 then 1 else 0) + (if o.hold then 0 else 2)

/-- The format of one operation, given whether it continues a chain (R245, R252). -/
def RowOp.ok (o : RowOp) (rows : Nat) (cont : Bool) : Bool :=
  decide (1 ≤ o.op ∧ o.op ≤ 9) && (if o.op = 9 then decide (o.dst ≤ 15) else decide (o.dst < rows))
    && (if cont then o.useSa else !o.useSa)
    && (if cont then o.srcs.drop 1 else o.srcs).all (fun x => decide (x < rows)) && decide (o.srcs.eraseDups = o.srcs)

/-- The formats of the operations in order (R252). -/
def rowOpsOk (rows : Nat) : Bool → List RowOp → Bool
  | cont, [] => !cont
  | cont, o :: os => o.ok rows cont && rowOpsOk rows o.hold os

/-- Whether a held chain is longer than 8 operations (R246). -/
def chainTooLong : Nat → List RowOp → Bool
  | _, [] => false
  | n, o :: os => decide (8 ≤ n) || chainTooLong (if o.hold then n + 1 else 0) os

/-- The format of a record (R252 check 2). -/
def rluFormatOk (b : List Byte) : Bool :=
  let h := parseRlu b
  decide (1 ≤ h.ops ∧ h.ops ≤ 64) && decide (1 ≤ h.rows ∧ h.rows ≤ 32) && decide (h.statusVa % 16 = 0) && decide (h.countVa % 64 = 0)
    && (rluRows b).all (fun r => decide (r % 1024 = 0) && decide (r < 2 ^ 57)) && rowOpsOk h.rows false (rluOps b)
    && (decide (h.countVa ≠ 0) || (rluOps b).all (fun o => decide (o.op ≠ 9)))

/-- The accessor of an RLU's command. -/
def State.rluAcc (s : State) (ms : Nat) (x : CmdRef) : Accessor := accessor (s.cmdPart (msNode ms) x) (msNode ms) .rlu (some x.req)

/-- Whether some operation writes a row of the table. -/
def rowWritten (os : List RowOp) (i : Nat) : Bool := os.any (fun o => decide (o.op ≠ 9) && decide (o.dst = i))

/-- Check 4 of R252: every row passes the Gatehouse, in table order; the targets. -/
def State.rowTargets (s : State) (x : Accessor) (os : List RowOp) : List (Nat × Nat) → Res (List Target)
  | [] => (.ok [], s)
  | (va, i) :: rs =>
    match s.gate x .read false va with
    | (.error c, s1) => (.error c, s1.gateLog x va c)
    | (.ok t, s1) =>
      let next (s : State) : Res (List Target) := (s.rowTargets x os rs).andThen (fun ts s => (.ok (t :: ts), s))
      if rowWritten os i then
        match s1.gate x .write false va with
        | (.error c, s2) => (.error c, s2.gateLog x va c)
        | (.ok _, s2) => next s2
      else next s1

/-- Check 5 of R252: slice-window frames of this slice, all in one bank. -/
def rowsBank (ms : Nat) (ts : List Target) : Option (List Nat × Nat) :=
  let addrs := ts.filterMap (fun t => match t with
    | .dev a => if 0x8000000000 ≤ a ∧ a < 0x8040000000 ∧ placeOf a = .edram ms (a - edramAddr ms 0) then some a else none
    | .host .. => none)
  match addrs with
  | a :: as_ =>
    let bank := a / 1024 % 32
    if addrs.length = ts.length ∧ as_.all (fun b => b / 1024 % 32 == bank) then some (addrs, bank) else none
  | [] => none

/-- The head of a slice's queue is checked (R252): its record, row addresses and bank; or why it is refused. -/
def State.loadRlu (s : State) (ms : Nat) (x : CmdRef) (b : List Byte) : Res (List Nat × Nat) :=
  let acc := s.rluAcc ms x
  let os := rluOps b
  (failUnless (rluFormatOk b) .rluFormat s).andThen fun _ s =>
  (failUnless (!chainTooLong 0 os) .rluHoldLong s).andThen fun _ s =>
  (s.rowTargets acc os (rluRows b).zipIdx).andThen fun ts s =>
  match rowsBank ms ts with
  | some r => (.ok r, s)
  | none => (.error .rluBank, s)

/-- An RLU status record (R250). -/
def rluStatus (code : Half) (corr poison : Bool) (done inserted tick : Nat) : List Byte :=
  leBytes 2 code.toNat ++ leBytes 1 (rluFlagBits corr poison inserted) ++ zeros 1 ++ leBytes 2 done
    ++ leBytes 2 inserted ++ leBytes 8 tick

/-- An RLU refuses the head of its queue: only its status record is written (R252). -/
def State.rluRefuse (s : State) (ms : Nat) (x : CmdRef) (statusVa : Nat) (c : Code) : State :=
  let acc := s.rluAcc ms x
  ((s.modRlu ms (fun r => { r with queue := r.queue.drop 1 })).dataError acc.node x c x.va).writeStatus acc x statusVa
    (rluStatus c.val false (decide (c = .memPoison)) 0 0 (s.tickOf (ms / 8))) .rluFormat

/-- RLU_COMMAND_ARRIVE (R251): queued, or refused with RLU_QUEUE_FULL where the queue holds 16. -/
def execRluCommandArrive (ms : MsId) (s : State) : Out := heldWait s fun s =>
  .next (withSome (s.takeInbox (msNode ms) (Packet.isCmd .rlu)) s (fun y _ =>
    match y.1.payload with
    | .cmd _ x =>
      let s1 := y.2
      if (s1.comp.rlus.get ms.val).queue.length < 16 then s1.modRlu ms (fun r => { r with queue := r.queue ++ [x] })
      else
        let acc := s1.rluAcc ms x
        match s1.agReadClean { acc with logVa := some x.va } (x.va + 8) 8 with
        | (.error c, s2) => s2.cmdUnreadable acc.node x c
        | (.ok b, s2) => s2.writeStatus acc x (leVal b) (rluStatus Code.rluQueueFull.val false false 0 0 (s.tickOf (ms.val / 8))) .rluFormat
    | _ => y.2))

/-- The refreshes of a bank that have fallen due by a cycle are run, or postponed while the bank is held (R218, R259). -/
def State.refreshUpTo (s : State) (ms bank cycle : Nat) : Nat → State
  | 0 => s
  | fuel + 1 =>
    let n := s.mem.edramNext.get (32 * ms + bank)
    if refreshCycle n bank ≤ cycle then (s.dueRefresh ms bank (refreshCycle n bank)).refreshUpTo ms bank cycle fuel else s

/-- RLU_COMMAND_START (R253): the head of the queue, once its bank is free; a refresh due in the cycle runs first (R259), a stall in
a reproducible request (R262). -/
def execRluCommandStart (ms : MsId) (cycle : Fin 4) (s : State) : Out := heldWait s fun s =>
  .next (match (s.comp.rlus.get ms.val).queue with
    | [] => s
    | x :: _ =>
      let acc := s.rluAcc ms x
      let read := s.readRecord acc x 64 8
      if s.cmdHeld x then s else
      match read with
      | (.unread c, s1) => (s1.modRlu ms (fun r => { r with queue := r.queue.drop 1 })).cmdUnreadable acc.node x c
      | (.refuse c va, s1) => s1.rluRefuse ms x va c
      | (.ok h, s1) =>
        match s1.agReadClean { acc with logVa := some x.va } x.va (64 + 8 * (byteAt h 1 + byteAt h 0)) with
        | (.error c, s2) => s2.rluRefuse ms x (parseRlu h).statusVa c
        | (.ok b, s2) =>
          match s2.loadRlu ms x b with
          | (.error c, s3) => s3.rluRefuse ms x (parseRlu b).statusVa c
          | (.ok (rows, bank), s3) =>
            if s3.bankHeld ms bank then s
            else
              let now := 4 * s.tickOf (ms.val / 8) + cycle
              let s4 := s3.refreshUpTo ms bank now 1024
              let start := max now (s4.mem.edramBusy.get (32 * ms.val + bank))
              let run : RluRun := { cmd := x, record := b, rows := rows, bank := bank, next := 0, ready := start, sa := zeros 1024
                                    saBad := [], counts := List.replicate 16 (some 0), corr := false, poisonVa := none, inserted := 0 }
              let s5 := s4.modRlu ms (fun r => { r with queue := r.queue.drop 1, running := r.running ++ [run] })
              if now < start then s5.addStall x.req 1 ((start - now + 3) / 4) (msNode ms) bank else s5)

/-! ### Operations -/

/-- The command that holds a bank. -/
def State.rluRunOf (s : State) (ms bank : Nat) : Option RluRun := (s.comp.rlus.get ms).running.find? (fun r => r.bank == bank)

/-- Change the command that holds a bank. -/
def State.modRluRun (s : State) (ms bank : Nat) (f : RluRun → RluRun) : State :=
  s.modRlu ms (fun r => { r with running := mapWhere (fun x => x.bank == bank) f r.running })

/-- Postponed refreshes run, oldest first, 8 cycles each, with those that fall due meanwhile (R260); the cycle after the last, and how many
ran. Each that delays an operation of a request is a refresh stall of its own (R262). -/
def State.repay (s : State) (ms bank : Nat) (req : Option Nat) : Nat → Nat → Nat × Nat × State
  | 0, t => (t, 0, s)
  | fuel + 1, t =>
    let s0 := s.refreshUpTo ms bank t 1024
    let p := (s0.comp.rlus.get ms).postponed.get bank
    if p = 0 then (t, 0, s0)
    else
      let n := s0.mem.edramNext.get (32 * ms + bank) - p
      let s1 := (s0.modRlu ms (fun r => { r with postponed := r.postponed.set bank (p - 1) })).runRefresh ms bank n t
      let s2 := withSome req s1 (fun r s => s.addStall r 1 2 (msNode ms) bank)
      let q := s2.repay ms bank req fuel (t + 8)
      (q.1, q.2.1 + 1, q.2.2)

/-- A row as an operation senses it (R256, R258): bytes, poisoned words, whether a word was corrected. -/
structure Sensed where
  bytes : List Byte
  bad : List Nat
  corr : Bool

/-- The words of a row with an error, by number. -/
def State.rowMarks (s : State) (a : Nat) (p : ErrMark → Bool) : List Nat :=
  (List.range 128).filter (fun i => (s.mem.mem.marks.get? (a + 8 * i)).any p)

/-- A row is sensed: errors are corrected and counted, uncorrectable ones logged (R505, R506). -/
def State.senseRow (s : State) (part : Option Nat) (a : Nat) : Sensed × State :=
  let bad := s.rowMarks a (fun m => decide (m ≠ .ce))
  let corr := !(s.rowMarks a (fun m => decide (m = .ce))).isEmpty
  let s1 := (s.demandWords part ((s.rowMarks a (fun _ => true)).map (fun i => a + 8 * i))).2
  (⟨s.mem.mem.bytes a 1024, bad, corr⟩, s1)

/-- The result of an operation, byte by byte (R243). -/
def rowByte (op : Nat) (a b c : Byte) : Byte :=
  match op with
  | 1 => a
  | 2 => 0
  | 3 => ~~~a
  | 4 => a &&& b
  | 5 => a ||| b
  | 6 => a ^^^ b
  | 7 => ~~~(a ^^^ b)
  | 8 => (a &&& b) ||| (b &&& c) ||| (a &&& c)
  | _ => a

/-- The number of 1 bits of a row (R243). -/
def onesOf (bs : List Byte) : Nat := bs.foldl (fun n b => n + popcount8 b.toNat) 0

/-- The sources of an operation are sensed in order. -/
def State.senseSrcs (s : State) (part : Option Nat) (r : RluRun) : List Nat → List Sensed × State
  | [] => ([], s)
  | i :: is =>
    if i = 0x3F then
      let q := s.senseSrcs part r is
      (⟨r.sa, r.saBad, false⟩ :: q.1, q.2)
    else
      let x := s.senseRow part (r.rows.getD i 0)
      let q := x.2.senseSrcs part r is
      (x.1 :: q.1, q.2)

/-- A row is written whole with its poisoned words (R257, R258). -/
def State.writeRow (s : State) (part : Option Nat) (a : Nat) (bs : List Byte) (bad : List Nat) : State :=
  let s1 := (s.writeMem part a bs).2
  s1.modMem (fun m => { m with mem := { m.mem with marks := bad.foldl (fun k i => k.set (a + 8 * i) .poison) m.mem.marks } })

/-- One operation of the command that holds a bank (R243 to R245, R254 to R260). -/
def State.rowOp (s : State) (ms bank : Nat) (r : RluRun) (o : RowOp) : State :=
  let first := decide (r.next = 0) || !((rluOps r.record).getD (r.next - 1) o).hold
  let p := (s.comp.rlus.get ms).postponed.get bank
  let (start, n, s1) := if first && decide (7 ≤ p) then s.repay ms bank (some r.cmd.req) 64 r.ready else (r.ready, 0, s)
  let s3 := s1.modRlu ms (fun k => { k with inserted := satTo 65535 (k.inserted + n) })
  let part := some (s.cmdPart (msNode ms) r.cmd)
  let (src, s4) := s3.senseSrcs part r o.srcs
  let z := zeros 1024
  let a := (src[0]?.map (·.bytes)).getD z
  let b := (src[1]?.map (·.bytes)).getD z
  let c := (src[2]?.map (·.bytes)).getD z
  let bad := (List.range 128).filter (fun i => src.any (fun x => x.bad.contains i))
  let out := (a.zip (b.zip c)).map (fun x => rowByte o.op x.1 x.2.1 x.2.2)
  let s5 := if o.op = 9 then s4
    else (s4.writeRow part (r.rows.getD o.dst 0) out bad).modRlu ms (fun k => { k with poisoned := satTo 65535 (k.poisoned + bad.length) })
  let va := (rluRows r.record).getD (o.srcs.headD 0) 0
  s5.modRluRun ms bank (fun r => { r with
    next := r.next + 1, ready := start + o.cost, sa := out, saBad := bad, inserted := r.inserted + n
    corr := r.corr || src.any (·.corr), poisonVa := if bad.isEmpty then r.poisonVa else some (r.poisonVa.getD va)
    counts := if o.op = 9 then
        r.counts.set o.dst (match r.counts.getD o.dst none with
          | none => none
          | some k => if bad.isEmpty then some ((if o.cadd then k else 0) + onesOf a) else none)
      else r.counts })

/-- The row of an operation code: the next operation of the command that holds the bank, where it has that code and its first
cycle has come. -/
def State.rluRow (s : State) (ms bank op : Nat) : State :=
  withSome (s.rluRunOf ms bank) s (fun r s =>
    withSome ((rluOps r.record)[r.next]?) s (fun o s =>
      whenB (decide (o.op = op) && decide (r.ready ≤ 4 * s.tickOf (ms / 8) + 3)) s
        (fun s => (s.refreshUpTo ms bank r.ready 1024).rowOp ms bank r o)))

/-- RLU_COPY (R243). -/
def execRluCopy (ms : MsId) (bank : Fin 32) (s : State) : Out := .next (s.rluRow ms bank 1)

/-- RLU_CLEAR (R243). -/
def execRluClear (ms : MsId) (bank : Fin 32) (s : State) : Out := .next (s.rluRow ms bank 2)

/-- RLU_NOT (R243). -/
def execRluNot (ms : MsId) (bank : Fin 32) (s : State) : Out := .next (s.rluRow ms bank 3)

/-- RLU_AND (R243). -/
def execRluAnd (ms : MsId) (bank : Fin 32) (s : State) : Out := .next (s.rluRow ms bank 4)

/-- RLU_OR (R243). -/
def execRluOr (ms : MsId) (bank : Fin 32) (s : State) : Out := .next (s.rluRow ms bank 5)

/-- RLU_XOR (R243). -/
def execRluXor (ms : MsId) (bank : Fin 32) (s : State) : Out := .next (s.rluRow ms bank 6)

/-- RLU_XNOR (R243). -/
def execRluXnor (ms : MsId) (bank : Fin 32) (s : State) : Out := .next (s.rluRow ms bank 7)

/-- RLU_MAJ (R243). -/
def execRluMaj (ms : MsId) (bank : Fin 32) (s : State) : Out := .next (s.rluRow ms bank 8)

/-- RLU_POPCOUNT (R243, R244). -/
def execRluPopcount (ms : MsId) (bank : Fin 32) (s : State) : Out := .next (s.rluRow ms bank 9)

/-- The operations of a bank's command have ended: postponed refreshes are repaid, and the bank serves other accesses once they have run
(R253, R260). -/
def State.rluRelease (s : State) (ms bank : Nat) (r : RluRun) : State :=
  let s1 := ((s.refreshUpTo ms bank r.ready 1024).repay ms bank none 64 r.ready).2.2
  (s1.modRlu ms (fun k => { k with running := k.running.filter (fun x => !(x.bank == bank)), ending := k.ending ++ [r] })).unpark

/-- A command writes its count slots and then its status record (R250, R263); a poisoned source ends the request after the command
(R514). -/
def State.rluResults (s : State) (ms : Nat) (r : RluRun) : State :=
  let h := parseRlu r.record
  let s1 := s.modRlu ms (fun k => { k with ending := k.ending.erase r })
  let acc := s1.rluAcc ms r.cmd
  let slots := r.counts.flatMap (fun c => leBytes 4 (c.getD 0xFFFFFFFF))
  let w := if h.countVa = 0 then (none, s1) else s1.agWriteCode acc h.countVa slots
  let code := match w.1 with
    | some c => c
    | none => if r.poisonVa.isSome then .memPoison else .ok
  let s3 := match r.poisonVa with
    | some va => w.2.poisonReq acc.node r.cmd.req va
    | none => w.2
  s3.writeStatus acc r.cmd h.statusVa
    (rluStatus code.val r.corr r.poisonVa.isSome r.next r.inserted ((r.ready - 1) / 4)) .rluFormat

/-- RLU_COMMAND_END (R250, R260, R263): the command of a bank whose operations have ended frees its bank; then the results of the first
command of the bank that has them still to write are written, unless they wait for another held bank. -/
def execRluCommandEnd (ms : MsId) (bank : Fin 32) (s : State) : Out :=
  let s1 := withSome (s.rluRunOf ms bank) s (fun r s =>
    whenB (decide ((parseRlu r.record).ops ≤ r.next) && decide (r.ready ≤ 4 * s.tickOf (ms.val / 8) + 3)) s (fun s => s.rluRelease ms bank r))
  .next (withSome ((s1.comp.rlus.get ms).ending.find? (fun r => r.bank == bank.val)) s1 (fun r s => s.orWait (s.rluResults ms r)))

end Sys2Proof.Machine
end

