-- ==== Sys2Proof/Machine/Copy.lean ====
section
/-! DEFINITION. Layout copies of the memory slices' copy engines (R281 to R285). -/

namespace Sys2Proof.Machine

/-- The accessor of a copy: agent class DMA at the MS node (R282); its writes are bulk transfers (R293). -/
def State.copyAcc (s : State) (ms : Nat) (x : CmdRef) : Accessor :=
  { accessor (s.cmdPart (msNode ms) x) (msNode ms) .dma (some x.req) with bulk := true }

/-- A copy's status record (R285). -/
def copyStatus (code : Half) (poison : Bool) (dropped tick : Nat) : List Byte :=
  leBytes 2 code.toNat ++ leBytes 1 (copyFlagBits dropped poison) ++ zeros 1
    ++ leBytes 4 (satTo (2 ^ 32 - 1) dropped) ++ leBytes 8 tick

/-- COPY_ARRIVE (R281): queued, or refused with COPY_QUEUE_FULL where the queue holds 16. -/
def execCopyArrive (ms : MsId) (s : State) : Out := heldWait s fun s =>
  .next (withSome (s.takeInbox (msNode ms) (Packet.isCmd .copy)) s (fun y _ =>
    match y.1.payload with
    | .cmd _ x =>
      let s1 := y.2
      if (s1.comp.copies.get ms.val).queue.length < 16 then s1.modCopy ms (fun c => { c with queue := c.queue ++ [x] })
      else
        let acc := s1.copyAcc ms x
        match s1.agReadClean { acc with logVa := some x.va } (x.va + 16) 8 with
        | (.error c, s2) => s2.cmdUnreadable acc.node x c
        | (.ok b, s2) => s2.writeStatus acc x (leVal b) (copyStatus Code.copyQueueFull.val false 0 (s.tickOf (ms.val / 8))) .copyFormat
    | _ => y.2))

/-- A copy engine refuses the head of its queue (R282). -/
def State.copyRefuse (s : State) (ms : Nat) (x : CmdRef) (statusVa : Nat) (c : Code) : State :=
  let acc := s.copyAcc ms x
  ((s.modCopy ms (fun c => { c with queue := c.queue.drop 1 })).dataError acc.node x c x.va).writeStatus acc x statusVa
    (copyStatus c.val (decide (c = .memPoison)) 0 (s.tickOf (ms / 8))) .copyFormat

/-- Whether two descriptors may be copied between (R282 check 2). -/
def copyOk (a b : Td) : Bool :=
  a.wellFormed && b.wellFormed && decide (a.tyCode = b.tyCode) && decide (a.rank = b.rank)
    && (List.range 6).all (fun n => (a.dim n).extent == (b.dim n).extent)

/-- COPY_START (R282): the head of the queue of an idle engine is checked, and starts. -/
def execCopyStart (ms : MsId) (s : State) : Out := heldWait s fun s =>
  let e := s.comp.copies.get ms.val
  .next (match e.cur, e.queue with
    | none, x :: _ =>
      let acc := s.copyAcc ms x
      if s.cmdHeld x then s else
      (match s.readRecord acc x 64 16 with
       | (.unread c, s1) => (s1.modCopy ms (fun c => { c with queue := c.queue.drop 1 })).cmdUnreadable acc.node x c
       | (.refuse c va, s1) => s1.copyRefuse ms x va c
       | (.ok b, s1) =>
         let st := fieldLe b 16 8
         match s1.readTds acc [fieldLe b 0 8, fieldLe b 8 8] with
         | (.error c, s2) => s2.copyRefuse ms x st c
         | (.ok [a, d], s2) =>
           if copyOk a d then
             s2.modCopy ms (fun c => { c with
               queue := c.queue.drop 1
               cur := some ⟨x, b, a, d, [], 0, 0, false, s2.extTick (ms.val / 8), none⟩ })
           else s2.copyRefuse ms x st .copyFormat
         | (.ok _, s2) => s2)
    | _, _ => s)

/-- The source elements of a batch, in canonical order (R283): encodings and poison, that of an element being that of its lines (R285). -/
def State.copyReads (s : State) (x : Accessor) (d : Td) : List (List Nat) → ReadBuf →
    Except Code (List (Nat × Bool)) × ReadBuf × State
  | [], b => (.ok [], b, s)
  | i :: is, b =>
    match s.readElem x b d i with
    | (.error c, b1, s1) => (.error c, b1, s1)
    | (.ok (v, p), b1, s1) =>
      let s2 := match p with
        | some va => s1.logPoison (nodeDie x.node) x.node x.req va
        | none => s1
      match s2.copyReads x d is b1 with
      | (.error c, b2, s3) => (.error c, b2, s3)
      | (.ok l, b2, s3) => (.ok ((v, p.isSome) :: l), b2, s3)

/-- Ticks that a batch's reads wait for refreshes: the longest of its lines' waits (R284). -/
def ReadBuf.wait (b : ReadBuf) : Nat := (b.lines.map (·.wait)).foldl max 0

/-- The destination elements of a batch, placed in order; how many were dropped (R272, R285). -/
def State.copyPlaces (s : State) (x : Accessor) (d : Td) : List (List Nat × Nat × Bool) → List OwnerEnt → List ByteW → Nat →
    Except Code (List ByteW × Nat) × List OwnerEnt × State
  | [], ow, l, n => (.ok (l, n), ow, s)
  | (i, v, p) :: es, ow, l, n =>
    match s.placeElem x ow d i v p l with
    | (.error c, ow1, s1) => (.error c, ow1, s1)
    | (.ok none, ow1, s1) => s1.copyPlaces x d es ow1 l (n + 1)
    | (.ok (some l1), ow1, s1) => s1.copyPlaces x d es ow1 l1 n

/-- Change the running copy of an engine. -/
def State.modCopyRun (s : State) (ms : Nat) (f : CopyRun → CopyRun) : State :=
  s.modCopy ms (fun c => { c with cur := c.cur.map f })

/-- COPY_BATCH (R283, R284): 256 elements, every read before any write; a failure ends the copy and the batch writes nothing
(R285). At most 256 bytes are written per tick, after the longest of the reads' waits. -/
def execCopyBatch (ms : MsId) (s : State) : Out := heldWait s fun s =>
  .next (withSome (s.comp.copies.get ms.val).cur s (fun r s =>
    let acc := s.copyAcc ms r.cmd
    let total := r.src.windowSize
    let now := s.extTick (ms.val / 8)
    whenB (r.code.isNone && decide (256 * r.batch < total) && decide (r.ready ≤ now)) s (fun s =>
      let is := (upFrom (256 * r.batch) (min 256 (total - 256 * r.batch))).map r.src.indexOf
      let fail (c : Code) (s : State) : State :=
        (s.dataError acc.node r.cmd c 0).modCopyRun ms (fun r => { r with code := some c.val })
      match s.copyReads acc r.src is ⟨r.owners, []⟩ with
      | (.error c, _, s1) => fail c s1
      | (.ok vs, b, s1) =>
        match s1.copyPlaces acc r.dst (is.zip vs) b.owners [] 0 with
        | (.error c, _, s2) => fail c s2
        | (.ok (l, n), ow1, s2) =>
          match s2.flushBytes acc l with
          | (some c, s3) =>
            if c = .memPoison then
              s3.modCopyRun ms (fun r => { r with batch := r.batch + 1, owners := ow1, dropped := r.dropped + n, poison := true
                                                  ready := now + b.wait + max 1 ((l.length + 255) / 256) })
            else fail c s3
          | (none, s3) =>
            s3.modCopyRun ms (fun r => { r with batch := r.batch + 1, owners := ow1, dropped := r.dropped + n
                                                poison := r.poison || vs.any (·.2), ready := now + b.wait + max 1 ((l.length + 255) / 256) }))))

/-- COPY_END (R285): after the last batch or a failure, the status record and then the notice; poison ends the request after the copy
(R514). -/
def execCopyEnd (ms : MsId) (s : State) : Out := heldWait s fun s =>
  .next (withSome (s.comp.copies.get ms.val).cur s (fun r s =>
    let acc := s.copyAcc ms r.cmd
    whenB (r.code.isSome || (decide (r.src.windowSize ≤ 256 * r.batch) && decide (r.ready ≤ s.extTick (ms.val / 8)))) s (fun s =>
      let code := match r.code with
        | some c => c
        | none => if r.poison then Code.memPoison.val else Code.ok.val
      let s1 := if r.poison then s.poisonReq acc.node r.cmd.req r.src.base else s
      (s1.modCopy ms (fun c => { c with cur := none })).writeStatus acc r.cmd (fieldLe r.record 16 8)
        (copyStatus code r.poison r.dropped (s.tickOf (ms.val / 8))) .copyFormat)))

end Sys2Proof.Machine
end

