-- ==== Sys2Proof/Machine/Rings.lean ====
section
/-! DEFINITION. Rings and completion entries: taking and completing descriptors (R470 to R477, R490 to R493), enabling and disabling
(R501), completion lines (R455 to R458), and resets of functions (R468). -/

namespace Sys2Proof.Machine

/-! ### Rings -/

/-- The ring at (p, cq, q). -/
def State.ring (s : State) (p : Nat) (cq : Bool) (q : Nat) : Ring := s.req.rings.get (ringKey p cq q)

/-- The control register of a ring, as the hardware uses it. -/
def State.ringCtlWord (s : State) (p : Nat) (cq : Bool) (q : Nat) : Nat := s.appWord (ringCtl p cq q)

/-- Entries of a ring (R470). -/
def State.ringSize (s : State) (p : Nat) (cq : Bool) (q : Nat) : Nat := 2 ^ bitsOf (s.ringCtlWord p cq q) 4 0

/-- Bytes of a slot (R470). -/
def slotBytes (cq : Bool) : Nat := if cq then 32 else 64

/-- The address of the slot that running count `n` names (R470, R471). -/
def State.slotVa (s : State) (p : Nat) (cq : Bool) (q n : Nat) : Nat :=
  let base := s.appF (if cq then .ringCqbase else .ringSqbase) p q 0 56 12 * 4096
  base + slotBytes cq * (n % s.ringSize p cq q)

/-- The node at which accesses of a shared node for a partition are translated: its own, or, where its die holds no tables of the
partition (R227), the CTL-N of the admitting die. -/
def State.agentNode (s : State) (p n : Nat) : Nat :=
  if (s.region p (nodeDie n)).isSome then n else ctlNode ((s.admitDie p).getD (nodeDie n))

/-- A ring's memory is reached by agent class DMA (R231) at the node of its port. -/
def State.ringAgent (s : State) (p port : Nat) : Accessor := accessor p (s.agentNode p (hpNode port)) .dma none

/-- Slots of a CQ that are reserved (R474): descriptors taken and not completed, entries not written, and WRITE less HEAD. -/
def State.cqReserved (s : State) (p q : Nat) : Nat :=
  let r := s.ring p true q
  (s.req.descs.filter (fun d => d.part == p && d.cq == q && !d.orphan)).length
    + (s.req.due.filter (fun e => e.part == p && e.cq == q)).length + (r.write - r.head).toNat

/-- Whether a ring may change EN (chapter Descriptor Rings and Requests): no taken descriptor of it is uncompleted, and a CQ has no
reserved slot. -/
def State.ringIdle (s : State) (p : Nat) (cq : Bool) (q : Nat) : Bool :=
  if cq then decide (s.cqReserved p q = 0) else !s.req.descs.any (fun d => d.part == p && d.sq == q)

/-! ### Completion lines (R455 to R458) -/

/-- Change the completion lines of a port that satisfy `p`. -/
def State.modLines (s : State) (port : Nat) (p : CcLine → Bool) (f : CcLine → CcLine) : State :=
  s.modHp port (fun h => { h with lines := mapWhere p f h.lines })

/-- A port obtains the line of a ring's next entry with RdOwn (R456); a page that no longer translates puts the ring into ERROR. -/
def State.claimLine (s : State) (p q : Nat) : State :=
  let r := s.ring p true q
  let x := s.ringAgent p r.port
  match s.gate x .write false (s.slotVa p true q r.write.toNat) with
  | (.ok (.host _ _ a _ _), s1) =>
    let l : CcLine := ⟨r.func, p, q, a / 64, .i, zeros 64, none, true, false, false, false, false⟩
    (s1.modHp r.port (fun h => { h with lines := h.lines.filter (fun c => !(c.part == p && c.cq == q && !c.orphan)) ++ [l] })).emit
      (.cxlReq r.port "RdOwn" (a / 64))
  | (.ok _, s1) => s1.ringError p true q .ringFormat
  | (.error c, s1) => (s1.gateLog x (s.slotVa p true q r.write.toNat) c).ringError p true q c

/-- A completion line is evicted (R456): DirtyEvict, and the line is in the evict buffer until its GO message (R458). -/
def State.evictLine (s : State) (port : Nat) (c : CcLine) : State :=
  (s.modLines port (fun l => decide (l = c)) (fun l => { l with evicting := true, holdDue := none })).emit (.cxlReq port "DirtyEvict" c.line)

/-- Data of a completion line is sent; an uncorrectable error in it goes as Poison, and the CQ enters ERROR (R502). -/
def State.sendLineData (s : State) (port : Nat) (c : CcLine) (bogus : Bool) : State :=
  let s1 := s.emit (.cxlData port c.line c.data c.ue bogus)
  if c.ue && decide ((s.ring c.part true c.cq).st = 1) && !c.orphan then s1.ringError c.part true c.cq .memUe else s1

/-- The completion line `line` of a port that satisfies `p`. -/
def State.lineAt (s : State) (port line : Nat) (p : CcLine → Bool) : Option CcLine :=
  (s.io.hps.get port).lines.find? (fun c => c.line == line && p c)

/-- A snooped line is given up and asked for again (R457). -/
def State.giveUp (s : State) (port : Nat) (c : CcLine) : State :=
  (s.modLines port (fun l => decide (l = c)) (fun l => { l with st := .i, asking := true })).emit (.cxlReq port "RdOwn" c.line)

/-- CACHE_LINE_SNOOP (R457): a snoop to a held completion line that is not in the evict buffer; one that is asked for and not
granted is not held. -/
def execCacheLineSnoop (port : Fin 4) (line : Nat) (sn : Snoop) (s : State) : Out :=
  .next (withSome (s.lineAt port line (fun c => !c.evicting)) s (fun c s =>
    match c.st, sn with
    | .i, _ => s.emit (.cxlRsp port "RspIHitI" line)
    | .s, _ => s.emit (.cxlRsp port "RspIHitSE" line)
    | .m, .cur => (s.emit (.cxlRsp port "RspVFwdV" line)).sendLineData port c false
    | .e, .cur => s.emit (.cxlRsp port "RspVFwdV" line)
    | .m, _ => ((s.giveUp port c).emit (.cxlRsp port "RspIFwdM" line)).sendLineData port c false
    | .e, _ => (s.giveUp port c).emit (.cxlRsp port "RspIHitSE" line)))

/-- EVICT_CROSSING_SNOOP (R458): a snoop of a line in the evict buffer is answered with its data. -/
def execEvictCrossingSnoop (port : Fin 4) (line : Nat) (sn : Snoop) (s : State) : Out :=
  .next (withSome (s.lineAt port line (·.evicting)) s (fun c s =>
    match sn with
    | .cur => (s.emit (.cxlRsp port "RspVFwdV" line)).sendLineData port c false
    | _ => ((s.modLines port (fun l => decide (l = c)) (fun l => { l with snooped := true })).emit (.cxlRsp port "RspIFwdM" line)).sendLineData
        port c false))

/-- GO_WRITEPULL (R458): the data of an eviction is pulled, with Bogus where a snoop has taken it, or dropped; the ring's next line is
then obtained (R456). -/
def execGoWritepull (port : Fin 4) (line : Nat) (drop : Bool) (s : State) : Out :=
  .next (withSome (s.lineAt port line (·.evicting)) s (fun c s =>
    let s1 := if drop then s else s.sendLineData port c c.snooped
    let s2 := s1.modHp port (fun h => { h with lines := h.lines.erase c })
    if !c.orphan && decide ((s2.ring c.part true c.cq).st = 1) then s2.claimLine c.part c.cq else s2))

/-- RDOWN_GRANT (R456): the line is held in E state; that of a deleted ring is given up at once. -/
def execRdownGrant (port : Fin 4) (line : Nat) (bytes : List Byte) (s : State) : Out :=
  .next (withSome (s.lineAt port line (·.asking)) s (fun c s =>
    let c1 := { c with st := .e, asking := false, data := bytes }
    let s1 := s.modLines port (fun l => decide (l = c)) (fun _ => c1)
    if c.orphan then s1.evictLine port c1 else s1))

/-- CC_HOLD_EXPIRY (R456): CC_HOLD ticks after a line's first entry was written it is evicted. -/
def execCcHoldExpiry (port : Fin 4) (line : Nat) (s : State) : Out :=
  .next (withSome (s.lineAt port line (fun c => !c.evicting && !c.asking && c.holdDue.any (fun t => s.reached port t))) s
    (fun c s => s.evictLine port c))

/-- A ring's completion lines are released (R468, R501): evicted while the host link is up, discarded while it is down. -/
def State.releaseLines (s : State) (port : Nat) (p : CcLine → Bool) : State :=
  let h := s.io.hps.get port
  if h.linkUp then
    let s1 := s.modLines port p (fun c => { c with orphan := true })
    eachOf (h.lines.filter (fun c => p c && !c.evicting && !c.asking)) (fun c s => s.evictLine port { c with orphan := true }) s1
  else s.modHp port (fun h => { h with lines := h.lines.filter (fun c => !p c) })

/-! ### Enabling and disabling (R501) -/

/-- A ring is OFF with nothing claimed; entries due and notices of it are discarded, and a CQ's taken descriptors make no entry. -/
def State.dropRing (s : State) (p : Nat) (cq : Bool) (q : Nat) : State :=
  let r := s.ring p cq q
  let s1 := s.lanternDisarm r.port (fun f w => f == r.func && w.part == p && w.ring == q && w.cq == cq)
  let s2 := if cq then s1.releaseLines r.port (fun c => c.part == p && c.cq == q && !c.orphan) else s1
  let s3 := s2.modRing (ringKey p cq q) (fun r => { Ring.reset with code := r.code })
  s3.modReqs (fun k => { k with
    notices := k.notices.mapAll (fun l => l.filter (fun n => !(n.part == p && n.cq == cq && n.ring == q)))
    due := if cq then k.due.filter (fun e => !(e.part == p && e.cq == q)) else k.due
    descs := if cq then mapWhere (fun d => d.part == p && d.cq == q) (fun d => { d with orphan := true }) k.descs else k.descs })

/-- A ring is deleted (R468): it is dropped, and its EN reads 0. -/
def State.deleteRing (s : State) (p : Nat) (cq : Bool) (q : Nat) : State := (s.dropRing p cq q).hwSet (ringCtl p cq q) 63 63 0

/-- The pages of a ring (R470): every one a host-kind page of one port and function that grants the DMA agent. The answer is that port
and function. -/
def State.checkRingPages (s : State) (x : Accessor) (k : AccKind) : List Nat → Option (Nat × Nat) → Except Code (Nat × Nat) × State
  | [], some pf => (.ok pf, s)
  | [], none => (.error .ringFormat, s)
  | va :: vas, pf =>
    match s.gate x k false va with
    | (.error c, s1) => (.error c, s1.gateLog x va c)
    | (.ok (.host port func _ _ _), s1) =>
      if pf.all (fun y => y == (port, func)) then s1.checkRingPages x k vas (some (port, func)) else (.error .ringFormat, s1)
    | (.ok (.dev _), s1) => (.error .ringFormat, s1)

/-- The ring shows a code and stays OFF (R501). -/
def State.ringStaysOff (s : State) (p : Nat) (cq : Bool) (q : Nat) (c : Code) : State :=
  s.modRing (ringKey p cq q) (fun r => { r with code := c.val })

/-- Step 3 of R501 for a CACHE CQ: a line is claimed (R456). -/
def State.claimRing (s : State) (p q : Nat) : State :=
  let r := s.ring p true q
  let h := s.io.hps.get r.port
  if !h.cxl then (s.dropRing p true q).ringStaysOff p true q .ringFormat
  else if 64 ≤ h.lines.length then (s.dropRing p true q).ringStaysOff p true q .hpCacheFull
  else s.claimLine p q

/-- Steward enables a ring (R501). -/
def State.enableRing (s : State) (p : Nat) (cq : Bool) (q d : Nat) : State :=
  let base := s.slotVa p cq q 0
  let bytes := slotBytes cq * s.ringSize p cq q
  let pages := (List.range ((base + bytes - 1) / 65536 - base / 65536 + 1)).map (fun i => if i = 0 then base else (base / 65536 + i) * 65536)
  match s.checkRingPages (accessor p (ctlNode d) .dma none) (if cq then .write else .read) pages none with
  | (.error c, s1) => s1.ringStaysOff p cq q c
  | (.ok (port, func), s1) =>
    let ctl := s1.ringCtlWord p cq q
    let s2 := s1.modRing (ringKey p cq q) (fun r => { Ring.reset with st := 1, code := r.code, port := port, func := func })
    let db := s.appWord ⟨if cq then .ringCqdb else .ringSqdb, p, q, 0⟩
    let armed := if bitOf ctl 5 then some s2 else s2.lanternArm port func (bitsOf db 51 6) ⟨bitsOf db 5 3, p, q, cq, 0⟩
    match armed with
    | none => (s2.dropRing p cq q).ringStaysOff p cq q .lanternFull
    | some s3 => if cq && bitOf ctl 6 then s3.claimRing p q else s3

/-- Whether a die's life-cycle state has data service (R550); one that has not received a state behaves as RETURNED. -/
def State.dataService (s : State) (d : Nat) : Bool :=
  match (s.sys.sec.get d).lc.getD .returned with
  | .raw | .returned | .retired => false
  | .provisioned | .deployed | .diagnostic => true

/-- RING_ENABLE (R497, R501): the EN shadow of an idle ring, written in an earlier tick, is applied as 1; without data service the ring stays OFF (R550). -/
def execRingEnable (p : PartId) (cq : Bool) (q : Fin 64) (s : State) : Out :=
  let k := ringCtl p cq q
  .next (withSome (s.admitDie p) s (fun d s =>
    whenB (bitOf (s.visWord k) 63 && !bitOf (s.appWord k) 63 && s.ringIdle p cq q && s.dieUp d && s.settled k) s
      (fun s =>
        let s1 := s.applyBoundary k (fun _ => true)
        if s.dataService d then s1.enableRing p cq q d else s1.ringStaysOff p cq q .lcDenied)))

/-- RING_DISABLE (R497, R501): the EN shadow of an idle ring, written in an earlier tick, is applied as 0. -/
def execRingDisable (p : PartId) (cq : Bool) (q : Fin 64) (s : State) : Out :=
  let k := ringCtl p cq q
  .next (whenB (!bitOf (s.visWord k) 63 && bitOf (s.appWord k) 63 && s.ringIdle p cq q && s.settled k) s
    (fun s => (s.applyBoundary k (fun _ => true)).dropRing p cq q))

/-! ### Completion -/

/-- A completion entry without PHASE (R490). -/
def entryBytes (d : Desc) (code : Half) (head : Word32) (result : Word) (aux replicas : Nat) (lowered : Bool) : List Byte :=
  leBytes 8 d.tag.toNat ++ leBytes 2 code.toNat ++ leBytes 1 d.sq ++ leBytes 1 d.kind ++ leBytes 4 head.toNat
    ++ leBytes 8 result.toNat ++ leBytes 4 aux ++ leBytes 1 replicas ++ leBytes 1 (b2n lowered) ++ zeros 2

/-- A descriptor ends: its entry is formed and goes to the port of its CQ (R490 to R492), or is discarded where the CQ takes none
(R473). `flush`: R461 asks for a completion flush. -/
def State.formEntry (s : State) (d : Desc) (src : Nat) (flush : Bool) (code : Half) (result : Word) (aux replicas : Nat) (lowered : Bool) :
    State :=
  let s1 := s.modReqs (fun k => { k with descs := k.descs.filter (fun x => !(x.id == d.id)) })
  let cq := s.ring d.part true d.cq
  if d.orphan || decide (cq.st ≠ 1) then s1
  else
    let e : DueEntry := ⟨d.id, d.part, d.cq, entryBytes d code (s.ring d.part false d.sq).head result aux replicas lowered, d.irqNow, false, flush, none⟩
    (s1.modReqs (fun k => { k with due := k.due ++ [e] })).send src (.node (hpNode cq.port)) 1 1 (some d.part) none (.completion d.id)

/-- A descriptor that Steward completes (R491). -/
def State.complete (s : State) (d : Desc) (c : Code) (result : Word) (aux : Nat) : State :=
  s.formEntry d (ctlNode ((s.admitDie d.part).getD 0)) false c.val result aux 0 false

/-- A descriptor's failed access: a Gatehouse code comes with the DVA and the node (R490). -/
def State.completeFault (s : State) (d : Desc) (c : Code) (va node : Nat) : State :=
  if isGhCode c.val then s.complete d c (BitVec.ofNat 64 va) node else s.complete d c 0 0

/-- An entry reaches the port of its ring (R461, R492): its flush, of the address of its line, is issued where one is needed. -/
def State.entryArrives (s : State) (desc : Nat) : State :=
  match s.req.due.find? (fun e => e.desc == desc) with
  | none => s
  | some e =>
    let r := s.ring e.part true e.cq
    let id := (s.io.hps.get r.port).nextRead
    let e1 := { e with arrived := true, flush := false, flushId := if e.flush then some id else none }
    let s1 := s.modReqs (fun k => { k with due := k.due.filter (fun x => !(x.desc == desc)) ++ [e1] })
    if e.flush && (s.io.hps.get r.port).linkUp then
      match (s1.gate (s1.ringAgent e.part r.port) .write false (s1.slotVa e.part true e.cq r.write.toNat)).1 with
      | .ok (.host _ f a _ _) => s1.hostRead r.port f (a / 64 * 64) 0 (.flush e.part e.cq)
      | _ => s1.modReqs (fun k => { k with due := mapWhere (fun x => x.desc == desc) (fun x => { x with flushId := none }) k.due })
    else s1.modReqs (fun k => { k with due := mapWhere (fun x => x.desc == desc) (fun x => { x with flushId := none }) k.due })

/-- An entry has been written: it is unannounced until its ring's next message (R493). -/
def Ring.wrote (r : Ring) (now : Nat) (irqNow : Bool) : Ring :=
  { r with write := r.write + 1, unannounced := r.unannounced + 1, oldest := if r.unannounced = 0 then now else r.oldest
           irqNow := r.irqNow || irqNow }

/-- The line that holds an entry, where the port may write it (R456). -/
def State.heldLine (s : State) (p q line : Nat) : Option CcLine :=
  (s.io.hps.get (s.ring p true q).port).lines.find? (fun c => c.part == p && c.cq == q && c.line == line && !c.orphan && !c.asking && !c.evicting)

/-- An entry is written by its ring's path (R455, R456, R492): at host address `a` of function `f`; a POSTED write goes without
Relaxed Ordering or No Snoop. -/
def State.putEntry (s : State) (e : DueEntry) (port f a : Nat) (bytes : List Byte) : State :=
  if bitOf (s.ringCtlWord e.part true e.cq) 6 then
    match s.heldLine e.part e.cq (a / 64) with
    | none => s
    | some c =>
      let off := a % 64
      let hold := s.appF .hpLanternctl port 0 0 7 0
      let c1 := { c with st := .m, data := overlay c.data off bytes, holdDue := some (s.tickAfter port hold) }
      let s1 := s.modLines port (fun l => decide (l = c)) (fun _ => c1)
      if off = 0 then s1 else s1.evictLine port c1
  else s.emit (.hostWrite port f a bytes false false false)

/-- A due entry is the next that its port may write: the first of its ring, arrived, flushed, and, for a CACHE ring, its line
held. -/
def State.entryReady (s : State) (port : Nat) (e : DueEntry) : Bool :=
  let r := s.ring e.part true e.cq
  let first := (s.req.due.find? (fun x => x.part == e.part && x.cq == e.cq && x.arrived)).any (fun x => x.desc == e.desc)
  let held := match (s.gate (s.ringAgent e.part r.port) .write false (s.slotVa e.part true e.cq r.write.toNat)).1 with
    | .ok (.host _ _ a _ _) => (s.heldLine e.part e.cq (a / 64)).isSome
    | _ => true
  r.port == port && e.arrived && !e.flush && e.flushId.isNone && first
    && (!(s.io.hps.get port).linkUp || !bitOf (s.ringCtlWord e.part true e.cq) 6 || held)

/-- COMPLETION_WRITE (R492): the port writes its next entry, or, while its host link is down, discards it (R467). A write that fails the
Gatehouse puts the CQ into ERROR (R473). -/
def execCompletionWrite (port : Fin 4) (s : State) : Out :=
  .next (withSome (s.req.due.find? (fun e => s.entryReady port e)) s (fun e s =>
    let s1 := s.modReqs (fun k => { k with due := k.due.filter (fun x => !(x.desc == e.desc)) })
    if !(s.io.hps.get port.val).linkUp then s1
    else
      let r := s.ring e.part true e.cq
      let n := r.write.toNat
      let va := s.slotVa e.part true e.cq n
      let x := s.ringAgent e.part port
      let phase := 1 - n / s.ringSize e.part true e.cq % 2
      match s1.gate x .write false va with
      | (.ok (.host _ f a _ _), s2) =>
        (s2.putEntry e port f a (e.bytes.take 31 ++ leBytes 1 phase)).modRing (ringKey e.part true e.cq) (·.wrote (s.tickOf port) e.irqNow)
      | (.ok _, s2) => s2.ringError e.part true e.cq .ringFormat
      | (.error c, s2) => (s2.gateLog x va c).ringError e.part true e.cq c))

/-! ### Interrupts (R493, R633) -/

/-- An MSI-X message of a function's vector: sent, or its pending bit is set while it is masked; discarded while the host link is down
(R462, R467). -/
def State.msix (s : State) (port func vector : Nat) : State :=
  let h := s.io.hps.get port
  if !h.linkUp then s
  else if h.masked.get (func, vector) then s.modHp port (fun h => { h with pendingMsi := h.pendingMsi.set (func, vector) true })
  else let t := h.table.get (func, vector); s.emit (.msix port func vector t.1 t.2)

/-- Whether a CQ has to announce its entries (R493). -/
def State.irqDue (s : State) (p q : Nat) : Bool :=
  let r := s.ring p true q
  let coal := s.appWord ⟨.ringCqcoal, p, q, 0⟩
  let timer := bitsOf coal 31 16
  bitOf (s.ringCtlWord p true q) 7 && decide (r.st ≠ 0) && decide (r.unannounced ≠ 0)
    && (decide (bitsOf coal 8 0 ≤ r.unannounced) || (decide (timer ≠ 0) && decide (timer ≤ s.since r.port r.oldest)) || r.irqNow)

/-- CQ_INTERRUPT (R493): one message announces every entry written before it. -/
def execCqInterrupt (p : PartId) (q : Fin 64) (s : State) : Out :=
  .next (whenB (s.irqDue p q) s (fun s =>
    let r := s.ring p true q
    (s.modRing (ringKey p true q) (fun r => { r with unannounced := 0, irqNow := false })).msix r.port r.func
      (bitsOf (s.ringCtlWord p true q) 15 8)))

/-- MSIX_UNMASK (R493): the mask bit of a vector becomes 0, and a pending message goes out. -/
def execMsixUnmask (f : FuncRef) (vector : Fin 65) (s : State) : Out :=
  let k := (f.func.val, vector.val)
  let pend := (s.io.hps.get f.port.val).pendingMsi.get k
  let s1 := s.modHp f.port (fun h => { h with masked := h.masked.set k false, pendingMsi := h.pendingMsi.set k false })
  .next (if pend then s1.msix f.port f.func vector else s1)

/-! ### Resets of functions (R468) -/

/-- A reset of a function (R468, R581). -/
def State.resetFunction (s : State) (port func : Nat) : State :=
  let s1 := s.endReqs (fun r => r.port == port && r.func == func) .hpFlr
  let s2 := s1.breakLocks (fun _ l => l.port == port && l.func == func) 5
  let s3 := s2.releaseLines port (fun c => c.func == func && !c.orphan)
  let s4 := s3.lanternDisarm port (fun f _ => f == func)
  let rings := (List.range 2048).filter (fun k =>
    let r := s4.req.rings.get k
    decide (r.st ≠ 0) && r.port == port && r.func == func)
  let s5 := eachOf rings (fun k s => s.deleteRing (k / 128) (decide (64 ≤ k % 128)) (k % 64)) s4
  let mine (k : Nat × Nat) : Bool := k.1 == func
  s5.modHp port (fun h => { h with
    masked := h.masked.forget mine
    pendingMsi := h.pendingMsi.forget mine
    table := h.table.forget mine })

/-- FLR (R468). -/
def execFlr (f : FuncRef) (s : State) : Out := .next (s.resetFunction f.port f.func)

end Sys2Proof.Machine
end

