-- ==== Sys2Proof/Machine/Host.lean ====
section
/-! DEFINITION. The host ports: the aperture (R445), the CXL.mem window (R463 to R465), outbound reads (R466), the host link (R467), and
PERST# (R602). -/

namespace Sys2Proof.Machine

/-! ### The aperture -/

/-- BAR4_ACCESS (R445): a host access at an offset of BAR4 addresses BASE plus that offset in the function's partition, line by line
under agent class HOST. Until READY, in NO_SERVICE, or while the function is not enabled, a read is answered Unsupported Request and a
write is dropped (R443, R524, R602). Accesses that waited for a bank come first (R253); a failed check makes a read a Completer Abort and drops a write's line (R233). -/
def execBar4Access (f : FuncRef) (off : Nat) (a : HostAccess) (s0 : State) : Out :=
  let s := s0.unpark
  let port := f.port.val
  let func := f.func.val
  .next (match s.funcPart port func, s.dieServes port with
    | some p, true =>
      let x : Accessor := { (s.ringAgent p port) with cls := .host }
      let va := s.appF .hpAperture port func 0 56 30 * 2 ^ 30 + off
      (match a with
       | .read len =>
         s.hostReads p x.node port func va len
       | .write bytes =>
         ((linePieces (bytes.length / 64 + 2) va bytes.length).foldl
           (fun (acc : State × List Byte) q => ((acc.1.writeLine x q.1 (acc.2.take q.2)).2, acc.2.drop q.2)) (s, bytes)).1)
    | _, _ => (match a with
       | .read _ => s.emit (.hostUr port func)
       | .write _ => s))

/-! ### The CXL.mem window -/

/-- The line of an enabled window whose decoder is committed (R463). -/
def State.windowLine (s : State) (port line : Nat) : Option Nat :=
  let h := s.io.hps.get port
  let w := s.appWord ⟨.hpMemwin, port, 0, 0⟩
  let base := port * 0x2000000000 + bitsOf w 17 16 * 0x800000000 + bitsOf w 7 0 * 0x10000000
  if h.linkUp && h.cxl && h.decoder.isSome && bitOf w 63 && decide (64 * line < bitsOf w 15 8 * 0x10000000) then some (base + 64 * line)
  else none

/-- HP_MEMWIN_LOST is logged once (R465). -/
def State.windowLost (s : State) (port : Nat) : State :=
  if (s.io.hps.get port).winLost then s
  else (s.modHp port (fun h => { h with winLost := true })).log port (hpNode port) none .hpMemwinLost 0 0

/-- MEMWIN_ACCESS (R463, R465): a CXL.mem read or write of a line of the window. Its poison is stored, and goes with read data; while
the window's stack is fenced reads return Poison and writes are dropped. -/
def execMemwinAccess (port : Fin 4) (line : Nat) (a : LineAccess) (s : State) : Out :=
  .next (withSome (s.windowLine port line) s (fun addr s =>
    let up := (addrUnit addr).any (fun x => s.unitUp x.1 x.2)
    match a, up with
    | .read, true =>
      let r := s.readMem none addr 64
      r.2.emit (.hostData port 0 r.1.bytes r.1.poison)
    | .write bytes poison, true =>
      let s1 := (s.writeMem none addr bytes).2
      if poison then s1.modMem (fun m => { m with mem := m.mem.poisonLine addr }) else s1
    | .read, false =>
      let r := s.freeBytes 64
      (r.2.emit (.hostData port 0 r.1 true)).windowLost port
    | .write _ _, false => s.windowLost port))

/-- HDM_DECODER_COMMIT (R463): the host sets the window's physical base and commits or uncommits the decoder of a port that runs
CXL. -/
def execHdmDecoderCommit (port : Fin 4) (base : Nat) (commit : Bool) (s : State) : Out :=
  .next (whenB (s.io.hps.get port.val).cxl s (fun s => s.modHp port (fun h => { h with decoder := if commit then some base else none })))

/-! ### Outbound reads (R466) -/

/-- A host read of a core is answered over the mesh. -/
def State.answerCore (s : State) (port core tag : Nat) (a : MemAns) : State :=
  let req := (s.comp.cores.get core).req
  s.send (hpNode port) (.node (coreNode core)) 2 1 ((req.bind s.findReq).map (·.part)) req (.memAns a core tag)

/-- A port's outstanding read ends with a code: a core's access fails (R316), a completion flush puts its ring into ERROR (R473),
a poll is repeated at the line's next turn (R451). -/
def State.hostReadFails (s : State) (port : Nat) (r : HostRead) (c : Code) : State :=
  let s1 := s.modHp port (fun h => { h with reads := h.reads.filter (fun x => !(x.id == r.id)) })
  match r.why with
  | .poll _ => s1
  | .core core tag => s1.answerCore port core tag (.fault c.val)
  | .flush p cq => s1.ringError p true cq c

/-- A completion flush has completed: its entry may be written (R461). -/
def State.flushDone (s : State) (part cq id : Nat) : State :=
  s.modReqs (fun k => { k with
    due := mapWhere (fun e => e.part == part && e.cq == cq && e.flushId == some id) (fun e => { e with flushId := none }) k.due })

/-- HP_CPL_TIMEOUT (R466): a host-bound read has waited 50,000 ticks. -/
def execHpCplTimeout (port : Fin 4) (id : Nat) (s : State) : Out :=
  .next (withSome ((s.io.hps.get port.val).reads.find? (fun r => r.id == id)) s (fun r s =>
    whenB (decide (50000 ≤ s.since port r.issued)) s (fun s => s.hostReadFails port r .hpCplTimeout)))

/-- HOST_READ_COMPLETION (R466): the host answers an outbound read; an answer to none outstanding is discarded. -/
def execHostReadCompletion (port : Fin 4) (id : Nat) (ans : HostAnswer) (s : State) : Out :=
  .next (withSome ((s.io.hps.get port.val).reads.find? (fun r => r.id == id)) s (fun r s =>
    match ans with
    | .data bytes =>
      let s1 := s.modHp port (fun h => { h with reads := h.reads.filter (fun x => !(x.id == id)) })
      (match r.why with
       | .poll line => s1.pollData port r.func line bytes
       | .core core tag => s1.answerCore port core tag (.value (BitVec.ofNat 64 (leVal (bytes.take r.len))))
       | .flush p cq => s1.flushDone p cq id)
    | _ => s.hostReadFails port r .hpUr))

/-! ### The host link (R467) -/

/-- A port's host link goes down (R467): outstanding host-bound reads are answered with HP_LINK_DOWN; entries whose flush was outstanding
are discarded as they come due. -/
def State.hostLinkDown (s : State) (port : Nat) : State :=
  let s1 := (s.modHp port (fun h => { h with linkUp := false })).log port (hpNode port) none .hpLinkDown 0 0
  eachOf (s.io.hps.get port).reads (fun r s =>
    match r.why with
    | .flush p cq => (s.modHp port (fun h => { h with reads := h.reads.filter (fun x => !(x.id == r.id)) })).flushDone p cq r.id
    | _ => s.hostReadFails port r .hpLinkDown) s1

/-- HP_LINK_DOWN (R467). -/
def execHpLinkDown (port : Fin 4) (s : State) : Out := .next (whenB (s.io.hps.get port.val).linkUp s (fun s => s.hostLinkDown port))

/-- HP_LINK_UP (R439, R467, R602): after D4 and with PERST# deasserted the link trains; every enabled function is treated as having
received an FLR. -/
def execHpLinkUp (port : Fin 4) (cxl : Bool) (s : State) : Out :=
  .next (whenB (!(s.io.hps.get port.val).linkUp && decide (4 ≤ (s.sys.clk.get port.val).step)) s (fun s =>
    let s1 := (s.modHp port (fun h => { h with linkUp := true, cxl := cxl, perst := false })).log port (hpNode port) none .hpLinkUp 0 0
    eachOf ((List.range 16).filter (fun f => (s.funcPart port f).isSome)) (fun f s => s.resetFunction port f) s1))

/-- PERST (R602): a FUNCTION reset of every function of the port. -/
def execPerst (port : Fin 4) (s : State) : Out :=
  .next (eachOf (List.range 16) (fun f s => s.resetFunction port f) (s.modHp port (fun h => { h with perst := true })))

end Sys2Proof.Machine
end

