-- ==== Sys2Proof/Machine/Streams.lean ====
section
/-! DEFINITION. Stream ports: ingress checks (R402 to R411), PTP (R413 to R415), bindings (R416 to R419), events, records and notices
(R420 to R430), back-pressure (R431), steering frames (R433 to R436). -/

namespace Sys2Proof.Machine

/-! ### Frames (R404 to R409) -/

/-- Two bytes as a number in network order. -/
def be16 (f : List Byte) (o : Nat) : Nat := fieldBe f o 2

/-- The one's complement sum of 16-bit words, folded. -/
def onesSum (bs : List Byte) : Nat :=
  let t := (chunksOf 2 bs).foldl (fun t w => t + beVal (padTo 2 w)) 0
  let f (x : Nat) : Nat := x % 65536 + x / 65536
  f (f (f t))

/-- A detector frame header (R407). -/
structure DetHdr where
  version : Nat
  flags : Nat
  len : Nat
  stream : Nat
  event : Word
  frag : Nat
  count : Nat
  time : Word
  seq : Nat
deriving DecidableEq, Repr

/-- The header's 32 bytes; multi-byte fields are little-endian (R10). -/
def parseDet (b : List Byte) : DetHdr :=
  { version := byteAt b 0, flags := byteAt b 1, len := fieldLe b 2 2, stream := fieldLe b 4 4
    event := BitVec.ofNat 64 (fieldLe b 8 8), frag := fieldLe b 16 2, count := fieldLe b 18 2
    time := BitVec.ofNat 64 (fieldLe b 20 8), seq := fieldLe b 28 4 }

/-- HEARTBEAT of a header (R409). -/
def DetHdr.heartbeat (h : DetHdr) : Bool := bitOf h.flags 5

/-- Whether a UDP datagram at `o` carries a detector frame to a port (R405); `pseudo` is the pseudo-header of its checksum. -/
def udpOk (body : List Byte) (o port : Nat) (pseudo : List Byte) (zeroOk : Bool) : Bool :=
  let len := be16 body (o + 4)
  let h := parseDet (body.drop (o + 8))
  decide (be16 body (o + 2) = port) && decide (len = 40 + h.len) && decide (o + 40 ≤ body.length)
    && (if be16 body (o + 6) = 0 then zeroOk
        else decide (onesSum (pseudo ++ beBytes 2 len ++ (body.drop o).take len) = 0xFFFF))

/-- Where the detector header of a frame begins, by its encapsulation; `ctl` is STR_PORTCTL, `body` the frame without its FCS. -/
def encapsulation (ctl : Nat) (body : List Byte) : Option Nat :=
  let tagged := decide (be16 body 12 = 0x8100)
  let o := if tagged then 18 else 14
  let ty := be16 body (o - 2)
  let port := bitsOf ctl 47 32
  if tagged && !bitOf ctl 6 then none
  else if bitOf ctl 2 && decide (ty = bitsOf ctl 31 16) then (if o + 32 ≤ body.length then some o else none)
  else if ty = 0x0800 ∧ bitOf ctl 1 = true then
    let ip := body.drop o
    let pseudo := (ip.drop 12).take 8 ++ [0, 17]
    if decide (byteAt ip 0 = 0x45) && decide (be16 ip 6 % 0x4000 = 0) && decide (onesSum (ip.take 20) = 0xFFFF)
        && decide (byteAt ip 9 = 17) && decide (be16 ip 2 = 20 + be16 ip 24) && udpOk body (o + 20) port pseudo true then some (o + 28)
    else none
  else if ty = 0x86DD ∧ bitOf ctl 0 = true then
    let ip := body.drop o
    let pseudo := (ip.drop 8).take 32 ++ [0, 17]
    if decide (byteAt ip 6 = 17) && decide (be16 ip 4 = be16 ip 44)
        && udpOk body (o + 40) port pseudo false then some (o + 48)
    else none
  else none

/-- Check 6 (R405, R406): the header's place, where no byte follows the payload unless the frame is exactly 64 bytes long. -/
def frameHeader (ctl : Nat) (frame : List Byte) : Option Nat :=
  let body := frame.take (frame.length - 4)
  match encapsulation ctl body with
  | some o =>
    let stop := o + 32 + (parseDet (body.drop o)).len
    if frame.length = 64 ∨ body.length ≤ stop then some o else none
  | none => none

/-- Check 7 (R408, R409): `avail` payload bytes are in the frame. -/
def DetHdr.inRange (h : DetHdr) (avail : Nat) : Bool :=
  decide (h.version = 1) && decide (h.flags < 64) && decide (h.stream ≠ 0) && decide (h.len ≤ avail)
    && (if h.heartbeat then decide (h.len = 0) && decide (h.frag = 0) && decide (h.count = 0)
        else decide (h.frag < h.count) && decide (1 ≤ h.count) && decide (1 ≤ h.len))

/-! ### Bindings -/

/-- The fields of a context's binding half (R417). -/
structure StreamHalf where
  stream : Nat
  sp : Nat
  part : Nat
  openMax : Nat
  bulk : Bool
  steer : Bool
  fragBytes : Nat
  timeout : Nat
  gap : Nat
  log2Recs : Nat
  notify : Nat
  recBase : Nat
  dataBase : Nat
  dataBytes : Nat
deriving DecidableEq, Repr

/-- The binding half, bytes 0 to 47 (R417). -/
def parseHalf (b : List Byte) : StreamHalf :=
  { stream := fieldLe b 0 4, sp := byteAt b 4, part := byteAt b 5, openMax := byteAt b 6, bulk := bitOf (byteAt b 7) 1
    steer := bitOf (byteAt b 7) 0, fragBytes := fieldLe b 8 4, timeout := fieldLe b 12 4, gap := fieldLe b 16 4
    log2Recs := byteAt b 20, notify := fieldLe b 22 2, recBase := fieldLe b 24 8, dataBase := fieldLe b 32 8
    dataBytes := fieldLe b 40 8 }

/-- The binding's fields. -/
def Binding.h (b : Binding) : StreamHalf := parseHalf b.half

/-- The binding of a stream on a port that takes frames. -/
def State.binding (s : State) (sp stream : Nat) : Option Binding :=
  s.io.bindings.find? (fun b => b.sp == sp && b.stream == stream && !b.unbound)

/-- The oldest binding of a stream on a port, unbound or not, with a closed event that satisfies `p`. -/
def State.closedBinding (s : State) (sp stream : Nat) (p : Binding → ClosedEvent → Bool) : Option Binding :=
  s.io.bindings.find? (fun b => b.sp == sp && b.stream == stream && b.closed.any (p b))

/-- Whether `x` is a present form of binding `b`: a context may be bound again while an unbound binding of it still has events to
announce (R419). -/
def Binding.same (b x : Binding) : Bool :=
  x.sp == b.sp && x.stream == b.stream && x.ctxVa == b.ctxVa && x.boundAt == b.boundAt && x.unbound == b.unbound

/-- Change the binding of a context. -/
def State.modBinding (s : State) (b : Binding) (f : Binding → Binding) : State :=
  s.modIo (fun o => { o with bindings := mapWhere b.same f o.bindings })

/-- The present form of a binding. -/
def State.rebind (s : State) (b : Binding) : Binding := (s.io.bindings.find? b.same).getD b

/-- How a stream port accesses memory for a partition (R231). -/
def State.streamAgent (s : State) (sp part : Nat) : Accessor := accessor part (s.agentNode part (spNode sp)) .stream none

/-- How a binding's port writes frame data (R293, R417, R432): as bulk transfers where BULK is set; its records and write-backs are not. -/
def State.bindAgent (s : State) (b : Binding) : Accessor := { s.streamAgent b.sp b.part with bulk := b.h.bulk }

/-- A stream counter grows (R417, R418): 64 bits, wrapping. -/
def Binding.count (b : Binding) (i n : Nat) : Binding :=
  { b with counters := (List.range 16).map (fun j => if j = i then (b.counters.getD j 0 + n) % 2 ^ 64 else b.counters.getD j 0) }

/-- Bytes 64 to 255 of a context (R417). -/
def Binding.stateBytes (b : Binding) : List Byte :=
  leBytes 1 (2 * b2n b.stalled + b2n b.haveEvent) ++ zeros 7 ++ leBytes 8 b.lastEvent.toNat ++ leBytes 4 b.nextSeq ++ zeros 4
    ++ leBytes 8 b.recWrite ++ leBytes 8 b.dataWrite ++ leBytes 8 b.lastRx.toNat ++ zeros 16
    ++ (List.range 16).flatMap (fun i => leBytes 8 (b.counters.getD i 0))

/-- Lines of a stream write that fail the Gatehouse are dropped (R233); the answer is how many. -/
def State.streamWrite (s : State) (x : Accessor) (va : Nat) (bs : List Byte) : Nat × State :=
  let r := (linePieces (bs.length / 64 + 2) va bs.length).foldl (fun (acc : Nat × State × List Byte) q =>
    match acc.2.1.writeLine x q.1 (acc.2.2.take q.2) with
    | (.ok _, s1) => (acc.1, s1, acc.2.2.drop q.2)
    | (.error _, s1) => (acc.1 + 1, s1, acc.2.2.drop q.2)) (0, s, bs)
  (r.1, r.2.1)

/-- The stream state is written back to the context (R418); dropped lines are counted in GH_LINES. -/
def State.writeBack (s : State) (b : Binding) : State :=
  let bytes := (s.rebind b).stateBytes
  let r := s.streamWrite (s.streamAgent b.sp b.part) (b.ctxVa + 64) bytes
  r.2.modBinding b (fun k => { (k.count 2 r.1) with writtenBack := bytes })

/-! ### Events (R420 to R425) -/

/-- COMPLETE, INCOMPLETE and EVICTED (R422), as the bits of STATUS (R426). -/
def Event.complete (e : Event) : Bool := decide (e.got.length = e.fragCount)

/-- An event closes (R422, R427): it is counted, the write-back follows, and its record and notice are due. A refused entry closes
with no record (R421). -/
def State.closeEvent (s : State) (b : Binding) (e : Event) (status : Nat) : State :=
  let s1 := s.modBinding b (fun k => { k with open_ := k.open_.erase e })
  if e.refused then s1
  else
    let i := if bitOf status 2 then 5 else if bitOf status 1 then 4 else 3
    let t := (s.sys.clk.get (b.sp / 2)).tick
    let full := status + 8 * b2n e.detTrunc + 16 * b2n e.ghDrop
    let s2 := s1.modBinding b (fun k => { (k.count i 1) with closed := k.closed ++ [⟨e, full, t, false, false⟩] })
    s2.writeBack b

/-- An event meets its deadline (R422, R423), or is evicted (R419, R420): one whose fragments are all taken closes COMPLETE. -/
def State.closeAtDeadline (s : State) (b : Binding) (e : Event) : State :=
  s.closeEvent b e (if e.complete && !e.refused then 0 else 2)
def State.evictEvent (s : State) (b : Binding) (e : Event) : State := s.closeEvent b e (if e.complete && !e.refused then 0 else 4)

/-- Whether a data line of an event still waits for a held bank (R253), so that the event is not yet complete (R422). -/
def State.dataParked (s : State) (b : Binding) (e : Event) : Bool :=
  let base := b.h.dataBase + e.dataOff % b.h.dataBytes
  s.mem.parked.any (fun q => match q with
    | .write p va _ _ => p == b.part && decide (base ≤ va) && decide (va < base + e.fragCount * b.h.fragBytes)
    | _ => false)

/-- Whether tick `t` lies at or after tick `a`, modulo 2^64. -/
def atOrAfter (t a : Nat) : Bool := decide ((t + 2 ^ 64 - a % 2 ^ 64) % 2 ^ 64 < 2 ^ 63)

/-- A frame whose timestamp lies at or after an event's deadline finds the event closed (R423). -/
def State.expireEvents (s : State) (b : Binding) (ts : Nat) : State :=
  eachOf ((s.rebind b).open_.filter (fun e => atOrAfter ts e.deadline)) (fun e s => s.closeAtDeadline b e) s

/-- REC_READ and DATA_READ are read from the context (R421, R429): above the matching write count they count as equal to it; a failed
read keeps the last values. DESIGN CHOICE: a context in a held bank (R253) is read at once, since a frame cannot wait. -/
def State.readCounts (s : State) (b : Binding) : State :=
  let r := s.agReadClean (s.streamAgent b.sp b.part) (b.ctxVa + 48) 16
  let s1 := r.2.modMem (fun m => { m with waitHeld := s.mem.waitHeld })
  match r.1 with
  | .ok bs => s1.modBinding b (fun k => { k with
      recRead := min (fieldLe bs 0 8) k.recWrite, dataRead := min (fieldLe bs 8 8) k.dataWrite })
  | .error _ => s1

/-- An event opens with a record slot and storage, or is refused (R421). -/
def State.openEvent (s : State) (b : Binding) (h : DetHdr) (ts : Word) : State :=
  let s1 := s.readCounts b
  let k := s1.rebind b
  let c := k.h
  let need := h.count * c.fragBytes
  let d := if c.dataBytes < k.dataWrite % c.dataBytes + need then (k.dataWrite / c.dataBytes + 1) * c.dataBytes else k.dataWrite
  let refused := decide (2 ^ c.log2Recs ≤ k.recWrite - k.recRead) || decide (c.dataBytes < d + need - k.dataRead)
  let e : Event :=
    { num := h.event, fragCount := h.count, refused := refused, slot := k.recWrite, dataOff := d, got := [], lastLen := 0
      ghDrop := false, detTrunc := false, user := 0, firstTs := ts, lastTs := ts, detTime := 0
      deadline := (ts.toNat + c.timeout) % 2 ^ 64, streamState := k.writtenBack }
  if refused then
    let s2 := s1.modBinding b (fun k => { (k.count 6 1) with open_ := k.open_ ++ [e], refusalLogged := true })
    if k.refusalLogged then s2 else s2.log (b.sp / 2) (spNode b.sp) (some b.part) .strRingFull b.stream h.event.toNat
  else s1.modBinding b (fun k => { k with
    open_ := k.open_ ++ [e], refusalLogged := false, recWrite := (k.recWrite + 1) % 2 ^ 64, dataWrite := (d + need) % 2 ^ 64 })

/-- Where an event's storage begins (R421). -/
def Binding.storage (b : Binding) (e : Event) : Nat := b.h.dataBase + e.dataOff % b.h.dataBytes

/-- The open event with a number. -/
def Binding.openEv (b : Binding) (n : Word) : Option Event := b.open_.find? (fun e => e.num == n)

/-- A fragment of an open event is written and taken (R420); a dropped line is counted, and the fragment is not taken (R425). -/
def State.writeFragment (s : State) (b : Binding) (e : Event) (h : DetHdr) (payload : List Byte) (ts : Word) : State :=
  let r := s.streamWrite (s.bindAgent b) (b.storage e + h.frag * b.h.fragBytes) payload
  let upd (f : Event → Event) (k : Binding) : Binding := { k with open_ := mapWhere (fun x => x.num == e.num) f k.open_ }
  if r.1 ≠ 0 then r.2.modBinding b (fun k => upd (fun x => { x with ghDrop := true }) (k.count 2 r.1))
  else r.2.modBinding b (fun k => upd (fun x => { x with
      got := x.got ++ [h.frag], detTrunc := x.detTrunc || bitOf h.flags 4, user := x.user ||| (h.flags % 16), lastTs := ts
      lastLen := if h.frag + 1 = h.count then h.len else x.lastLen, detTime := if h.frag = 0 then h.time else x.detTime })
    ((k.count 0 1).count 1 h.len))

/-- The fragment meets its event (R420). -/
def State.takeInto (s : State) (b : Binding) (e : Event) (h : DetHdr) (payload : List Byte) (ts : Word) : State :=
  if e.refused then s.modBinding b (·.count 12 1)
  else if h.count ≠ e.fragCount then s.modBinding b (·.count 11 1)
  else if e.got.contains h.frag then s.modBinding b (·.count 9 1)
  else s.writeFragment b e h payload ts

/-- `take_fragment` of R420. -/
def State.takeFragment (s : State) (b : Binding) (h : DetHdr) (payload : List Byte) (ts : Word) : State :=
  let s1 := s.modBinding b (fun k => { k with lastRx := ts, stalled := false })
  let c := b.h
  if h.heartbeat then s1.modBinding b (·.count 0 1)
  else if c.fragBytes < h.len ∨ (h.frag + 1 ≠ h.count ∧ h.len ≠ c.fragBytes) then s1.modBinding b (·.count 10 1)
  else
    let s2 := s1.expireEvents b ts.toNat
    let k := s2.rebind b
    match k.openEv h.event with
    | some e => s2.takeInto b e h payload ts
    | none =>
      if k.haveEvent && decide (h.event ≤ k.lastEvent) then s2.modBinding b (·.count 8 1)
      else
        let missed := if k.haveEvent then h.event.toNat - k.lastEvent.toNat - 1 else 0
        let s3 := s2.modBinding b (fun k => { (k.count 7 missed) with lastEvent := h.event, haveEvent := true })
        let s4 := match (s3.rebind b).open_ with
          | old :: _ => if (s3.rebind b).open_.length = c.openMax then s3.evictEvent b old else s3
          | [] => s3
        let s5 := s4.openEvent b h ts
        withSome ((s5.rebind b).openEv h.event) s5 (fun e s => s.takeInto b e h payload ts)

/-- Frame sequence numbers (R411). -/
def Binding.sequence (b : Binding) (seq : Nat) : Binding :=
  { (b.count 14 ((seq + 2 ^ 32 - b.nextSeq) % 2 ^ 32)) with nextSeq := (seq + 1) % 2 ^ 32 }

/-- The quota of a partition in a port's ingress buffer, in bytes (R438). -/
def State.rxQuota (s : State) (sp p : Nat) : Nat :=
  4096 * s.appF .strRxquota (sp / 2) (sp % 2) (p / 8) (8 * (p % 8) + 7) (8 * (p % 8))

/-- Checks 8 to 10 of R410, for a frame of a stream. -/
def State.acceptFrame (s : State) (sp : Nat) (frame : List Byte) (o : Nat) (h : DetHdr) (ts : Word) : State :=
  let d := sp / 2
  let i := sp % 2
  match s.binding sp h.stream with
  | none => s.hwCount ⟨.strRxunbound, d, i, 0⟩ 63 0
  | some b =>
    let s1 := s.hwCount ⟨.strRxframes, d, i, 0⟩ 63 0
    if s.rxQuota sp b.part < (s.io.sps.get sp).held.get b.part + frame.length then s1.modBinding b (·.count 13 1)
    else
      let s2 := s1.modSp sp (fun k => { k with held := k.held.modify b.part (· + frame.length) })
      (s2.modBinding b (·.sequence h.seq)).takeFragment b h ((frame.drop (o + 32)).take h.len) ts

/-- Whether a destination address is taken (R404): `ptp` for a PTP frame while PTP_EN is set. -/
def addressed (mac ctl dst : Nat) (ptp : Bool) : Bool :=
  decide (dst = mac) || bitOf ctl 7 || (ptp && (decide (dst = 0x011B19000000) || decide (dst = 0x0180C200000E)))

/-- FRAME_RECEIVE (R410): the checks of a frame, in order, on a die that takes frames (R520, R524); a PTP frame is counted, and what its message does
is PTP_MESSAGE's. -/
def execFrameReceive (sp : SpId) (bytes : List Byte) (fcsOk : Bool) (ts : Word) (s : State) : Out :=
  let d := sp.val / 2
  let i := sp.val % 2
  let ctl := s.appWord ⟨.strPortctl, d, i, 0⟩
  let mac := s.appF .strMac d i 0 47 0
  let ptp := bitOf ctl 8 && decide (be16 bytes 12 = 0x88F7)
  let bump (n : RegName) (s : State) : State := s.hwCount ⟨n, d, i, 0⟩ 63 0
  .next (whenB (bitOf ctl 63 && (s.io.sps.get sp.val).linkUp && s.dieServes d) s (fun s =>
    if bytes.length < 64 ∨ 9600 < bytes.length then bump .strRxlen s
    else if !fcsOk then bump .strRxfcs s
    else if be16 bytes 12 = 0x8808 then bump .strRxpause s
    else if !addressed mac ctl (fieldBe bytes 0 6) ptp then bump .strRxnotmine s
    else if ptp then bump .strRxptp s
    else match frameHeader ctl bytes with
      | none => bump .strRxparse s
      | some o =>
        let h := parseDet (bytes.drop o)
        if !h.inRange (bytes.length - 4 - o - 32) then bump .strRxhdr s else s.acceptFrame sp bytes o h ts))

/-- EVENT_DEADLINE (R422): an open event reaches its deadline. -/
def execEventDeadline (sp : SpId) (stream : Word32) (event : Word) (s : State) : Out :=
  .next (withSome (s.binding sp stream.toNat) s (fun b s => withSome (b.openEv event) s (fun e s =>
    whenB (s.reached (sp.val / 2) e.deadline) s (fun s => s.closeAtDeadline b e))))

/-- EVENT_CLOSE (R422, R427): a complete event's data lines are performed; it closes COMPLETE. -/
def execEventClose (sp : SpId) (stream : Word32) (event : Word) (s : State) : Out :=
  .next (withSome (s.binding sp stream.toNat) s (fun b s => withSome (b.openEv event) s (fun e s =>
    whenB (e.complete && !e.refused && !s.dataParked b e) s (fun s => s.closeEvent b e 0))))

/-- DATA_LEN of a record (R426). -/
def Binding.dataLen (b : Binding) (c : ClosedEvent) : Nat :=
  if bitsOf c.status 2 1 = 0 then (c.ev.fragCount - 1) * b.h.fragBytes + c.ev.lastLen else c.ev.fragCount * b.h.fragBytes

/-- The address of a record slot (R426). -/
def Binding.recordVa (b : Binding) (slot : Nat) : Nat := b.h.recBase + 64 * (slot % 2 ^ b.h.log2Recs)

/-- An event record (R426). -/
def Binding.record (b : Binding) (c : ClosedEvent) : List Byte :=
  let e := c.ev
  let phase := 1 - e.slot / 2 ^ b.h.log2Recs % 2
  leBytes 4 b.stream ++ leBytes 1 (c.status + phase) ++ leBytes 1 e.user ++ zeros 2 ++ leBytes 8 e.num.toNat ++ leBytes 4 e.fragCount
    ++ leBytes 4 e.got.length ++ leBytes 8 e.dataOff ++ leBytes 4 (b.dataLen c) ++ zeros 4 ++ leBytes 8 e.firstTs.toNat
    ++ leBytes 8 (if bitsOf c.status 2 1 = 0 then e.lastTs else c.closedAt).toNat
    ++ leBytes 8 e.detTime.toNat

/-- A closed event's entry changes. -/
def State.modClosed (s : State) (b : Binding) (slot : Nat) (f : ClosedEvent → ClosedEvent) : State :=
  s.modBinding b (fun k => { k with closed := mapWhere (fun c => c.ev.slot == slot) f k.closed })

/-- EVENT_RECORD_WRITE (R427): after the close's write-back the record is written. -/
def execEventRecordWrite (sp : SpId) (stream : Word32) (event : Word) (s : State) : Out :=
  let due (_ : Binding) (c : ClosedEvent) : Bool := c.ev.num == event && !c.written
  .next (withSome (s.closedBinding sp stream.toNat due) s (fun b s =>
    withSome (b.closed.find? (due b)) s (fun c s =>
      let r := s.streamWrite (s.streamAgent b.sp b.part) (b.recordVa c.ev.slot) (b.record c)
      (r.2.modBinding b (·.count 2 r.1)).modClosed b c.ev.slot (fun c => { c with written := true }))))

/-- A binding that is unbound goes once every closed event has been announced. -/
def State.dropUnbound (s : State) : State :=
  s.modIo (fun o => { o with bindings := o.bindings.filter (fun b => !(b.unbound && b.closed.isEmpty)) })

/-- Whether a closed event may be announced: its record is written, and every event in an earlier slot has been announced (R427). -/
def Binding.announces (b : Binding) (c : ClosedEvent) : Bool :=
  c.written && !c.noticed && !b.closed.any (fun x => !x.noticed && decide (x.ev.slot < c.ev.slot))
    && !b.open_.any (fun e => !e.refused && decide (e.slot < c.ev.slot))

/-- EVENT_NOTICE (R427, R428): the next record in slot order, once every earlier slot's record is written: the notify increment, and the
offer to the partition's armed RUNs on VC0. -/
def execEventNotice (sp : SpId) (stream : Word32) (s : State) : Out :=
  .next (withSome (s.closedBinding sp stream.toNat Binding.announces) s (fun b s =>
    withSome (b.closed.find? b.announces) s (fun c s =>
      let n := spNode sp
      let f := b.h.notify
      let s1 := if bitOf f 15 then
          s.send n (.node (bitsOf f 13 6)) 0 1 (some b.part) none (.beacon (.notify (bitsOf f 5 0)) .none 0)
        else s
      let s2 := s1.modClosed b c.ev.slot (fun c => { c with noticed := true })
      match s2.admitDie b.part with
      | some d => s2.send n (.node (ctlNode d)) 0 1 (some b.part) none (.eventNotice sp stream.toNat c.ev.num.toNat c.ev.slot)
      | none => s2)))

/-- STR_GAP (R424): no frame accepted for GAP_TIMEOUT ticks, counted from the later of LAST_RX and the bind. -/
def execStrGap (sp : SpId) (stream : Word32) (s : State) : Out :=
  let d := sp.val / 2
  .next (withSome (s.binding sp stream.toNat) s (fun b s =>
    let quiet := decide (b.h.gap ≤ s.since d b.lastRx.toNat) && decide (b.h.gap ≤ s.since d b.boundAt)
    whenB (decide (b.h.gap ≠ 0) && !b.stalled && quiet) s (fun s =>
      (s.modBinding b (fun k => { (k.count 15 1) with stalled := true })).log d (spNode sp) (some b.part) .strGap b.stream 0)))

/-! ### Steering (R433 to R436) -/

/-- How a steering request ends at its port: a status record (R436), and the command. -/
def State.steerEnds (s : State) (sp : Nat) (x : CmdRef) (part statusVa : Nat) (c : Code) (seq : Nat) : State :=
  s.writeStatus (s.streamAgent sp part) x statusVa
    (leBytes 2 c.val.toNat ++ zeros 2 ++ leBytes 4 seq ++ leBytes 8 (s.tickOf (sp / 2))) .strSteerFormat

/-- A steering frame is discarded while the link is down (R434). -/
def State.steerDropped (s : State) (sp : Nat) (x : CmdRef) (part statusVa : Nat) : State :=
  (s.hwCount ⟨.strTxdrop, sp / 2, sp % 2, 0⟩ 63 0).steerEnds sp x part statusVa .strTxDown 0

/-- The partition of a command. -/
def State.cmdPartition (s : State) (x : CmdRef) : Nat := ((s.findReq x.req).map (·.part)).getD 0

/-- Whether a steering request is in form (R434). -/
def State.steerOk (s : State) (sp part : Nat) (b : List Byte) : Bool :=
  let len := fieldLe b 32 4
  let va := fieldLe b 24 8
  (s.binding sp (fieldLe b 0 4)).any (fun k => k.part == part && k.h.steer) && decide (byteAt b 4 ≤ 2) && decide (len ≤ 8192)
    && (decide (len = 0) || decide (byteAt b 4 = 2)) && decide ((va = 0) ↔ (len = 0))

/-- Whether a packet carries a steering command. -/
def Packet.isSteer (p : Packet) : Bool :=
  match p.payload with
  | .cmd .steer _ => true
  | _ => false

/-- A steering request reaches its port (R434). -/
def State.steerArrives (s : State) (sp : Nat) (x : CmdRef) : State :=
  let part := s.cmdPartition x
  match s.readRecord (s.streamAgent sp part) x 64 40 with
  | (.unread c, s1) => s1.cmdUnreadable (spNode sp) x c
  | (.refuse c va, s1) => (s1.dataError (spNode sp) x c x.va).steerEnds sp x part va c 0
  | (.ok b, s1) =>
    let va := fieldLe b 40 8
    if !s1.steerOk sp part b then s1.steerEnds sp x part va .strSteerFormat 0
    else if 64 ≤ (s1.io.sps.get sp).steer.length then s1.steerEnds sp x part va .strSteerFull 0
    else if !(s1.io.sps.get sp).linkUp then s1.steerDropped sp x part va
    else s1.modSp sp (fun k => { k with steer := k.steer ++ [⟨x, b⟩] })

/-- STEER_ARRIVE (R434). -/
def execSteerArrive (sp : SpId) (s : State) : Out := heldWait s fun s =>
  .next (withSome (s.takeInbox (spNode sp) Packet.isSteer) s (fun r _ =>
    match r.1.payload with
    | .cmd _ x => r.2.steerArrives sp x
    | _ => r.2))

/-- The frame of a steering request, without its FCS (R435). -/
def State.steerFrame (s : State) (sp : Nat) (b data : List Byte) : List Byte :=
  let d := sp / 2
  let i := sp % 2
  let dst := s.appWord ⟨.strSteerdst, d, i, 0⟩
  let tag := if bitOf dst 60 then beBytes 2 0x8100 ++ beBytes 2 (bitsOf dst 59 48) else []
  let hdr := leBytes 1 1 ++ leBytes 1 0x40 ++ leBytes 2 data.length ++ leBytes 4 (fieldLe b 0 4) ++ leBytes 8 (fieldLe b 8 8)
    ++ leBytes 1 (byteAt b 4) ++ zeros 3 ++ leBytes 8 (fieldLe b 16 8) ++ leBytes 4 (s.io.sps.get sp).steerSeq.toNat
  padTo 60 (beBytes 6 (bitsOf dst 47 0) ++ beBytes 6 (s.appF .strMac d i 0 47 0) ++ tag
    ++ beBytes 2 (s.appF .strPortctl d i 0 31 16) ++ hdr ++ data)

/-- STEER_TRANSMIT (R436): the oldest steering frame is sent and its status record is written. The shadow of STR_STEERDST takes effect at
its start. -/
def execSteerTransmit (sp : SpId) (s : State) : Out := heldWait s fun s =>
  .next (match (s.io.sps.get sp.val).steer with
    | [] => s
    | q :: qs =>
      whenB ((s.io.sps.get sp.val).linkUp && !s.cmdHeld q.cmd) s (fun s =>
        let d := sp.val / 2
        let k : RegKey := ⟨.strSteerdst, d, sp.val % 2, 0⟩
        let s1 := (if s.settled k then s.applyBoundary k (fun _ => true) else s).modSp sp (fun k => { k with steer := qs })
        let part := s1.cmdPartition q.cmd
        let va := fieldLe q.bytes 40 8
        let n := fieldLe q.bytes 32 4
        match s1.agReadClean (s1.streamAgent sp part) (fieldLe q.bytes 24 8) n with
        | (.error c, s2) => (s2.dataError (spNode sp) q.cmd c (fieldLe q.bytes 24 8)).steerEnds sp q.cmd part va c 0
        | (.ok data, s2) =>
          let seq := (s2.io.sps.get sp.val).steerSeq
          let s3 := (s2.emit (.frame sp (s2.steerFrame sp q.bytes data))).modSp sp (fun k => { k with steerSeq := k.steerSeq + 1 })
          (s3.hwCount ⟨.strTxsteer, d, sp.val % 2, 0⟩ 63 0).steerEnds sp q.cmd part va .ok seq.toNat))

/-! ### The link (R403) -/

/-- STR_LINK_DOWN (R403): a frame in reception is discarded and counted, and queued steering frames are discarded. -/
def execStrLinkDown (sp : LockLoss) (s : State) : Out :=
  let lost := sp.receiving
  let sp := sp.sp
  .next (whenB (s.io.sps.get sp.val).linkUp s (fun s0 =>
    let s := if lost && bitOf (s0.appWord ⟨.strPortctl, sp.val / 2, sp.val % 2, 0⟩) 63 then s0.hwCount ⟨.strRxfcs, sp.val / 2, sp.val % 2, 0⟩ 63 0
      else s0
    let s1 := (s.modSp sp (fun k => { k with linkUp := false, steer := [] })).log (sp.val / 2) (spNode sp) none .strLinkDown 0 0
    eachOf (s.io.sps.get sp.val).steer (fun q s => s.steerDropped sp q.cmd (s.cmdPartition q.cmd) (fieldLe q.bytes 40 8)) s1))

/-- STR_LINK_UP (R403). -/
def execStrLinkUp (sp : SpId) (s : State) : Out :=
  .next (whenB (!(s.io.sps.get sp.val).linkUp && (s.sys.clk.get (sp.val / 2)).supplied) s (fun s =>
    (s.modSp sp (fun k => { k with linkUp := true })).log (sp.val / 2) (spNode sp) none .strLinkUp 0 0))

/-! ### PTP (R413 to R415) -/

/-- The servo takes a measurement (R414, R415): offset, base time and step are the servo's, free values; STATE is LOCKED after 16 Syncs
in a row with an offset below 100 ns; all three mapping fields change together, and GEN advances. -/
def State.servo (s : State) (d : Nat) (ts : Word) : State :=
  let r := s.takeFree
  let v := Config.ptpServo r.1
  let off := sInt 32 v.1.toNat
  r.2.modPtp d (fun p =>
    let n := if -100 < off ∧ off < 100 then p.inLock + 1 else 0
    { p with
      offset := BitVec.ofNat 32 v.1.toNat, inLock := n, state := if 16 ≤ n then 2 else 1, gen := (p.gen + 1) % 65536
      mapTick := ts, mapNs := v.2.1, mapStep := v.2.2, syncTs := none, lastSync := s.tickOf d })

/-- The fields of an Announce in the order in which the standard compares them: of one grandmaster the fewer steps go first, and of two,
the lower priority1, class, accuracy, variance, priority2 and identity. -/
def announceRank (a : Announce) : Nat :=
  (((((a.priority1.toNat * 2 ^ 8 + a.clockClass.toNat) * 2 ^ 8 + a.accuracy.toNat) * 2 ^ 16 + a.variance.toNat) * 2 ^ 8 + a.priority2.toNat)
    * 2 ^ 64 + a.grandmaster.toNat) * 2 ^ 16 + a.steps.toNat

/-- The Announce that the comparison of data sets selects (R415): of equals the lower sender's. -/
def selectAnnounce : List Announce → Option Announce
  | [] => none
  | a :: as_ =>
    match selectAnnounce as_ with
    | none => some a
    | some b => if announceRank a < announceRank b ∨ (announceRank a = announceRank b ∧ a.sender ≤ b.sender) then some a else some b

/-- The instance takes an Announce (R415): it replaces its sender's last; a change of the selected grandmaster restarts the servo. -/
def State.takeAnnounce (s : State) (d node : Nat) (a : Announce) : State :=
  let l := (s.io.ptp.get d).announces.filter (fun x => x.sender != a.sender) ++ [a]
  let gm := ((selectAnnounce l).map (·.grandmaster.toNat)).getD 0
  let s1 := s.modPtp d (fun p => { p with announces := l })
  if (s.io.ptp.get d).grandmaster = gm then s1
  else (s1.modPtp d (fun p => { p with grandmaster := gm, state := 1, inLock := 0, syncTs := none })).log d node none .strPtpGm gm 0

/-- The instance takes a message (R413): a Sync, or the Follow_Up of a two-step one, moves the servo; a Delay_Resp ends the measurement that
the last Delay_Req began. -/
def State.takePtp (s : State) (d node : Nat) (m : PtpBody) : State :=
  match m with
  | .announce a => s.takeAnnounce d node a
  | .sync ts frac _ twoStep => if twoStep then s.modPtp d (fun p => { p with syncTs := some (ts, frac), lastSync := s.tickOf d }) else s.servo d ts
  | .followUp _ => withSome (s.io.ptp.get d).syncTs s (fun t s => s.servo d t.1)
  | .delayResp ns => withSome (s.io.ptp.get d).delayReq s (fun t s => s.modPtp d (fun p => { p with delayReq := none, delay := some (t.1, t.2, ns) }))
  | .other => s

/-- PTP_MESSAGE (R410, R413, R415): a PTP frame on the port that the die's instance selects, where the port takes PTP frames: it is counted,
and the instance takes its message where it runs and the message is of its domain. -/
def execPtpMessage (d : DieId) (m : PtpMsg) (s : State) : Out :=
  let w := s.appWord ⟨.strPtpctl, d, 0, 0⟩
  let i := bitsOf w 8 8
  let ctl := s.appWord ⟨.strPortctl, d, i, 0⟩
  .next (whenB (bitOf ctl 63 && bitOf ctl 8 && (s.io.sps.get (2 * d.val + i)).linkUp) s (fun s =>
    let s1 := s.hwCount ⟨.strRxptp, d, i, 0⟩ 63 0
    if bitOf w 63 && decide (m.domain.toNat = bitsOf w 7 0) then s1.takePtp d (spNode (2 * d.val + i)) m.body else s1))

/-- PTP_HOLDOVER (R415): no Sync for 2^28 ticks. -/
def execPtpHoldover (d : DieId) (s : State) : Out :=
  let p := s.io.ptp.get d.val
  .next (whenB (bitOf (s.appWord ⟨.strPtpctl, d, 0, 0⟩) 63 && decide (p.state ≠ 3) && decide (2 ^ 28 ≤ s.since d p.lastSync)) s
    (fun s => s.modPtp d (fun p => { p with state := 3 })))

/-- DELAY_REQ_TRANSMIT (R413): the instance sends Delay_Req with its timestamp. -/
def execDelayReqTransmit (d : DieId) (ts : Word) (frac : Byte) (s : State) : Out :=
  let w := s.appWord ⟨.strPtpctl, d, 0, 0⟩
  .next (whenB (bitOf w 63 && (s.io.sps.get (2 * d.val + bitsOf w 8 8)).linkUp) s
    (fun s => (s.modPtp d (fun p => { p with delayReq := some (ts, frac) })).emit (.delayReq d)))

end Sys2Proof.Machine
end

