-- ==== Sys2Proof/Machine/Admit.lean ====
section
/-! DEFINITION. Admission (R92 to R98): program records, container run headers (R479), model images (R482), the fit test, the shortfall
record, the checks of R94; the model check (R51); and pin lists (R236, R237). -/

namespace Sys2Proof.Machine

/-! ### What Steward reads -/

/-- Why a descriptor's step fails: a code, with the DVA and node of a failed access (R490). -/
structure Fail where
  code : Code
  va : Nat
  node : Nat
deriving DecidableEq, Repr

/-- A result of a step of Steward, with the state after it. -/
abbrev Job (A : Type) := Except Fail A × State

/-- The next step, where this one has not failed. -/
def Job.andThen {A B : Type} (r : Job A) (f : A → State → Job B) : Job B :=
  match r with
  | (.ok a, s) => f a s
  | (.error e, s) => (.error e, s)

/-- A code without an access. -/
def failCode {A : Type} (c : Code) (s : State) : Job A := (.error ⟨c, 0, 0⟩, s)

/-- Fails with a code unless a condition holds. -/
def require (c : Bool) (e : Code) (s : State) : Job Unit := if c then (.ok (), s) else failCode e s

/-- A read of pieces, poison counting as a failure (R514), with the line that fails. -/
def State.jobPieces (s : State) (x : Accessor) : List (Nat × Nat) → Job (List Byte)
  | [] => (.ok [], s)
  | (va, n) :: ps =>
    match s.readLine x va n with
    | (.error c, s1) => (.error ⟨c, va, x.node⟩, s1)
    | (.ok r, s1) =>
      if r.poison then (.error ⟨.memPoison, va, x.node⟩, s1)
      else Job.andThen (s1.jobPieces x ps) (fun bs s2 => (.ok (r.bytes ++ bs), s2))

/-- A read of `n` bytes. -/
def State.jobRead (s : State) (x : Accessor) (va n : Nat) : Job (List Byte) := s.jobPieces x (linePieces (n / 64 + 2) va n)

/-- Steward of a partition's admitting die, as an agent of a class (R93, R231). -/
def State.steward (s : State) (p : Nat) (cls : AgClass) : Accessor := accessor p (ctlNode ((s.admitDie p).getD 0)) cls none

/-! ### The sampling program record (R71, R72, R83) -/

/-- Whether bytes are all 0. -/
def allZero (bs : List Byte) : Bool := bs.all (fun b => b == 0)

/-- Check 1 of R94 on the record alone. -/
def sprOk (va : Nat) (b : List Byte) : Bool :=
  let p := parseSpr b
  let id (i : Nat) : Nat := p.streamIds.getD i 0
  decide (va % 64 = 0) && decide (1 ≤ p.want) && decide (p.want ≤ 64) && decide (p.floor ≤ p.want) && decide (1 ≤ p.sweeps)
    && decide (1 ≤ p.betaSteps) && decide (p.betaSteps ≤ 16) && decide (p.flags < 32) && !bitOf p.flags 1
    && decide (p.betaVa % 8 = 0) && decide (p.outVa % 64 = 0) && decide (1024 ≤ p.outBytes) && decide (p.teCount ≤ 16)
    && decide (p.streams ≤ 8) && allZero (sliceB b 54 2) && allZero (sliceB b 60 4) && allZero (sliceB b 104 24)
    && (List.range 8).all (fun i => decide (i < p.streams) == decide (id i ≠ 0))

/-- The β schedule's span of exponents (R83). -/
def betasOk (p : Spr) (b : List Byte) : Bool :=
  let entry (k i : Nat) : Nat := k * p.stepBytes + 8 + 8 * i
  let all := (List.range p.betaSteps).flatMap (fun k => (List.range p.want).map (entry k))
  let es := all.map (fun o => sInt 8 (byteAt b (o + 4)))
  es.all (fun x => es.all (fun y => decide (x - y ≤ 32)))

/-- The record and its β schedule are read and checked: their bytes. -/
def State.readProgram (s : State) (p va : Nat) : Job (List Byte × List Byte) :=
  let x := s.steward p .sua
  if va % 64 ≠ 0 then failCode .progFormat s
  else Job.andThen (s.jobRead x va 128) fun b s =>
    if !sprOk va b then failCode .progFormat s
    else
      let k := parseSpr b
      Job.andThen (s.jobRead x k.betaVa (k.betaSteps * k.stepBytes)) fun bs s =>
        if betasOk k bs then (.ok (b, bs), s) else failCode .progFormat s

/-- The PROGRAM input of R391: the record, then its β schedule. -/
def programInput (spr betas : List Byte) : InputEnt := ⟨3, 0, spr.length + betas.length, sha256 (spr ++ betas)⟩

/-! ### The container run header (R479) -/

/-- A container run header. -/
structure Cont where
  srid : Option Nat
  entry : Nat
  nodesVa : Nat
  nodeCount : Nat
  pinCount : Nat
  pinVa : Nat
  progHash : List Byte
  placeHash : List Byte
deriving DecidableEq, Repr

/-- The header of 128 bytes; none where it fails R479. -/
def parseCont (va : Nat) (b : List Byte) : Option Cont :=
  let sr := byteAt b 6
  let ok := decide (va % 64 = 0) && decide (fieldLe b 0 4 = 0x5A524831) && decide (fieldLe b 4 2 = 1) && decide (bitsOf sr 6 4 = 0)
    && decide (byteAt b 7 = 0) && decide (1 ≤ fieldLe b 24 2) && decide (fieldLe b 24 2 ≤ 192) && decide (fieldLe b 26 2 ≤ 4096)
    && allZero (sliceB b 28 4) && allZero (sliceB b 104 24)
  if ok then some
    { srid := if bitOf sr 7 then some (sr % 16) else none, entry := fieldLe b 8 8, nodesVa := fieldLe b 16 8
      nodeCount := fieldLe b 24 2, pinCount := fieldLe b 26 2, pinVa := fieldLe b 32 8, progHash := sliceB b 40 32
      placeHash := sliceB b 72 32 }
  else none

/-- The header and its node list are read; the inner none is a header that fails R479. -/
def State.readContainer (s : State) (p va : Nat) : Job (Option (Cont × List Nat)) :=
  let x := s.steward p .dma
  Job.andThen (s.jobRead x va 128) fun b s =>
    match parseCont va b with
    | none => (.ok none, s)
    | some c => Job.andThen (s.jobRead x c.nodesVa c.nodeCount) fun ns s => (.ok (some (c, ns.map (·.toNat))), s)

/-! ### Model images (R44, R482) -/

/-- An image of a load table: SC, CST offset, bytes (its header alone, where it is longer than a coupling store), header, global indices,
and the bytes to the end of its last array (R95). -/
structure Image where
  sc : Nat
  off : Nat
  bytes : List Byte
  h : ModelHdr
  gidxs : List Nat
  extent : Nat
deriving DecidableEq, Repr

/-- The end of the arrays whose lengths the header gives. -/
def ModelHdr.fixedEnd (h : ModelHdr) : Nat :=
  [64, h.unitOff + 16 * h.nLocal, h.haloOff + 8 * h.hLocal, h.gidxOff + 4 * h.nLocal].foldl max 0

/-- A halo table entry (R47): first list index, count, class. -/
def parseHalo (b : List Byte) : Nat × Nat × Nat := (fieldLe b 0 4, fieldLe b 4 2, bitsOf (byteAt b 6) 5 0)

/-- Unit header `u` of an image. -/
def imageUnit (h : ModelHdr) (b : List Byte) (u : Nat) : UnitHdr := parseUnit (sliceB b (h.unitOff + 16 * u) 16)

/-- First list index, count and class of halo entry `i` of an image (R47). -/
def imageHalo (h : ModelHdr) (b : List Byte) (i : Nat) : Nat × Nat × Nat :=
  parseHalo (sliceB b (h.haloOff + 8 * i) 8)

/-- The end of the last array, from the unit headers and the halo table. -/
def ModelHdr.lastEnd (h : ModelHdr) (us : List UnitHdr) (hs : List (Nat × Nat × Nat)) : Nat :=
  let lists := (us.map (fun u => u.listOff + u.degree) ++ hs.map (fun x => x.1 + x.2.1)).foldl max 0
  let biases := (us.map (fun u => u.biasOff + (if h.potts then h.q else 1))).foldl max 0
  let exps := (us.map (fun u => u.exportIdx + u.exportCount)).foldl max 0
  [h.fixedEnd, h.refOff + 2 * lists, h.coefOff + h.coefBytes * max lists biases, h.exportOff + 4 * exps].foldl max 0

/-- An image is read from its source: its header, the unit headers, the halo table and the global indices, whatever their lengths; then all
of it, where a coupling store can hold it. -/
def State.readImage (s : State) (x : Accessor) (sc off va : Nat) : Job Image :=
  Job.andThen (s.jobRead x va 64) fun b s =>
    let h := parseHdr b
    Job.andThen (s.jobRead x (va + h.unitOff) (16 * h.nLocal)) fun ub s =>
      Job.andThen (s.jobRead x (va + h.haloOff) (8 * h.hLocal)) fun hb s =>
        Job.andThen (s.jobRead x (va + h.gidxOff) (4 * h.nLocal)) fun gb s =>
          let m := h.lastEnd ((chunksOf 16 ub).map parseUnit) ((chunksOf 8 hb).map parseHalo)
          let gs := (chunksOf 4 gb).map leVal
          if 2 ^ 22 < m then (.ok ⟨sc, off, b, h, gs, m⟩, s)
          else Job.andThen (s.jobRead x va m) fun b s => (.ok ⟨sc, off, b, h, gs, m⟩, s)

/-- Entries of a load table (R482): SC, CST_OFF, SRC_VA; none where an index names no SC or CST_OFF is not aligned. -/
def parseLoadTable (b : List Byte) (n : Nat) : Option (List (Nat × Nat × Nat)) :=
  let ent (i : Nat) : Nat × Nat × Nat := (byteAt b (16 * i), fieldLe b (16 * i + 4) 4, fieldLe b (16 * i + 8) 8)
  if (List.range n).all (fun i => decide ((ent i).1 < 64) && decide ((ent i).2.1 % 64 = 0)) then
    some ((List.range n).map ent)
  else none

/-- The images of a load table. -/
def State.readImages (s : State) (x : Accessor) : List (Nat × Nat × Nat) → Job (List Image)
  | [] => (.ok [], s)
  | (sc, off, va) :: es =>
    Job.andThen (s.readImage x sc off va) fun i s => Job.andThen (s.readImages x es) fun is s => (.ok (i :: is), s)

/-- The images of a resident model, as the coupling stores hold them. -/
def State.residentImages (s : State) (m : Model) : List Image :=
  m.sites.map (fun t =>
    let x := s.siteOf t
    ⟨t.sc, t.hdr, s.cst t.sc t.hdr (t.fin - t.hdr), x.h, (List.range x.h.nLocal).map (s.gidx x), t.fin - t.hdr⟩)

/-! ### The fit test (R95, R359, R448) -/

/-- A shortfall: RESOURCE, WHERE, NEEDED, SHORT (R98). -/
structure Short where
  res : Nat
  at_ : Nat
  need : Nat
  short : Nat
deriving DecidableEq, Repr

/-- Sites of resident models on an SC, other than those of the model left out (R97). -/
def State.sitesOn (s : State) (sc : Nat) (out : Option (Nat × Nat)) : List (Model × ModelSite) :=
  (s.comp.models.filter (fun m => decide (out ≠ some (m.part, m.id)))).flatMap (fun m =>
    (m.sites.filter (fun t => t.sc == sc)).map (fun t => (m, t)))

/-- Whether a node may be an endpoint of a partition's program (PLACEMENT of R95). -/
def State.placeable (s : State) (p n : Nat) : Bool := nodeValid n && s.inRegion p n && s.blockUp n

/-- The SL nodes that a link that is down makes short: between two dies of the partition (R359), or from the submitting port to one
(R448). -/
def State.downLinks (s : State) (p port : Nat) : List Nat :=
  let ds := (List.range 4).filter (fun d => (s.region p d).isSome)
  (List.range 4).flatMap (fun a => (upFrom (a + 1) (3 - a)).filterMap (fun b =>
    let both := ds.contains a && ds.contains b
    let through := (port == a && ds.contains b) || (port == b && ds.contains a)
    if (both || through) && decide ((s.link.links.get (linkKey a b)).st = .down) then some (slToward a b) else none))

/-- Whether a stream port is enabled and in service. -/
def State.portServes (s : State) (sp : Nat) : Bool := bitOf (s.appWord ⟨.strPortctl, sp / 2, sp % 2, 0⟩) 63 && s.dieUp (sp / 2)

/-- Tensor engines in service in a partition. -/
def State.tesOf (s : State) (p : Nat) : Nat := ((List.range 16).filter (fun t => s.owns p (teNode t) && s.unitUp (t / 4) (16 + t % 4))).length

/-- The shortfall at a replica count, sorted by RESOURCE and WHERE; empty where it fits (R95). `own` is a model whose holdings do not
count: at RUN, the model itself. -/
def State.shortfall (s : State) (p port : Nat) (k : Spr) (imgs : List Image) (nodes : List Nat) (own : Option (Nat × Nat)) (r : Nat) :
    List Short :=
  let bad := ((nodes ++ imgs.map (fun i => scNode i.sc)).filter (fun n => !s.placeable p n) ++ s.downLinks p port).eraseDups
  let scs := (List.range 64).filter (fun sc => imgs.any (fun i => i.sc == sc))
  let lack (res at_ need have_ : Nat) : List Short := if have_ < need then [⟨res, at_, need, need - have_⟩] else []
  let sum (l : List Nat) : Nat := l.foldl (· + ·) 0
  let slots := scs.flatMap (fun sc => lack 2 sc (sum ((imgs.filter (fun i => i.sc == sc)).map (fun i => i.h.slots r)))
    (32768 - sum ((s.sitesOn sc own).map (fun x => (s.siteOf x.2).h.slots x.1.replicas))))
  let bytes := scs.flatMap (fun sc => lack 3 sc (sum ((imgs.filter (fun i => i.sc == sc)).map (·.extent)))
    (2 ^ 22 - sum ((s.sitesOn sc own).map (fun x => x.2.fin - x.2.hdr))))
  let streams := (List.range 8).flatMap (fun i =>
    let id := k.streamIds.getD i 0
    if id ≠ 0 && !s.io.bindings.any (fun b => b.stream == id && b.part == p && !b.unbound && s.portServes b.sp) then [(⟨7, i, 1, 1⟩ : Short)]
    else [])
  (sortKey id bad).map (fun n => ⟨1, n, 1, 1⟩) ++ slots ++ bytes ++ lack 4 p r (s.appF .suaReplicacap p 0 0 6 0)
    ++ lack 5 p k.teCount (s.tesOf p) ++ lack 6 p k.teTicks (s.appF .teBudget p 0 0 31 0) ++ streams

/-- The effective floor (R96). -/
def Spr.effFloor (k : Spr) : Nat :=
  if k.floor = 0 then 0 else max k.floor (((List.range 64).filter (fun i => bitOf k.posMask i)).foldl (fun m i => max m (i + 1)) 0)

/-- `admit` of R96: whether it fits, and the count. -/
def admitCount (fits : Nat → Bool) (want floor : Nat) : Bool × Nat :=
  if fits want then (true, want)
  else if floor = 0 then (false, want)
  else match ((upFrom floor (want - floor)).reverse).find? fits with
    | some r => (true, r)
    | none => (false, floor)

/-- The shortfall record (R98). -/
def shortBytes (r outBytes : Nat) (es : List Short) : List Byte :=
  let n := min (min 63 es.length) ((outBytes - 16) / 16)
  leBytes 2 Code.admitShort.val.toNat ++ leBytes 1 r ++ leBytes 1 n ++ leBytes 2 es.length ++ zeros 10
    ++ (es.take n).flatMap (fun e => leBytes 1 e.res ++ zeros 1 ++ leBytes 2 e.at_ ++ zeros 4 ++ leBytes 4 e.need ++ leBytes 4 e.short)

/-- ADMIT_SHORT (R98): the shortfall record is written at OUT_VA; one that cannot be written is lost, and the code stands. -/
def State.admitShort {A : Type} (s : State) (p port : Nat) (k : Spr) (imgs : List Image) (nodes : List Nat) (own : Option (Nat × Nat))
    (r : Nat) : Job A :=
  failCode .admitShort (s.agWrite (s.steward p .sua) k.outVa (shortBytes r k.outBytes (s.shortfall p port k imgs nodes own r))).2

/-! ### The checks of R94 -/

/-- Whether a partition has regions on an unaligned die and on another die (R38). -/
def State.tickSlips (s : State) (p : Nat) : Bool :=
  let ds := (List.range 4).filter (fun d => (s.region p d).isSome)
  decide (2 ≤ ds.length) && ds.any (fun d => !(s.sys.clk.get d).aligned)

/-- Check 1 on a program against its images at a count: OUT_BYTES, global indices (R87), MODEL_ID. -/
def fitsProgram (k : Spr) (imgs : List Image) (r : Nat) : Bool :=
  let potts := imgs.any (fun i => i.h.potts)
  let q := (imgs.head?.map (·.h.q)).getD 0
  let l := k.sections r potts q 0
  decide (l.fin ≤ k.outBytes) && imgs.all (fun i => i.h.id == k.modelId && i.gidxs.all (fun g => decide (g < k.nGlobal)))

/-- Admission at LOAD_MODEL (R94, R96): the admitted count. -/
def State.admitLoad (s : State) (p port : Nat) (k : Spr) (imgs : List Image) : Job Nat :=
  let c := admitCount (fun r => (s.shortfall p port k imgs [] none r).isEmpty) k.want k.effFloor
  if !fitsProgram k imgs c.2 then failCode .progFormat s
  else if s.tickSlips p then failCode .tickSlip s
  else if !c.1 then s.admitShort p port k imgs [] none c.2
  else (.ok c.2, s)

/-- What a RUN or REPLAY asks of admission. -/
structure Ask where
  part : Nat
  port : Nat
  mode : RMode
  barrier : Bool
  cont : Option (Cont × List Nat)
  arm : Option Nat
  drawn : Bool
  /-- The count a REPLAY tests, its record's (R396). -/
  count : Option Nat
deriving DecidableEq, Repr

/-- Dies of a node list. -/
def diesOf (nodes : List Nat) : List Nat := (List.range 4).filter (fun d => nodes.any (fun n => nodeDie n == d))

/-- Check 5 (R342, R346): the code of a named region that may not carry the request. -/
def State.schedRefusal (s : State) (p : Nat) (srid : Option Nat) : Option Code :=
  match srid with
  | none => none
  | some i =>
    match s.findSched i with
    | none => some .schedAbsent
    | some c =>
      if c.part ≠ p ∨ !c.active ∨ c.removal then some .schedAbsent else if c.broken then some .schedBroken else none

/-- Whether R370 forbids barrier launch. -/
def State.needsAgreed (s : State) (mode : RMode) (nodes : List Nat) (srid : Option Nat) : Bool :=
  (decide (mode ≠ .free) && decide (2 ≤ (diesOf nodes).length))
    || (srid.bind s.findSched).any (fun c => decide (2 ≤ ((List.range 4).filter (fun d => bitOf c.dieMask d)).length))

/-- Armed RUNs of a binding that still wait for an event. -/
def State.armedOn (s : State) (b : Binding) : List Request :=
  b.armed.filterMap (fun i => (s.findReq i).filter (·.armed))

/-- The binding of a stream for a partition. -/
def State.streamBinding (s : State) (p stream : Nat) : Option Binding :=
  s.io.bindings.find? (fun b => b.stream == stream && b.part == p && !b.unbound)

/-- Whether a Spindle of a die runs (R108). -/
def State.spindleUp (s : State) (d : Nat) : Bool := [2 * d, 2 * d + 1].any (fun k => decide ((s.comp.spindles.get k).st = .run))

/-- Admission at RUN and REPLAY (R94, R97, R396): container and model, in the order of the checks. DESIGN CHOICE: an ARM_INDEX that names
an unused STREAM_IDS entry, for which R94 gives no code, is PROG_FORMAT, ahead of MODEL_ABSENT. -/
def State.admitRun (s : State) (a : Ask) (k : Spr) : Job (Cont × List Nat × Model) :=
  let live := bitOf k.flags 0
  let m := s.findModel a.part k.modelId
  let imgs := (m.map s.residentImages).getD []
  let count := a.count.getD ((m.map (·.replicas)).getD k.want)
  let unused := a.arm.any (fun i => decide (k.streamIds.getD i 0 = 0))
  match a.cont, m with
  | none, _ => failCode .progFormat s
  | some (c, nodes), none => if unused then failCode .progFormat s else let _ := (c, nodes); failCode .modelAbsent s
  | some (c, nodes), some m =>
    if unused || !fitsProgram k imgs count then failCode .progFormat s
    else if (live && decide (a.mode ≠ .free)) || (decide (a.mode = .any) && decide ((diesOf nodes).length = 3)) then failCode .admitMode s
    else if a.barrier && s.needsAgreed a.mode nodes c.srid then failCode .launchForm s
    else match s.schedRefusal a.part c.srid with
      | some e => failCode e s
      | none =>
        if s.tickSlips a.part then failCode .tickSlip s
        else if m.replicas < count ∨ !(s.shortfall a.part a.port k imgs nodes (some (m.part, m.id)) count).isEmpty then
          s.admitShort a.part a.port k imgs nodes (some (m.part, m.id)) count
        else if (a.arm.bind (fun i => s.streamBinding a.part (k.streamIds.getD i 0))).any (fun b => decide (32 ≤ (s.armedOn b).length)) then
          failCode .runArmFull s
        else if (a.drawn || live) && !s.spindleUp ((s.admitDie a.part).getD 0) then failCode .entropyUnavail s
        else (.ok (c, nodes, m), s)

/-! ### The model check (R51) -/

/-- `CST_FORMAT` of R51, with the header's REPLICAS set to the admitted count: `others` are the models resident on the SC and the images
of the table before this one. DESIGN CHOICE: a reserved byte of the model header (10, 11, 48 to 63) that is not 0 counts as a reserved
value, while reserved bits of unit headers, halo entries and exports read 0 (R17); and a halo entry's CLASS at or above CLASSES is out of
range as a unit header's is (R45, R47). -/
def State.imageFormat (s : State) (i : Image) (r : Nat) (before : List Image) : Bool :=
  let h := i.h
  let us := (List.range h.nLocal).map (imageUnit h i.bytes)
  let rest := (s.sitesOn i.sc none).map (fun x => let t := s.siteOf x.2; (x.1.id, x.2.hdr, x.2.fin, t.h.slotBase, t.h.slots x.1.replicas))
    ++ (before.filter (fun b => b.sc == i.sc)).map (fun b => (b.h.id, b.off, b.off + b.extent, b.h.slotBase, b.h.slots r))
  let head := decide (h.kind ≤ 1) && (if h.potts then decide (2 ≤ h.q) && decide (h.q ≤ 16) else decide (h.q = 0)) && decide (h.width ≤ 2)
    && decide (-96 ≤ h.scale) && decide (h.scale ≤ 31) && decide (1 ≤ h.classes) && decide (h.classes ≤ 64) && decide (h.order ≤ 2)
    && decide (1 ≤ h.nLocal) && decide (h.nLocal ≤ 32768) && decide (h.hLocal ≤ 32768)
    && (!h.potts || decide (h.slotBase % 4 = 0)) && decide (h.slotBase + h.slots r ≤ 32768)
    && allZero (sliceB i.bytes 10 2) && allZero (sliceB i.bytes 48 16)
  head && decide (i.off + i.extent ≤ 2 ^ 22)
    && rest.all (fun x => x.1 != h.id && !(decide (x.2.1 < i.off + i.extent) && decide (i.off < x.2.2.1))
      && !(decide (x.2.2.2.1 < h.slotBase + h.slots r) && decide (h.slotBase < x.2.2.2.1 + x.2.2.2.2)))
    && us.all (fun u => decide (u.cls < h.classes) && decide (u.exportCount ≤ 63) && (!u.dense || (!h.potts && decide (h.width = 0))))
    && (List.range h.hLocal).all (fun k => decide ((imageHalo h i.bytes k).2.2 < h.classes))

/-- The reference `n` of an image (R46). -/
def imageRef (i : Image) (n : Nat) : Bool × Nat := let v := fieldLe i.bytes (i.h.refOff + 2 * n) 2; (bitOf v 15, v % 2 ^ 15)

/-- `CST_REF_RANGE` of R51: references, and exports inside the partition's region. -/
def State.imageRefs (s : State) (p : Nat) (i : Image) : Bool :=
  let h := i.h
  let us := (List.range h.nLocal).map (imageUnit h i.bytes)
  let lists := us.map (fun u => (u.listOff, u.degree)) ++ (List.range h.hLocal).map (fun k => let x := imageHalo h i.bytes k; (x.1, x.2.1))
  lists.all (fun l => (upFrom l.1 l.2).all (fun n => let r := imageRef i n; decide (r.2 < (if r.1 then h.hLocal else h.nLocal))))
    && us.all (fun u => (upFrom u.exportIdx u.exportCount).all (fun n =>
      s.owns p (scNode (bitsOf (fieldLe i.bytes (h.exportOff + 4 * n) 4) 31 26))))

/-- `CST_COLOUR_CLASH` of R51: no entry of a chromatic model joins two units of one class. -/
def imageColours (i : Image) : Bool :=
  let h := i.h
  let cls (u : Nat) : Nat := (imageUnit h i.bytes u).cls
  let hcls (k : Nat) : Nat := (imageHalo h i.bytes k).2.2
  let other (n : Nat) : Nat := let r := imageRef i n; if r.1 then hcls r.2 else cls r.2
  decide (h.order ≠ 0)
    || ((List.range h.nLocal).all (fun u => let x := imageUnit h i.bytes u; (upFrom x.listOff x.degree).all (fun n => other n != cls u))
      && (List.range h.hLocal).all (fun k => let x := imageHalo h i.bytes k; (upFrom x.1 x.2.1).all (fun n => other n != hcls k)))

/-- The first failure of R51 over the images of a table. DESIGN CHOICE: image by image in the table's order, not check by check over all
SCs. -/
def State.checkImages (s : State) (p r : Nat) : List Image → List Image → Option Code
  | _, [] => none
  | before, i :: is =>
    if !s.imageFormat i r before then some .cstFormat
    else if !s.imageRefs p i then some .cstRefRange
    else if !imageColours i then some .cstColourClash
    else s.checkImages p r (before ++ [i]) is

/-- The images become a resident model (R51, R482): they are copied, with REPLICAS set to the admitted count. DESIGN CHOICE: the number of
models on an SC has no limit of its own: a coupling store holds up to eight, and no rule gives a ninth a code. -/
def State.installModel (s : State) (p r : Nat) (k : Spr) (imgs : List Image) : State :=
  let s1 := imgs.foldl (fun s i => s.pokeMem (cstAddr i.sc i.off) (overlay i.bytes 8 (leBytes 2 r))) s
  let sites := (sortKey (fun t => t.sc) (imgs.map (fun i => (⟨i.sc, i.off, i.off + i.extent⟩ : ModelSite))))
  let m : Model :=
    { part := p, id := k.modelId, sites := sites, replicas := r, nGlobal := k.nGlobal, fullNext := true, halo := .const 0
      pos := List.range r }
  (s1.modComp (fun c => { c with models := c.models ++ [m] })).needFull m

/-- The digests of the regions that a container declares resident (R391), with their addresses. -/
def State.digestRegions (s : State) (p : Nat) : List (Nat × Nat) → Job (List (Nat × List Byte))
  | [] => (.ok [], s)
  | x :: xs =>
    Job.andThen (s.jobRead (s.steward p .dma) x.1 x.2) fun b s =>
    Job.andThen (s.digestRegions p xs) fun ds s => (.ok ((x.1, sha256 b) :: ds), s)

/-- The RESIDENT input of R391: the digests of a partition's resident images and of the declared regions, in ascending address order. -/
def State.residentInput (s : State) (p : Nat) (declared : List (Nat × List Byte)) : InputEnt :=
  let imgs := (s.comp.models.filter (fun m => m.part == p)).flatMap s.residentImages
  let all := sortKey (fun x => x.1) (imgs.map (fun i => (cstAddr i.sc i.off, sha256 i.bytes)) ++ declared)
  let ds := all.flatMap (fun x => x.2)
  ⟨2, 0, ds.length, sha256 ds⟩

/-! ### Pin lists (R236 to R238) -/

/-- A pin list entry (R236). -/
structure PinEnt where
  node : Nat
  big : Bool
  va : Nat
deriving DecidableEq, Repr

/-- Whether a node keeps a translation cache. -/
def keepsCache (n : Nat) : Bool :=
  match blockAt n with
  | (.sc, _) | (.te, _) | (.ms, _) | (.sp, _) | (.hp, _) | (.ctlN, _) | (.ctlS, _) => true
  | _ => false

/-- An entry of 16 bytes; none where R237 refuses it. -/
def State.parsePin (s : State) (p : Nat) (b : List Byte) : Option PinEnt :=
  let n := byteAt b 0
  let big := byteAt b 1
  let va := fieldLe b 8 8
  if nodeValid n && (s.owns p n || sharedNode n) && keepsCache n && decide (big ≤ 1) && allZero (sliceB b 2 6)
      && decide (va % (if big = 1 then 0x200000 else 0x10000) = 0) && decide (va < 2 ^ 57) then some ⟨n, decide (big = 1), va⟩
  else none

/-- The 64 KiB pieces of an entry's range. -/
def PinEnt.pieces (e : PinEnt) : List Nat := if e.big then (List.range 32).map (fun i => e.va + 0x10000 * i) else [e.va]

/-- The cache with a page pinned for a request. -/
def GhNode.pin (g : GhNode) (r : Nat) (t : PageTag) (entry : Nat) : GhNode :=
  let old := (g.cache.find? (fun e => e.tag == t)).map (·.pins)
  let e : CacheEnt := ⟨t, entry, (old.getD []).filter (fun i => i != r) ++ [r], false⟩
  let l := g.cache.filter (fun x => !(x.tag == t))
  if l.length < 128 then { g with cache := l ++ [e] } else { g with cache := (dropLru l).getD l ++ [e] }

/-- Whether a node holds more pinned entries than R237 allows. -/
def GhNode.pinOver (g : GhNode) (r : Nat) : Bool :=
  decide (64 < (g.cache.filter (fun e => e.pins.contains r)).length) || decide (128 < (g.cache.filter (fun e => !e.pins.isEmpty)).length)

/-- One piece is walked: its page is pinned for a request, or, in a FREE request, loaded as an ordinary entry where the walk
succeeds (R238). -/
def State.pinPiece (s : State) (p r : Nat) (lock : Bool) (n va : Nat) : Option Fail × State :=
  match s.walk (nodeDie n) p va with
  | .page e big =>
    let t : PageTag := ⟨p, pageBase va big, big⟩
    if lock then
      let g := (s.mem.nodes.get n).pin r t e
      if g.pinOver r then (some ⟨.ghPinOver, va, n⟩, s) else (none, s.modGh n (fun _ => g))
    else (none, if (s.mem.nodes.get n).cache.any (fun x => x.tag == t) then s else s.modGh n (·.fill ⟨t, e, [], false⟩))
  | .format => (if lock then some ⟨.ghTableFormat, va, n⟩ else none, s)
  | .unmapped => (if lock then some ⟨.ghNotMapped, va, n⟩ else none, s)
  | .ue a => (if lock then some ⟨.memUe, va, n⟩ else none, s.walkUe p a)

/-- The pieces of a list are walked in order; the first failure ends it. -/
def State.pinPieces (s : State) (p r : Nat) (lock : Bool) : List (Nat × Nat) → Option Fail × State
  | [] => (none, s)
  | (n, va) :: ps =>
    match s.pinPiece p r lock n va with
    | (some f, s1) => (some f, s1)
    | (none, s1) => s1.pinPieces p r lock ps

/-- A pin list (R237): every entry is checked, then walked. -/
def State.pinList (s : State) (p r : Nat) (lock : Bool) (b : List Byte) : Option Fail × State :=
  let es := (chunksOf 16 b).map (s.parsePin p)
  if es.any (·.isNone) then (some ⟨.progFormat, 0, 0⟩, s)
  else s.pinPieces p r lock ((es.filterMap id).flatMap (fun e => e.pieces.map (fun va => (e.node, va))))

end Sys2Proof.Machine
end

