-- ==== Sys2Proof/Machine/Spindle.lean ====
section
/-! DEFINITION. The Spindles (R101 to R110): the streams and their health tests, the conditioners, the pool, the states of
R104 and draws. -/

namespace Sys2Proof.Machine

/-- The four tested streams of a sample: jitter, latch, comparator, combined (R101, R102). -/
def streamBits (x : Sample) : List Bool :=
  [x.jitter, x.latch, x.comparator, (x.jitter ^^ x.latch) ^^ x.comparator]

/-- The run of identical bits that a bit continues or begins (R102). -/
def runStep (r : Bool × Nat) (b : Bool) : Bool × Nat := if r.2 ≠ 0 ∧ r.1 = b then (b, r.2 + 1) else (b, 1)

/-- How often the first bit of a 1,024-sample window has occurred, after a bit at position `pos` of it (R102). -/
def windowStep (pos : Nat) (w : Bool × Nat) (b : Bool) : Bool × Nat :=
  if pos = 0 then (b, 1) else if w.1 = b then (w.1, w.2 + 1) else w

/-- The tests over a run of samples: the runs and windows of the four streams, the position in the window, whether a test
failed before the last sample, and the streams that failed each test at the last one. -/
structure HealthRun where
  runs : List (Bool × Nat)
  wins : List (Bool × Nat)
  pos : Nat
  early : Bool
  rct : List Bool
  apt : List Bool
deriving DecidableEq, Repr

/-- One sample through both tests of every stream (R102): a test fails at the sample in which its cutoff is reached. -/
def HealthRun.sample (rctCut aptCut : Nat) (h : HealthRun) (x : Sample) : HealthRun :=
  let bs := streamBits x
  let runs := (h.runs.zip bs).map (fun p => runStep p.1 p.2)
  let wins := (h.wins.zip bs).map (fun p => windowStep h.pos p.1 p.2)
  { runs := runs, wins := wins, pos := (h.pos + 1) % 1024
    early := h.early || h.rct.any id || h.apt.any id
    rct := runs.map (fun r => decide (rctCut ≤ r.2)), apt := wins.map (fun w => decide (aptCut ≤ w.2)) }

/-- The tests of a Spindle over samples that begin at a window boundary. -/
def Spindle.health (p : Spindle) (rctCut aptCut : Nat) (xs : List Sample) : HealthRun :=
  xs.foldl (HealthRun.sample rctCut aptCut)
    ⟨p.runs, List.replicate 4 (false, 0), 0, false, List.replicate 4 false, List.replicate 4 false⟩

/-- Whether a test failed anywhere in the samples. -/
def HealthRun.failed (h : HealthRun) : Bool := h.early || h.rct.any id || h.apt.any id

/-- A conditioner of R101 on the combined bits, in non-overlapping pairs. -/
def condition (vonNeumann : Bool) : List Bool → List Bool
  | a :: b :: bs =>
    if vonNeumann then (if a ≠ b then a :: condition vonNeumann bs else condition vonNeumann bs)
    else (a ^^ b) :: condition vonNeumann bs
  | _ => []

/-- A gated bit enters the pool, least significant bit of each byte first; while the pool holds 512 bytes it is discarded
(R103). -/
def Spindle.feed (p : Spindle) (b : Bool) : Spindle :=
  if 512 ≤ p.pool.length then p
  else if p.bits.length = 7 then { p with pool := p.pool ++ packBits (p.bits ++ [b]), bits := [] }
  else { p with bits := p.bits ++ [b] }

/-- The Spindle enters STARTUP (R104): its tests begin anew. -/
def Spindle.start (p : Spindle) : Spindle := { p with st := .startup, runs := List.replicate 4 (false, 0) }

/-- The Spindle enters OFF, its pool emptied (R104). -/
def Spindle.stop (p : Spindle) : Spindle := { p with st := .off, pool := [], bits := [] }

/-- Key of a Spindle and its set-up register. -/
def spindleKey (d : Nat) (south : Bool) : Nat := 2 * d + b2n south

/-- RCT_CUTOFF and APT_CUTOFF in force (R102). -/
def State.rctCut (s : State) (d : Nat) (south : Bool) : Nat := s.appF .secSpindlectl d (b2n south) 0 15 8

/-- APT_CUTOFF in force (R102). -/
def State.aptCut (s : State) (d : Nat) (south : Bool) : Nat := s.appF .secSpindlectl d (b2n south) 0 26 16

/-- SPINDLE_ENABLE (R104): EN is 1 and the Spindle leaves OFF. Bring-up has reached the step that enables Spindles, D6. -/
def execSpindleEnable (d : DieId) (south : Bool) (s : State) : Out :=
  let k := spindleKey d south
  .next (whenB (decide ((s.comp.spindles.get k).st = .off) && decide (s.appF .secSpindlectl d (b2n south) 0 0 0 = 1)
      && decide (6 ≤ (s.sys.clk.get d).step)) s
    (fun s => s.modSpindle k (·.start)))

/-- SPINDLE_DISABLE (R104): EN is 0, and any state but RETIRED becomes OFF. -/
def execSpindleDisable (d : DieId) (south : Bool) (s : State) : Out :=
  let k := spindleKey d south
  .next (whenB (decide ((s.comp.spindles.get k).st ≠ .retired) && decide (s.appF .secSpindlectl d (b2n south) 0 0 0 = 0)) s
    (fun s => s.modSpindle k (·.stop)))

/-- SPINDLE_STARTUP_PASS (R104): the first 4,096 samples after entry to STARTUP pass every test. -/
def execSpindleStartupPass (d : DieId) (south : Bool) (samples : List Sample) (s : State) : Out :=
  let k := spindleKey d south
  let p := s.comp.spindles.get k
  let h := p.health (s.rctCut d south) (s.aptCut d south) samples
  .next (whenB (decide (p.st = .startup) && decide (samples.length = 4096) && !h.failed) s
    (fun s => s.modSpindle k (fun p => { p with st := .run, runs := h.runs })))

/-- SPINDLE_WINDOW_CLOSE (R103): a window of 1,024 samples closes with no failure and its conditioned bits enter the
pool. -/
def execSpindleWindowClose (d : DieId) (south : Bool) (samples : List Sample) (s : State) : Out :=
  let k := spindleKey d south
  let p := s.comp.spindles.get k
  let h := p.health (s.rctCut d south) (s.aptCut d south) samples
  let vn := decide (s.appF .secSpindlectl d (b2n south) 0 2 1 = 1)
  let out := condition vn (samples.map (fun x => (streamBits x).getD 3 false))
  .next (whenB (decide (p.st = .run) && decide (samples.length = 1024) && !h.failed) s
    (fun s => s.modSpindle k (fun p => { (out.foldl Spindle.feed p) with runs := h.runs })))

/-- What a health-test failure does (R105): the pool is emptied and the Spindle starts up again; the third failure within
2^28 ticks retires it. DESIGN CHOICE: a failure exactly 2^28 ticks earlier lies outside 'within 2^28 ticks'. -/
def State.spindleFails (s : State) (d : Nat) (south : Bool) (h : HealthRun) : State :=
  let k := spindleKey d south
  let node := if south then nodeOf .ctlS d 0 else ctlNode d
  let bit (l : List Bool) : Nat := (l.zip [1, 2, 4, 8]).foldl (fun t x => t + (if x.1 then x.2 else 0)) 0
  let streams := ((h.rct.zip h.apt).map (fun x => x.1 || x.2))
  let p := s.comp.spindles.get k
  let recent := (p.failTicks.filter (fun t => decide (s.since d t < 2 ^ 28))) ++ [s.tickOf d]
  let p1 : Spindle :=
    { p with pool := [], bits := [], failTicks := recent, fails := satTo (2 ^ 32 - 1) (p.fails + 1)
             failStream := bit streams, failTest := b2n (h.rct.any id) + 2 * b2n (h.apt.any id) }
  let s1 := s.log d node none .spindleHealth 0 0
  if 3 ≤ recent.length then
    (s1.modSpindle k (fun _ => { p1 with st := .retired })).log d node none .spindleRetired 0 0
  else s1.modSpindle k (fun _ => p1.start)

/-- SPINDLE_HEALTH (R105): the last of the samples, which begin at STARTUP's entry or at the open window, fails a test and
none before it does. -/
def execSpindleHealth (d : DieId) (south : Bool) (samples : List Sample) (s : State) : Out :=
  let p := s.comp.spindles.get (spindleKey d south)
  let h := p.health (s.rctCut d south) (s.aptCut d south) samples
  let span := match p.st with
    | .startup => 4096
    | .run => 1024
    | _ => 0
  .next (whenB (decide (samples.length ≤ span) && !h.early && (h.rct.any id || h.apt.any id)) s
    (fun s => s.spindleFails d south h))

/-- What a draw meets (R108): no Spindle in RUN, a pool with too few bytes, or its bytes. -/
inductive DrawRes where
  | none | wait
  | bytes (bs : List Byte)
deriving DecidableEq, Repr

/-- A draw of `n` bytes at a die (R108): the oldest bytes of the pool of each Spindle in RUN, XORed byte by byte. -/
def State.draw (s : State) (d n : Nat) : DrawRes × State :=
  let up := [2 * d, 2 * d + 1].filter (fun k => decide ((s.comp.spindles.get k).st = .run))
  if up.isEmpty then (.none, s)
  else if up.any (fun k => decide ((s.comp.spindles.get k).pool.length < n)) then (.wait, s)
  else
    let got := up.map (fun k => (s.comp.spindles.get k).pool.take n)
    (.bytes (got.foldl xorBytes (zeros n)),
     up.foldl (fun s k => s.modSpindle k (fun p => { p with pool := p.pool.drop n })) s)

/-- A live key for a request whose segment begins (R110): with no Spindle in RUN it ends with ENTROPY_UNAVAIL (R108). -/
def State.drawLiveKey (s : State) (r : Request) : State :=
  match s.draw ((s.admitDie r.part).getD 0) 16 with
  | (.none, s1) => s1.endReq r.id .entropyUnavail 0 0
  | (.wait, s1) => s1
  | (.bytes k, s1) => s1.modReq r.id (fun q => { q with prog := q.prog.map (fun g => { g with liveKey := some k }) })

/-- LIVE_KEY_DRAW (R110): at the start of a segment of a live request that has no key for it yet. -/
def execLiveKeyDraw (req : Nat) (s : State) : Out :=
  .next (withSome (s.findReq req) s (fun r s =>
    whenB (r.live && decide (r.step = .run) && r.prog.any (fun g => g.liveKey.isNone && !g.sweeping && !g.finished)) s
      (fun s => s.drawLiveKey r)))

end Sys2Proof.Machine
end

