-- ==== Sys2Proof/Machine/Launch.lean ====
section
/-! DEFINITION. From admission to launch: seed draws (R108, R109), pinning, arming (R481), waits for a scheduled region (R337), agreed-TICK
launch (R367, R368) and barrier launch (R369). -/

namespace Sys2Proof.Machine

/-- A request whose step is one of launching. -/
def State.withReq (s : State) (id : Nat) (p : Request → Bool) (f : Request → State → State) : State :=
  withSome ((s.findReq id).filter p) s f

/-! ### Waiting and launching -/

/-- Whether a request must wait before it launches: its scheduled region is to be removed (R346), runs a request, or has an earlier one
that waits for it (R337), or an UPDATE_COUPLINGS or READ_STATE of its model that was taken before it, or while it was armed, is not done
(R483, R485). -/
def State.mustWait (s : State) (r : Request) : Bool :=
  let removing := (r.srid.bind s.findSched).any (·.removal)
  let region := r.srid.isSome && (s.req.requests.any (fun q => q.part == r.part && decide (q.srid = r.srid) && q.id != r.id
    && (q.running || (decide (q.step = .waitRegion) && decide (q.id < r.id)))))
  let held := s.req.descs.any (fun d => d.part == r.part && (d.kind == 3 || d.kind == 6) && fieldLe d.bytes 16 2 == r.model
    && (r.armIndex.isSome || decide (d.id < r.desc)))
  removing || region || held

/-- The agreed launch tick for an admission that ends in tick A (R367, R397); none where the tick given is below A + 64. -/
def Request.agreedTick (r : Request) (a : Nat) : Option Nat :=
  match r.replay with
  | some p =>
    let m := if p.phase48 then 48000 else 120
    some (a + 64 + (p.launchTick % m + m - (a + 64) % m) % m)
  | none =>
    if r.launch.tick = 0 then some (roundUp 8 (a + 64))
    else if r.launch.tick < a + 64 then none
    else some r.launch.tick

/-- Launch begins (R367, R369): the notice goes on VC0 to the CTL-N of every die of the request. -/
def State.beginLaunch (s : State) (r : Request) (a : Nat) : State :=
  let ad := (s.admitDie r.part).getD 0
  let t := if r.launch.barrier then some 0 else r.agreedTick a
  match t with
  | none => s.endReq r.id .launchLate 0 0
  | some t =>
    let s1 := s.modReq r.id (fun q =>
      let l := { q.launch with admitted := a, tick := t % 2 ^ 64 }
      { q with step := .launch, launch := l })
    eachOf r.dies (fun d s => s.send (ctlNode ad) (.node (ctlNode d)) 0 1 (some r.part) none (.launch r.id (t % 2 ^ 64))) s1

/-- A request that is ready to launch does so with A, waits, or ends because its region has gone or broken (R337, R342, R346). -/
def State.toLaunch (s : State) (id a : Nat) : State :=
  s.withReq id (fun _ => true) (fun r s =>
    let c := r.srid.bind s.findSched
    if r.srid.isSome && c.isNone then s.endReq id .schedAbsent 0 0
    else if c.any (·.broken) then s.endReq id .schedBroken 0 0
    else if s.mustWait r then s.modReq id (fun q => { q with step := .waitRegion }) else s.beginLaunch r a)

/-- Admission's last part: the pin list is walked (R237), and the request is admitted: it takes its number (R390), and is armed (R481) or
goes on to launch with the present tick as A. -/
def State.proceed (s : State) (id : Nat) : State :=
  s.withReq id (fun r => decide (r.step = .arm)) (fun r s =>
    let ad := (s.admitDie r.part).getD 0
    let lock := r.timed
    let pins : Option Fail × State :=
      if r.pinCount = 0 then (none, s)
      else match s.jobRead (s.steward r.part .dma) r.pinVa (16 * r.pinCount) with
        | (.error f, s1) => (some f, s1)
        | (.ok b, s1) => s1.pinList r.part id lock b
    match pins with
    | (some f, s1) =>
      s1.endReq id f.code (BitVec.ofNat 64 f.va) f.node
    | (none, s1) =>
      let n := s1.req.seqs.get r.part
      let s2 := (s1.modReqs (fun k => { k with seqs := k.seqs.set r.part (n + 1) })).modReq id (fun q => { q with seqNo := n, trailDue := true })
      match r.armIndex with
      | none => s2.toLaunch id (s2.tickOf ad)
      | some i =>
        let stream := ((r.prog.map (fun g => (parseSpr g.spr).streamIds)).getD []).getD i 0
        match s2.streamBinding r.part stream with
        | some b => (s2.modReq id (fun q => { q with step := .waitEvent })).modBinding b (fun b => { b with armed := b.armed ++ [id] })
        | none => s2.endReq id .strUnbound 0 0)

/-- SEED_DRAW (R108, R109): the seed of an admission that asks for one, and with it the rest of the admission, once the islands it is
about to hold are at T0 (R573). -/
def execSeedDraw (req : Nat) (s : State) : Out := heldWait s fun s =>
  .next (s.withReq req (fun r => decide (r.step = .arm) && r.drawn && r.seed.isEmpty) (fun r s =>
    match s.draw ((s.admitDie r.part).getD 0) 16 with
    | (.none, s1) => s1.endReq req .entropyUnavail 0 0
    | (.wait, s1) => s1
    | (.bytes k, s1) => whenB (s1.islandsReady r) (s1.modReq req (fun q => { q with seed := k })) (fun s => s.proceed req)))

/-- An event notice reaches the admitting die (R428, R481): the oldest armed RUN takes it, unless it is not COMPLETE and that RUN does not
take partial events; the taking RUN's digest becomes due (R430), and it launches with the present tick as A. -/
def State.offerEvent (s : State) (sp stream event slot : Nat) : State :=
  let told (_ : Binding) (c : ClosedEvent) : Bool := c.noticed && c.ev.slot == slot && c.ev.num.toNat == event
  withSome (s.closedBinding sp stream told) s (fun b s =>
    withSome (b.closed.find? (told b)) s (fun c s =>
      let s1 := (s.modBinding b (fun k => { k with closed := k.closed.filter (fun x => !(x.ev.slot == slot)) })).dropUnbound
      withSome ((s.armedOn b).head?) s1 (fun r s =>
        whenB (decide (bitsOf c.status 2 1 = 0) || r.takePartial) s (fun s =>
          let s2 := s.modBinding b (fun k => { k with armed := k.armed.filter (fun i => i != r.id) })
          let s3 := s2.modReq r.id (fun q => { q with event := some (sp, stream, event, slot, b.recordVa slot) })
          let due : DigestDue := ⟨r.id, sp, stream, c.ev.num, b.part, c.ev.streamState, b.storage c.ev, b.dataLen c⟩
          let s4 := s3.modIo (fun o => { o with digests := o.digests ++ [due] })
          s4.toLaunch r.id (s4.tickOf ((s4.admitDie r.part).getD 0))))))

/-! ### Starting units -/

/-- A core starts at ENTRY in U-mode (R480, R640): a0 is the DVA of the taken event's record, or, in a REPLAY of an armed RUN, of the
supplied copy of its stream input (R397), and a1 is ARG; its I-cache is empty (R176). -/
def State.startCore (s : State) (r : Request) (c : Nat) : State :=
  let a0 := match r.replay.bind (·.copyVa) with
    | some va => va
    | none => (r.event.map (fun e => e.2.2.2.2)).getD 0
  (s.haltCore c).modCore c (fun k => { k with
    x := ((Tbl.const 0).set 10 (BitVec.ofNat 64 a0)).set 11 (BitVec.ofNat 64 r.arg), pc := BitVec.ofNat 64 r.entry, mode := .u, zwaitlim := 262144
    req := some r.id, resv := none, cmds := 0, stores := 0, hostStores := 0, wait := .none, xlat := none, icache := [] })

/-- Bit i of LINK_USED and LINK_HALF (R390), as a mask of the links that satisfy `p`. -/
def linkMask (p : Nat → Nat → Bool) : Nat :=
  (diePairs.filter (fun x => decide (x.1 < x.2) && p x.1 x.2)).foldl (fun m x => m + 2 ^ linkBit x.1 x.2) 0

/-- A die's units start in tick `t` (R366). The first start takes what the record keeps of the launch (R390, R391), and phase 0 of the
request's scheduled region is reckoned from it (R338). -/
def State.startDie (s : State) (r : Request) (d t : Nat) : State :=
  let first := r.launch.started.isEmpty
  let ad := (s.admitDie r.part).getD 0
  let s1 := s.modReq r.id (fun q =>
    let l := { q.launch with started := q.launch.started ++ [(d, t)] }
    { q with step := .run, launch := l, launchedAt := if first ∨ d = ad then some (BitVec.ofNat 64 t) else q.launchedAt })
  let s2 := if first then
      let used := linkMask (fun a b => r.dies.contains a && r.dies.contains b)
      let half := linkMask (fun a b => decide ((s1.link.links.get (linkKey a b)).st = .up16))
      let inp := s1.residentInput r.part r.declared
      let s2 := s1.modReq r.id (fun q => { q with linkUsed := used, linkHalf := half, inputs := q.inputs ++ [inp] })
      withSome (r.srid.bind s2.findSched) s2 (fun c s => s.startSched c r.id t)
    else s1
  eachOf (r.cores.filter (fun c => nodeDie (coreNode c) == d)) (fun c s => s.startCore r c) s2

/-! ### Agreed-TICK launch (R367, R368) -/

/-- Whether a packet carries a launch notice, and whether it carries GO of a request. -/
def Packet.isLaunch (p : Packet) : Bool :=
  match p.payload with
  | .launch .. => true
  | _ => false
def Packet.isGo (req : Nat) (p : Packet) : Bool :=
  match p.payload with
  | .launchGo q _ => q == req
  | _ => false

/-- LAUNCH_NOTICE (R367): a die arms its units, and answers ARMED where the launch is agreed. -/
def execLaunchNotice (d : DieId) (s : State) : Out :=
  .next (withSome (s.takeInbox (ctlNode d) Packet.isLaunch) s (fun x _ =>
    match x.1.payload with
    | .launch id _ =>
      x.2.withReq id (fun r => decide (r.step = .launch)) (fun r s =>
        if r.launch.barrier then
          s.modReq id (fun q => let l := { q.launch with armed := q.launch.armed ++ [d.val] }; { q with launch := l })
        else s.send (ctlNode d) (.node (ctlNode ((s.admitDie r.part).getD 0))) 0 1 (some r.part) none (.launchArmed id d))
    | _ => x.2))

/-- The tick by which every die must have answered ARMED (R367). -/
def Launch.answerBy (l : Launch) : Nat := (l.tick + 2 ^ 64 - 16) % 2 ^ 64

/-- ARMED reaches the admitting die: it counts until tick T − 16 (R367). -/
def State.armedArrives (s : State) (id d : Nat) : State :=
  s.withReq id (fun r => decide (r.step = .launch) && !s.reached ((s.admitDie r.part).getD 0) ((r.launch.answerBy + 1) % 2 ^ 64)) (fun _ s =>
    s.modReq id (fun q => let l := { q.launch with armed := q.launch.armed ++ [d] }; { q with launch := l }))

/-- LAUNCH_GO (R367): at tick T − 16, the admitting die sends GO where every die has answered, else the request ends. -/
def execLaunchGo (req : Nat) (s : State) : Out :=
  .next (s.withReq req (fun r => decide (r.step = .launch) && !r.launch.barrier && !r.launch.goSent) (fun r s =>
    let ad := (s.admitDie r.part).getD 0
    whenB (s.reached ad r.launch.answerBy) s (fun s =>
      if r.dies.all (fun d => r.launch.armed.contains d) then
        let s1 := s.modReq req (fun q => let l := { q.launch with goSent := true }; { q with launch := l })
        eachOf r.dies (fun d s =>
          s.send (ctlNode ad) (.node (ctlNode d)) 0 1 (some r.part) none (.launchGo req r.launch.tick)) s1
      else s.endReq req .launchLate 0 0)))

/-- GO reaches a die: held where it comes before T, else it waits to be reported (R368). -/
def State.goArrives (s : State) (d : Nat) (p : Packet) (id t : Nat) : State :=
  if s.reached d t then s.modNet (fun n => { n with inbox := n.inbox.modify (ctlNode d) (· ++ [p]) })
  else s.withReq id (fun r => decide (r.step = .launch) || decide (r.step = .run)) (fun _ s =>
    s.modReq id (fun q => let l := { q.launch with goHeld := q.launch.goHeld ++ [d] }; { q with launch := l }))

/-- LAUNCH_START (R366, R367): a die that holds GO starts its units in tick T. -/
def execLaunchStart (req : Nat) (d : DieId) (s : State) : Out :=
  .next (s.withReq req (fun r => (decide (r.step = .launch) || decide (r.step = .run)) && r.launch.goHeld.contains d.val
      && !r.launch.started.any (fun x => x.1 == d.val)) (fun r s =>
    whenB (s.reached d r.launch.tick) s (fun s => s.startDie r d r.launch.tick)))

/-- LAUNCH_LATE (R368): a die that has received GO at tick T or later reports it, and the request ends on every die. -/
def execLaunchLate (req : Nat) (d : DieId) (s : State) : Out :=
  .next (withSome (s.takeInbox (ctlNode d) (Packet.isGo req)) s (fun x _ =>
    x.2.withReq req (fun r => decide (r.step = .launch) || decide (r.step = .run)) (fun _ s => s.endReq req .launchLate 0 0)))

/-! ### Barrier launch (R369) -/

/-- A READY word leaves over a link (R369, R371): it is handed over as a tick-released item, or, while the link trains, once it has trained. -/
def State.sendReady (s : State) (id a b : Nat) : State :=
  s.modDir (dirKey a b) (fun x => { x with words := x.words ++
    [⟨.ready id, (s.sys.clk.get a).tick, BitVec.ofNat 64 (s.tickAfter a (s.linkLag a b)), !s.linkUp a b⟩] })

/-- LAUNCH_READY (R369): a die whose units are all armed sends READY to each other participating die. -/
def execLaunchReady (req : Nat) (d : DieId) (s : State) : Out :=
  .next (s.withReq req (fun r => (decide (r.step = .launch) || decide (r.step = .run)) && r.launch.barrier
      && r.launch.armed.contains d.val && !r.launch.selfReady.any (fun x => x.1 == d.val)) (fun r s =>
    let others := r.dies.filter (fun e => e != d.val)
    let lag := (others.map (fun e => s.linkLag d e)).foldl max 0
    let s1 := s.modReq req (fun q =>
      let l := { q.launch with selfReady := q.launch.selfReady ++ [(d.val, s.tickAfter d lag)] }
      { q with launch := l })
    eachOf others (fun e s => s.sendReady req d e) s1))

/-- Whether READY of a request has been handed over from one die to another (R369). -/
def State.holdsReady (s : State) (id a b : Nat) : Bool :=
  (s.link.dirs.get (dirKey a b)).words.any (fun w => decide (w.kind = .ready id) && s.reached b w.due.toNat && (s.linkUp a b || !w.delayed))

/-- Whether a die may fire (R369): READY from every other die has been handed over, and its own would have been over its widest-delay
link. -/
def State.mayFire (s : State) (r : Request) (d : Nat) : Bool :=
  (r.dies.filter (fun e => e != d)).all (fun e => s.holdsReady r.id e d) && r.launch.selfReady.any (fun x => x.1 == d && s.reached d x.2)

/-- LAUNCH_FIRE (R369): a die fires, and its units start. -/
def execLaunchFire (req : Nat) (d : DieId) (s : State) : Out :=
  .next (s.withReq req (fun r => (decide (r.step = .launch) || decide (r.step = .run)) && r.launch.barrier
      && !r.launch.started.any (fun x => x.1 == d.val)) (fun r s =>
    whenB (s.mayFire r d) s (fun s => s.startDie r d (s.tickOf d))))

end Sys2Proof.Machine
end

