-- ==== Sys2Proof/Machine/Trail.lean ====
section
/-! DEFINITION. How a request ends (R188, R205, R461, R491), what a REPLAY writes where it stops (R398), and the Pebble Trail
(R389 to R395). -/

namespace Sys2Proof.Machine

/-! ### The end of a request -/

/-- Steps completed (R395): sweeps whose last upkeep has been done. -/
def Program.steps (g : Program) : Nat := if g.sweeping then g.n - 1 else g.n

/-- Whether a packet of a request is still under way between dies that serve. Scheduled flits are discarded at the end (R337). -/
def State.packetsOf (s : State) (id : Nat) : Bool :=
  let dead (p : Packet) : Bool := !s.dieUp (nodeDie p.src) || (match p.dst with
    | .node n => !s.dieUp (nodeDie n)
    | .rect .. => false)
  s.allPackets.any (fun p => decide (p.req = some id) && p.srid.isNone && !dead p)

/-- Whether a command satisfies `p`, of those that a TE, a memory slice or a copy engine executes. -/
def State.runningCmd (s : State) (p : CmdRef → Bool) : Bool :=
  s.comp.tes.entries.any (fun e => (e.2.cur.map (fun r => p r.cmd)).getD false)
    || s.comp.rlus.entries.any (fun e => (e.2.running ++ e.2.ending).any (fun r => p r.cmd))
    || s.comp.copies.entries.any (fun e => (e.2.cur.map (fun r => p r.cmd)).getD false)

/-- The same of those that wait in a queue. -/
def State.queuedCmd (s : State) (p : CmdRef → Bool) : Bool :=
  s.comp.tes.entries.any (fun e => e.2.queue.any p) || s.comp.rlus.entries.any (fun e => e.2.queue.any p)
    || s.comp.copies.entries.any (fun e => e.2.queue.any p) || s.io.sps.entries.any (fun e => e.2.steer.any (fun q => p q.cmd))

/-- Whether any unit of a request has still to act (R383, R461): a command, an access, a packet, or a digest (R430). -/
def State.reqBusy (s : State) (id : Nat) : Bool :=
  let mine (x : CmdRef) : Bool := x.req == id
  s.runningCmd mine || s.queuedCmd mine || s.packetsOf id || s.net.waiting.any (fun w => decide (w.req = some id))
    || s.io.digests.any (fun d => d.req == id)

/-- Whether a request that no error has struck is over: every die has started, no core waits or has a load under way, and its program has ended or was never
started. -/
def State.reqOver (s : State) (r : Request) : Bool :=
  r.dies.all (fun d => r.launch.started.any (fun x => x.1 == d))
    && r.cores.all (fun c => decide ((s.comp.cores.get c).wait = .none) && (s.comp.cores.get c).loads.isEmpty)
    && (r.prog.map (fun g => g.finished || (decide (g.n = 0) && !g.sweeping && !g.stopped
      && !s.comp.suas.entries.any (fun e => e.2.cmds.any (fun x => x.req == r.id))))).getD true

/-- Queued commands of a request are dropped. -/
def State.dropCmds (s : State) (id : Nat) : State :=
  let keep (x : CmdRef) : Bool := !(x.req == id)
  let isCmd (p : Packet) : Bool := match p.payload with
    | .cmd _ x => x.req == id
    | _ => false
  let s1 := s.modComp (fun k => { k with
    tes := k.tes.mapAll (fun t => { t with queue := t.queue.filter keep })
    rlus := k.rlus.mapAll (fun t => { t with queue := t.queue.filter keep })
    copies := k.copies.mapAll (fun t => { t with queue := t.queue.filter keep }) })
  let s2 := s1.modIo (fun o => { o with sps := o.sps.mapAll (fun p => { p with steer := p.steer.filter (fun q => keep q.cmd) }) })
  s2.modNet (fun n => { n with inbox := n.inbox.mapAll (fun l => l.filter (fun p => !isCmd p)) })

/-- Counters with pending arrivals in the partition's regions are cleared where a request ends with another code than OK (R188). -/
def State.clearArrivals (s : State) (p : Nat) : State :=
  let ks := s.net.counters.entries.filterMap (fun e => if s.owns p e.1.1 && (decide (e.2.arrivals ≠ 0) || e.2.latched.isSome) then some e.1 else none)
  s.modNet (fun n => { n with counters := ks.foldl (fun t k => t.modify k (fun c => { c with arrivals := 0, latched := none })) n.counters })

/-- A request's scheduled region is free, and its flits still queued are discarded (R337). -/
def State.freeSched (s : State) (id : Nat) : State :=
  let drop (p : Packet) : Bool := decide (p.req = some id) && p.srid.isSome
  s.modNet (fun n => { n with
    scheds := mapWhere (fun c => decide (c.running = some id)) (fun c => { c with running := none }) n.scheds
    schedBufs := n.schedBufs.mapAll (fun l => l.filter (fun f => !drop f.pkt))
    inject := n.inject.mapAll (fun l => l.filter (fun p => !drop p)) })

/-- Whether a completion flush is needed (R461), for a completion ring. -/
def State.needsFlush (s : State) (r : Request) (p q : Nat) : Bool :=
  let k := s.ring p true q
  r.hostOut.any (fun x => x.2.2 || x.1 != k.port) || (bitOf (s.ringCtlWord p true q) 6 && !r.hostOut.isEmpty)

/-- READY words of a request are of no use to any die any more. -/
def State.dropReady (s : State) (id : Nat) : State :=
  { s with link := { s.link with dirs := s.link.dirs.mapAll (fun x => { x with words := x.words.filter (fun w => decide (w.kind ≠ .ready id)) }) } }

/-- A request ends (R491): everything it held is released, and its entry is formed, by the lead node where it launched and that serves,
else by Steward. -/
def State.finishReq (s : State) (id : Nat) : State :=
  s.withReq id (fun _ => true) (fun r s =>
    let ad := (s.admitDie r.part).getD 0
    let code : Half := (r.err.map (fun e => e.2.1)).getD 0
    let s1 := if code = 0 then s else s.clearArrivals r.part
    let s2 := s1.breakLocks (fun _ l => r.launchedAt.isSome && r.ownsLock l) (if code = 0 then 4 else 3)
    let s3 := (((s2.unpin id).releaseSuas id).freeSched id).dropReady id
    let s4 := (r.cores.filter (fun c => decide ((s3.comp.cores.get c).req = some id))).foldl State.haltCore s3
    let s5 := s4.modIo (fun o => { o with bindings := o.bindings.map (fun b => { b with armed := b.armed.filter (fun i => i != id) }) })
    let s6 := s5.modReq id (fun q => { q with step := .done, endedAt := some (BitVec.ofNat 64 (s5.tickOf (nodeDie r.lead))) })
    match s6.req.descs.find? (fun d => d.id == r.desc) with
    | none => s6
    | some d =>
      let up := r.launchedAt.isSome && s6.blockUp r.lead
      let own := decide (code = Code.coreTrap.val) || isGhCode code
      let result : Word := if own then (r.err.map (fun e => e.2.2.1)).getD 0 else BitVec.ofNat 64 r.seqNo
      let aux := if own then (r.err.map (fun e => e.2.2.2)).getD 0 else (r.event.map (fun e => e.2.2.2.1)).getD 0 % 2 ^ 32
      s6.formEntry d (if up then r.lead else ctlNode ad) (s6.needsFlush r d.part d.cq) code result aux
        (if r.trailDue then r.replicas else 0) (r.trailDue && r.lowered))

/-- REQUEST_END (R491, R494): the last unit of a request has ended. One that no error struck writes the rest of its readout first
(R84). -/
def execRequestEnd (req : Nat) (s : State) : Out := heldWait s fun s =>
  .next (s.withReq req (fun r => decide (r.step = .run) || decide (r.step = .ending)) (fun r s =>
    let failed := decide (r.step = .ending)
    let s0 := if failed then s.dropCmds req else s
    let before := s0.req.requests.any (fun q => decide (q.id < req) && decide (q.step = .ending) && q.part == r.part && decide (q.srid = r.srid)
      && r.srid.isSome && r.err.any (fun e => decide (e.2.1 = Code.schedAbsent.val)) && q.err.any (fun e => decide (e.2.1 = Code.schedAbsent.val)))
    whenB (!s0.reqBusy req && (if failed then !before else s0.reqOver r)) s (fun _ =>
      let s1 := if failed then s0 else match r.prog, s0.findModel r.part r.model with
        | some g, some m => s0.writeReadout r g m r.outVa g.steps
        | _, _ => s0
      s1.finishReq req)))

/-! ### REPLAY (R398) -/

/-- The position map (R398, R485): 64 bytes, the replica that holds each position; what it gives for positions that no replica holds is
free. -/
def State.positionMap (s : State) (pos : List Nat) : List Byte × State :=
  let b := s.openBytes (64 - pos.length)
  ((List.range pos.length).flatMap (fun k => leBytes 1 (holder pos k)) ++ b.1, b.2)

/-- One state record per replica (R86). -/
def State.stateRecords (s : State) (m : Model) (pos : List Nat) (units sweep replicas : Nat) (nonGibbs withD : Bool) : List Byte :=
  let k := s.modelKind m
  (List.range replicas).flatMap (fun rep =>
    stateRecord sweep (pos.getD rep 0) rep nonGibbs (if withD then s.energyAtStop m rep else 0) k.1 (s.globalStates m units rep))

/-- The pieces of a stopped REPLAY's output with their offsets (R398): the map, the records, then the readout's sections; samples and trace
entries are read back from where the run wrote them. -/
def State.replayPieces (s : State) (r : Request) (g : Program) (m : Model) : List (Nat × List Byte) × State :=
  let l := s.progSections r g m
  let k := s.modelKind m
  let p := parseSpr g.spr
  let map := s.positionMap g.pos
  let head := map.1 ++ s.stateRecords m g.pos p.nGlobal g.steps g.replicas g.nonGibbs true
  let base := roundUp 64 head.length
  let back (s : State) (off n : Nat) : List Byte × State :=
    if n = 0 then ([], s)
    else match s.agRead (m.writer r) (r.outVa + off) n with
      | (.ok x, s1) => (x.bytes, s1)
      | (.error _, s1) => ([], s1)
  let samp := back map.2 l.samp (g.samples * recordBytes p.nGlobal k.1)
  let trace := back samp.2 l.trace (g.trace * p.traceBytes g.replicas)
  let n := (p.marked g.replicas).length * p.nGlobal * (if k.1 then k.2 else 1)
  let best : List Byte := match g.best with
    | some (d, n, pos, rep, st) => stateRecord n pos rep g.nonGibbs d k.1 st
    | none => []
  ([(0, head), (base, summaryBytes r g l g.steps)] ++ (if l.acc = 0 then [] else [(base + l.acc, acceptBytes g)])
    ++ (if l.best = 0 then [] else [(base + l.best, best)])
    ++ (if l.marg = 0 then [] else [(base + l.marg, (List.range n).flatMap (fun i => leBytes 4 (g.marg.get i)))])
    ++ [(base + l.samp, samp.1), (base + l.trace, trace.1)], trace.2)

/-- REPLAY_STOP (R398): commands already started have ended and every write has been performed; no other command starts. The output is
written, as far as OUT_BYTES goes, and the REPLAY completes. -/
def execReplayStop (req : Nat) (s : State) : Out := heldWait s fun s =>
  .next (s.withReq req (fun r => decide (r.step = .run) && r.halted) (fun r s =>
    let s0 := r.cores.foldl State.haltCore (s.dropCmds req)
    whenB (!s0.reqBusy req) s (fun _ =>
      match r.prog, s0.findModel r.part r.model, r.replay with
      | some g, some m, some y =>
        let x := s0.replayPieces r g m
        let s1 := x.1.foldl (fun s w => s.suaWrite (m.writer r) req (y.outVa + w.1) (w.2.take (y.outBytes - w.1))) x.2
        s1.finishReq req
      | _, _, _ => s0.finishReq req)))

/-! ### The Pebble Trail (R389 to R394) -/

/-- An input entry (R391). -/
def InputEnt.bytes (e : InputEnt) : List Byte := leBytes 1 e.kind ++ leBytes 1 e.index ++ zeros 6 ++ leBytes 8 e.len ++ e.digest

/-- A stall entry (R392). -/
def Stall.bytes (x : Stall) : List Byte :=
  leBytes 4 x.offset ++ leBytes 2 (satTo 65535 x.cost) ++ leBytes 1 x.kind ++ zeros 1 ++ leBytes 1 x.node ++ leBytes 1 x.where_ ++ zeros 6

/-- A trail record (R390 to R393). SC_COUNT is the placement's, whatever has been fenced since admission. -/
def trailRecord (r : Request) : List Byte :=
  let code : Half := (r.err.map (fun e => e.2.1)).getD 0
  let ins := (sortKey (fun e => e.kind * 256 + e.index) r.inputs).take 10
  let kept := (sortKey (fun x => (x.offset * 256 + x.node) * 256 + x.where_) r.stalls).take 22
  let flags := trailFlagBits r.drawn r.timingOpen r.stalls.length (decide (code ≠ 0)) r.replay.isSome
  let mode := match r.mode with
    | .free => 0
    | .fixed => 1
    | .any => 2
  let dies := r.dies.foldl (fun m d => m + 2 ^ d) 0
  let ticks := r.stalls.foldl (fun t x => t + x.cost) 0
  let head := leBytes 8 r.seqNo ++ leBytes 1 mode ++ leBytes 1 flags ++ leBytes 1 r.part ++ leBytes 1 dies ++ leBytes 2 code.toNat
    ++ leBytes 1 r.replicas ++ leBytes 1 ins.length ++ leBytes 4 ((r.prog.map Program.steps).getD 0)
    ++ leBytes 2 r.scs.length ++ leBytes 1 kept.length ++ leBytes 1 r.linkUsed ++ leBytes 1 r.linkHalf ++ zeros 7
    ++ leBytes 8 (r.launchedAt.getD 0).toNat ++ leBytes 8 (r.endedAt.getD 0).toNat ++ leBytes 4 (satTo (2 ^ 32 - 1) r.stalls.length)
    ++ leBytes 4 (satTo (2 ^ 32 - 1) ticks) ++ leBytes 8 ((r.replay.map (·.seqNo)).getD 0) ++ (if r.live then zeros 16 else padTo 16 r.seed)
    ++ r.progHash ++ r.placeHash ++ zeros 48
  head ++ padTo 480 (ins.flatMap InputEnt.bytes) ++ padTo 352 (kept.flatMap Stall.bytes)

/-- A record goes into the partition's trail ring on a die (R389, R394). A record whose write fails is lost, and WRITE does not
advance. -/
def State.writeTrail (s : State) (d : Nat) (r : Request) : State :=
  let ctl : RegKey := ⟨.detTrailctl, d, r.part, 0⟩
  let idx : RegKey := ⟨.detTrailidx, d, r.part, 0⟩
  let w := s.appWord ctl
  let n := 2 ^ bitsOf w 4 0
  let wr := bitsOf (s.appWord idx) 63 32
  let full := decide ((wr + 2 ^ 32 - bitsOf (s.appWord idx) 31 0) % 2 ^ 32 = n)
  let go (s : State) : State :=
    let va := s.appF .detTrailbase d r.part 0 56 10 * 1024 + 1024 * (wr % n)
    match s.agWriteCode (accessor r.part (ctlNode d) .dma none) va (trailRecord r) with
    | (none, s1) => s1.hwSet idx 63 32 ((wr + 1) % 2 ^ 32)
    | (some _, s1) => s1
  if !bitOf w 63 then s
  else if full && !bitOf w 8 then (s.hwCount ctl 47 16).log d (ctlNode d) (some r.part) .trailFull 0 0
  else if full then go (s.hwSet idx 31 0 ((bitsOf (s.appWord idx) 31 0 + 1) % 2 ^ 32))
  else go s

/-- TRAIL_WRITE (R389): after the completion entry has been written; the request is then over. -/
def execTrailWrite (req : Nat) (s : State) : Out := heldWait s fun s =>
  .next (s.withReq req (fun r => decide (r.step = .done) && !s.req.due.any (fun e => e.desc == r.desc)) (fun r s =>
    let s1 := match s.admitDie r.part with
      | some d => if r.trailDue then s.writeTrail d r else s
      | none => s
    s1.modReqs (fun k => { k with requests := k.requests.filter (fun q => !(q.id == req)) })))

end Sys2Proof.Machine
end

