-- ==== Sys2Proof/Machine/Requests.lean ====
section
/-! DEFINITION. Descriptors: taking them (R474 to R477), and what each kind does (R478 to R489, with R345, R346, R396, R416, R419, R430 and
R239 to R241). -/

namespace Sys2Proof.Machine

/-! ### Form (R476, R477) -/

/-- Whether bytes `a` to `b` of a descriptor are all 0. -/
def zeroFrom (b : List Byte) (a n : Nat) : Bool := allZero (sliceB b a n)

/-- The kind-specific fields of a descriptor (R478 to R489). -/
def kindOk (b : List Byte) : Bool :=
  match byteAt b 0 with
  | 1 =>
    let f := byteAt b 17
    decide (byteAt b 16 ≤ 2) && decide (f < 16) && decide (byteAt b 18 ≤ (if bitOf f 2 then 7 else 0)) && zeroFrom b 19 1
      && (!(bitOf f 1 || bitOf f 2) || zeroFrom b 40 8) && decide (fieldLe b 32 8 % 64 = 0)
  | 2 =>
    decide (byteAt b 16 ≤ 1) && zeroFrom b 17 1 && zeroFrom b 20 4 && zeroFrom b 42 22
      && (decide (byteAt b 16 = 1) || (decide (fieldLe b 32 8 % 16 = 0) && decide (1 ≤ fieldLe b 40 2) && decide (fieldLe b 40 2 ≤ 64)))
  | 3 =>
    zeroFrom b 18 6 && zeroFrom b 36 28 && decide (fieldLe b 24 8 % 16 = 0) && decide (1 ≤ fieldLe b 32 4)
      && decide (fieldLe b 32 4 ≤ 65536)
  | 4 | 5 => zeroFrom b 24 40
  | 6 => zeroFrom b 18 6 && zeroFrom b 36 28 && decide (fieldLe b 24 8 % 64 = 0)
  | 7 => decide (byteAt b 44 ≤ 1) && zeroFrom b 45 3 && zeroFrom b 60 4
  | 8 => decide (byteAt b 16 ≤ 1) && zeroFrom b 17 47
  | 9 =>
    match byteAt b 16 with
    | 1 => zeroFrom b 17 7 && zeroFrom b 36 28 && decide (1 ≤ fieldLe b 32 4) && decide (fieldLe b 32 4 ≤ 4096)
    | 2 => zeroFrom b 17 7 && zeroFrom b 32 32
    | 3 => decide (byteAt b 17 < 16) && zeroFrom b 18 46
    | 4 => zeroFrom b 17 7 && zeroFrom b 36 28
    | _ => false
  | 10 => zeroFrom b 16 48
  | _ => false

/-- A descriptor in form (R477). -/
def descOk (b : List Byte) : Bool := decide (byteAt b 1 ≤ 1) && zeroFrom b 3 5 && kindOk b

/-! ### Taking (R474, R475) -/

/-- From the tick in which a SCHED_REMOVE of a partition's own region is taken, no request of the region launches (R346). -/
def State.noteRemoval (s : State) (d : Desc) : State :=
  let id := byteAt d.bytes 17
  if d.kind = 9 ∧ byteAt d.bytes 16 = 3 ∧ (s.findSched id).any (fun c => c.part == d.part && c.active) then
    s.modSched id (fun c => { c with removal := true })
  else s

/-- The next descriptor of a ring is read and taken (R473 to R477), with the host's answer; none where it cannot be taken now. -/
def State.takeOne (s : State) (p q : Nat) (raw : List Byte) : Option State :=
  let r := s.ring p false q
  let x := s.ringAgent p r.port
  let va := s.slotVa p false q r.head.toNat
  if s.req.descs.any (fun d => d.part == p && d.sq == q && d.kind == 8) then none
  else match s.gate x .read false va with
    | (.error c, s1) => some ((s1.gateLog x va c).ringError p false q c)
    | (.ok (.dev _), s1) => some (s1.ringError p false q .ringFormat)
    | (.ok (.host port f a _ _), s1) =>
      if !s1.pathUp ((s1.admitDie p).getD 0) port then some (s1.ringError p false q .linkDown)
      else if !(s1.io.hps.get port).linkUp then some (s1.ringError p false q .hpLinkDown)
      else
        let s2 := s1.emit (.hostRead port f a 64 (s1.io.hps.get port).nextRead)
        let cq := byteAt raw 2
        let adv (s : State) : State := s.modRing (ringKey p false q) (fun r => { r with head := r.head + 1 })
        if raw.length < 64 then some (s2.ringError p false q .hpUr)
        else if 63 < cq ∨ (s.ring p true cq).st ≠ 1 ∨ !bitOf (s.visWord (ringCtl p true cq)) 63 then
          some ((adv s2).ringError p false q .ringFormat)
        else if s.ringSize p true cq ≤ s.cqReserved p cq then none
        else
          let d : Desc :=
            { id := s.req.nextDesc, part := p, sq := q, cq := cq, kind := byteAt raw 0, bytes := raw, tag := BitVec.ofNat 64 (fieldLe raw 8 8)
              irqNow := bitOf (byteAt raw 1) 0, port := port, func := f, started := false, orphan := false, data := [] }
          let s3 := (adv s2).modReqs (fun k => { k with descs := k.descs ++ [d], nextDesc := k.nextDesc + 1 })
          some (if descOk raw then s3.noteRemoval d else s3.complete d .descFormat 0 0)

/-- Descriptors of a ring are taken up to a TAIL, in ring order; whether all of them were, or the ring is in ERROR. -/
def State.takeAll (p q : Nat) (tail : Word32) : List (List Byte) → State → State × Bool
  | raws, s =>
    let r := s.ring p false q
    if r.st ≠ 1 ∨ r.head = tail then (s, true)
    else match raws with
      | [] => (s, false)
      | raw :: rest =>
        match s.takeOne p q raw with
        | none => (s, false)
        | some s1 => State.takeAll p q tail rest s1

/-- A notice's count is checked and taken over (R472, R492): whether its descriptors are to be taken. -/
def State.noteCount (s : State) (n : Notice) : Bool × State :=
  let k := ringKey n.part n.cq n.ring
  let r := s.req.rings.get k
  let size := s.ringSize n.part n.cq n.ring
  if r.st ≠ 1 then (false, s)
  else if n.cq then
    if size < (r.write - n.value).toNat then (false, s.ringError n.part true n.ring .ringOverrun)
    else (false, s.modRing k (fun r => { r with head := n.value }))
  else if size < (n.value - r.head).toNat then (false, s.ringError n.part false n.ring .ringOverrun)
  else (true, s.modRing k (fun r => { r with tail := n.value }))

/-- Whether a notice can be served: its count, or its next descriptor, behind no earlier notice of its ring. -/
def State.mayServe (s : State) (before : List Notice) (n : Notice) (descs : List (List Byte)) : Bool :=
  let ahead := before.any (fun b => b.part == n.part && b.ring == n.ring && b.cq == n.cq)
  !ahead && (!n.seen || (match descs with
    | raw :: _ => (s.takeOne n.part n.ring raw).isSome
    | [] => false) || decide ((s.ring n.part false n.ring).st ≠ 1))

/-- The first notice that can be served, by its place. -/
def State.nextNotice (s : State) (descs : List (List Byte)) (before : List Notice) : List Notice → Option (List Notice × Notice × List Notice)
  | [] => none
  | n :: ns => if s.mayServe before n descs then some (before, n, ns) else s.nextNotice descs (before ++ [n]) ns

/-- DOORBELL_NOTICE (R474): Steward of die `d` serves the oldest notice that can be served: its count first, then its descriptors in ring
order; the rest of a notice waits. In NO_SERVICE no descriptor is taken (R524). -/
def execDoorbellNotice (d : DieId) (descs : List (List Byte)) (s : State) : Out :=
  .next (withSome (s.nextNotice descs [] (s.req.notices.get d)) s (fun x s =>
    let (before, n, after) := x
    let put (s : State) (l : List Notice) : State := s.modReqs (fun k => { k with notices := k.notices.set d (before ++ l ++ after) })
    if s.admitDie n.part ≠ some d.val ∨ s.ras.noService = true then put s []
    else
      let c := if n.seen then (true, s) else s.noteCount n
      if !c.1 then put c.2 []
      else
        let t := State.takeAll n.part n.ring n.value descs c.2
        put t.1 (if t.2 then [] else [{ n with seen := true }])))

/-! ### Acting on a descriptor -/

/-- Whether Steward may act on a descriptor: those of the partition taken before it have been acted on, and no admission of the
partition waits for its seed. -/
def State.fresh (s : State) (d : Desc) : Bool :=
  !d.started && !s.req.descs.any (fun x => x.part == d.part && decide (x.id < d.id) && !x.started)
    && !s.req.requests.any (fun r => r.part == d.part && decide (r.step = .arm))

/-- A descriptor of a kind: `first` when Steward acts on it, `later` while it waits. -/
def State.withDesc (s : State) (id kind : Nat) (p : Desc → Bool) (first later : Desc → State → State) : State :=
  withSome (s.req.descs.find? (fun d => d.id == id && d.kind == kind && p d)) s (fun d s =>
    if d.started then later d s
    else if s.fresh d then
      first { d with started := true } (s.modReqs (fun k => { k with descs := mapWhere (fun x => x.id == id) (fun x => { x with started := true }) k.descs }))
    else s)

/-- The end of a job: a failure completes the descriptor. -/
def Job.orFail {A : Type} (j : Job A) (d : Desc) (f : A → State → State) : State :=
  match j with
  | (.ok a, s) => f a s
  | (.error e, s) => s.completeFault d e.code e.va e.node

/-- Requests that keep a descriptor from changing or reading a model (R483, R485): those of the model that run, and those taken before the
descriptor that are not armed and have yet to launch. -/
def State.modelRuns (s : State) (d : Desc) (m : Nat) : Bool :=
  s.req.requests.any (fun r => r.part == d.part && r.model == m
    && (r.running || (decide (r.desc < d.id) && r.armIndex.isNone && decide (r.step ≠ .done))))

/-! ### RUN (R478 to R481) -/

/-- A program before its first sweep. -/
def startProgram (k : Spr) (spr betas : List Byte) (r : Nat) (stop : Option Nat) : Program :=
  { model := k.modelId, spr := spr, betas := betas, replicas := r, n := 0, sweeping := false, full := false, clsDone := .const 0
    sent := .const 0, exch := .const .idle, seqPos := .const 0, repSent := .const 0, owed := [], pos := List.range r, energies := [], energyAt := none, roundDue := false, restarts := 0
    exchRounds := 0, attempts := List.replicate (r - 1) 0, accepts := List.replicate (r - 1) 0, samples := 0, samplesFull := false
    trace := 0, traceFull := false, counted := 0, margSat := false, marg := .const 0, best := none, nonGibbs := false, liveKey := none
    finished := false, endTick := 0, stopAt := stop, stopped := false }

/-- A request of a descriptor, before admission ends. -/
def newRequest (id : Nat) (d : Desc) (mode : RMode) (k : Spr) (spr betas : List Byte) (c : Cont) (nodes : List Nat) (r : Nat)
    (stop : Option Nat) : Request :=
  { id := id, desc := d.id, part := d.part, port := d.port, func := d.func, seqNo := 0, mode := mode, step := .arm, model := k.modelId
    sprVa := 0, outVa := k.outVa, outBytes := k.outBytes, arg := 0, entry := c.entry, nodes := nodes, pinVa := c.pinVa
    pinCount := c.pinCount, srid := c.srid, progHash := c.progHash, placeHash := c.placeHash, seed := [], drawn := false
    live := bitOf k.flags 0, replicas := r, lowered := decide (r < k.want), takePartial := false, armIndex := none, event := none
    launch := ⟨false, 0, 0, [], [], false, [], []⟩, prog := some (startProgram k spr betas r stop), err := none, poisonLogged := false
    stalls := [], hostOut := [], timingOpen := false, inputs := [programInput spr betas], linkUsed := 0, linkHalf := 0
    launchedAt := none, endedAt := none, replay := none, trailDue := false, declared := [] }

/-- A request joins the others and goes on, unless it waits for its seed, or, where it is reproducible, for islands that are about to be
held and are not at T0 (R573). -/
def State.addRequest (s : State) (r : Request) : State :=
  let s1 := s.modReqs (fun k => { k with requests := k.requests ++ [r], nextReq := k.nextReq + 1 })
  if (r.seed.isEmpty && r.drawn) || !s1.islandsReady r then s1 else s1.proceed r.id

/-- A RUN is admitted (R94). -/
def State.admitRequest (s : State) (d : Desc) : State :=
  let b := d.bytes
  let mode : RMode := match byteAt b 16 with
    | 0 => .free
    | 1 => .fixed
    | _ => .any
  let f := byteAt b 17
  let arm := if bitOf f 2 then some (byteAt b 18) else none
  let admitted := Job.andThen (s.readProgram d.part (fieldLe b 24 8)) fun p s =>
    Job.andThen (s.readContainer d.part (fieldLe b 32 8)) fun c s =>
    Job.andThen (s.admitRun ⟨d.part, d.port, mode, bitOf f 1, c, arm, bitOf f 0, none⟩ (parseSpr p.1)) fun x s =>
    Job.andThen (s.digestRegions d.part (Config.declaredResident x.1.progHash x.1.placeHash)) fun g s => (.ok (p, x, g), s)
  Job.orFail admitted d (fun y s =>
    let x := y.2.1
    let r := newRequest s.req.nextReq d mode (parseSpr y.1.1) y.1.1 y.1.2 x.1 x.2.1 x.2.2.replicas none
    let l := { r.launch with barrier := bitOf f 1, tick := fieldLe b 40 8 }
    s.addRequest { r with
      declared := y.2.2, sprVa := fieldLe b 24 8, arg := fieldLe b 20 4, drawn := bitOf f 0, seed := if bitOf f 0 then [] else sliceB b 48 16
      takePartial := bitOf f 3, armIndex := arm, launch := l })

/-- A request of a descriptor that waits for its region or its model may launch now, with the present tick as A. -/
def State.relaunch (s : State) (d : Desc) : State :=
  withSome (s.req.requests.find? (fun r => r.desc == d.id && decide (r.step = .waitRegion))) s (fun r s =>
    if s.mustWait r then s else s.toLaunch r.id (s.tickOf ((s.admitDie d.part).getD 0)))

/-- RUN (R478): a RUN is admitted, seeded and pinned, then launched or armed; while it waits (R337, R483), it launches when it may. -/
def execRun (desc : Nat) (s : State) : Out := heldWait s fun s => .next (s.withDesc desc 1 (fun _ => true) (fun d s => s.admitRequest d) (fun d s => s.relaunch d))

/-! ### REPLAY (R396, R397, R486) -/

/-- The fields of a trail record that a REPLAY uses (R390). -/
structure Record where
  seqNo : Nat
  mode : Nat
  replicas : Nat
  inputs : Nat
  steps : Nat
  tick : Nat
  seed : List Byte
  progHash : List Byte
  placeHash : List Byte
deriving DecidableEq, Repr

/-- The header of a record. -/
def parseRecord (b : List Byte) : Record :=
  { seqNo := fieldLe b 0 8, mode := byteAt b 8, replicas := byteAt b 14, inputs := byteAt b 15, steps := fieldLe b 16 4
    tick := fieldLe b 32 8, seed := sliceB b 64 16, progHash := sliceB b 80 32, placeHash := sliceB b 112 32 }

/-- Input entry `i` of a record (R391). -/
def recordInput (b : List Byte) (i : Nat) : InputEnt :=
  let o := 192 + 48 * i
  ⟨byteAt b o, byteAt b (o + 1), fieldLe b (o + 8) 8, sliceB b (o + 16) 32⟩

/-- An input that is supplied for a record's entry is digested (R396). -/
def State.suppliedInput (s : State) (d : Desc) (declared : List (Nat × List Byte)) (e : InputEnt) (va : Nat) : Job InputEnt :=
  let x := s.steward d.part .dma
  match e.kind with
  | 1 => Job.andThen (s.jobRead x va e.len) fun b s => (.ok ⟨1, e.index, b.length, sha256 b⟩, s)
  | 2 => (.ok (s.residentInput d.part declared), s)
  | _ =>
    Job.andThen (s.jobRead x va 128) fun b s =>
      let k := parseSpr b
      Job.andThen (s.jobRead x k.betaVa (k.betaSteps * k.stepBytes)) fun bs s => (.ok (programInput b bs), s)

/-- Every input of a record, with the entry supplied for it: the addresses of the program record and of the first copy of an event. -/
def State.suppliedInputs (s : State) (d : Desc) (declared : List (Nat × List Byte)) (rec sup : List Byte) : List Nat → Job (Option Nat × Option Nat)
  | [] => (.ok (none, none), s)
  | i :: is =>
    let e := recordInput rec i
    let o := 16 * i
    let va := fieldLe sup (o + 8) 8
    if byteAt sup o ≠ e.kind ∨ byteAt sup (o + 1) ≠ e.index ∨ e.kind = 0 ∨ 3 < e.kind then failCode .replayInput s
    else Job.andThen (s.suppliedInput d declared e va) fun g s =>
      if g.digest ≠ e.digest then failCode .replayInput s
      else Job.andThen (s.suppliedInputs d declared rec sup is) fun v s =>
        (.ok (if e.kind = 3 then some va else v.1, if e.kind = 1 then some va else v.2), s)

/-- The checks of R396, in order, and the admission. -/
def State.checkReplay (s : State) (d : Desc) :
    Job (List Byte × (Nat × List (Nat × List Byte)) × Option Nat × (List Byte × List Byte) × (Cont × List Nat × Model)) :=
  let b := d.bytes
  let x := s.steward d.part .dma
  Job.andThen (s.jobRead x (fieldLe b 16 8) 1024) fun rb s =>
  let r := parseRecord rb
  Job.andThen (require (decide (r.mode = 1) || decide (r.mode = 2)) .replayMode s) fun _ s =>
  Job.andThen (s.jobRead x (fieldLe b 24 8) 128) fun cb s =>
  Job.andThen (require (decide (sliceB cb 40 32 = r.progHash) && (decide (r.mode = 2) || decide (sliceB cb 72 32 = r.placeHash))) .replayShape s) fun _ s =>
  Job.andThen (require (decide (fieldLe b 40 4 ≤ r.steps)) .replayStep s) fun _ s =>
  Job.andThen (s.jobRead x (fieldLe b 32 8) (16 * min 10 r.inputs)) fun sup s =>
  Job.andThen (s.digestRegions d.part (Config.declaredResident r.progHash (sliceB cb 72 32))) fun g s =>
  Job.andThen (s.suppliedInputs d g rb sup (List.range (min 10 r.inputs))) fun sup s =>
  match sup.1 with
  | none => failCode .replayInput s
  | some va =>
    Job.andThen (s.readProgram d.part va) fun p s =>
    Job.andThen (s.readContainer d.part (fieldLe b 24 8)) fun c s =>
    let mode : RMode := if r.mode = 1 then .fixed else .any
    Job.andThen (s.admitRun ⟨d.part, d.port, mode, false, c, none, false, some r.replicas⟩ (parseSpr p.1)) fun a s => (.ok (rb, (va, g), sup.2, p, a), s)

/-- A REPLAY is admitted: it has the record's seed, mode and replica count. What ARG held is not recorded: a1 is free. -/
def State.admitReplay (s : State) (d : Desc) : State :=
  let b := d.bytes
  Job.orFail (s.checkReplay d) d (fun y s =>
    let (rb, (va, g), copy, p, (c, nodes, _)) := y
    let rec_ := parseRecord rb
    let stop := if fieldLe b 40 4 < rec_.steps then some (fieldLe b 40 4) else none
    let (n, s1) := s.takeFree
    let r := newRequest s1.req.nextReq d (if rec_.mode = 1 then .fixed else .any) (parseSpr p.1) p.1 p.2 c nodes rec_.replicas stop
    let streams := ((List.range (min 10 rec_.inputs)).map (recordInput rb)).filter (fun e => e.kind == 1)
    let y : ReplayOf := ⟨rec_.seqNo, rec_.tick, decide (byteAt b 44 = 1), fieldLe b 40 4, fieldLe b 48 8, fieldLe b 56 4, copy⟩
    s1.addRequest { r with
      declared := g, sprVa := va, arg := (Config.freeWord n).toNat % 2 ^ 32, seed := rec_.seed, inputs := r.inputs ++ streams, replay := some y })

/-- REPLAY (R396). -/
def execReplay (desc : Nat) (s : State) : Out := heldWait s fun s => .next (s.withDesc desc 7 (fun _ => true) (fun d s => s.admitReplay d) (fun d s => s.relaunch d))

/-! ### Models (R482, R483, R485) -/

/-- The images of a load table, and admission of its model. -/
def State.loadChecks (s : State) (d : Desc) : Job (Spr × List Image × Nat) :=
  let b := d.bytes
  Job.andThen (s.readProgram d.part (fieldLe b 24 8)) fun p s =>
  Job.andThen (s.jobRead (s.steward d.part .dma) (fieldLe b 32 8) (16 * fieldLe b 40 2)) fun t s =>
  match parseLoadTable t (fieldLe b 40 2) with
  | none => failCode .descFormat s
  | some es =>
    Job.andThen (s.readImages (s.steward d.part .sua) es) fun imgs s =>
    Job.andThen (s.admitLoad d.part d.port (parseSpr p.1) imgs) fun r s =>
    match s.checkImages d.part r [] imgs with
    | some c => failCode c s
    | none => (.ok (parseSpr p.1, imgs, r), s)

/-- LOAD_MODEL (R482): admission, then the images are copied and checked on every SC. -/
def execLoadModel (desc : Nat) (s : State) : Out := heldWait s fun s =>
  .next (s.withDesc desc 2 (fun d => decide (byteAt d.bytes 16 = 0)) (fun d s =>
    Job.orFail (s.loadChecks d) d (fun x s =>
      (s.installModel d.part x.2.2 x.1 x.2.1).formEntry d (ctlNode ((s.admitDie d.part).getD 0)) false 0 0 0 x.2.2 (decide (x.2.2 < x.1.want))))
    (fun _ s => s))

/-- A model is removed once no request of it has been admitted other than armed RUNs that wait for an event, and those end with
MODEL_ABSENT (R482). -/
def State.unload (s : State) (d : Desc) : State :=
  let id := fieldLe d.bytes 18 2
  let mine (r : Request) : Bool := r.part == d.part && r.model == id
  if (s.findModel d.part id).isNone then s.complete d .modelAbsent 0 0
  else if s.req.requests.any (fun r => mine r && !(decide (r.step = .waitEvent) || decide (r.step = .done))) then s
  else
    let s1 := s.modComp (fun c => { c with models := c.models.filter (fun m => !(m.part == d.part && m.id == id)) })
    let s2 := (s1.req.requests.filter (fun r => mine r && r.armed)).foldl (fun s r => s.endReq r.id .modelAbsent 0 0) s1
    s2.complete d .ok 0 0

/-- UNLOAD (R482). -/
def execUnload (desc : Nat) (s : State) : Out :=
  .next (s.withDesc desc 2 (fun d => decide (byteAt d.bytes 16 = 1)) (fun d s => s.unload d) (fun d s => s.unload d))

/-- Coefficients that an image holds: as many as its lists and biases use (R46). -/
def Image.coefCount (i : Image) : Nat :=
  let us := (List.range i.h.nLocal).map (imageUnit i.h i.bytes)
  let hs := (List.range i.h.hLocal).map (imageHalo i.h i.bytes)
  let lists := (us.map (fun u => u.listOff + u.degree) ++ hs.map (fun x => x.1 + x.2.1)).foldl max 0
  max lists ((us.map (fun u => u.biasOff + (if i.h.potts then i.h.q else 1))).foldl max 0)

/-- An update entry (R483): SC, coefficient index, value. -/
def updateEntry (b : List Byte) (i : Nat) : Nat × Nat × Int :=
  (byteAt b (16 * i), fieldLe b (16 * i + 4) 4, sInt 64 (fieldLe b (16 * i + 8) 8))

/-- Whether an update entry may be written (R483). -/
def updateOk (imgs : List Image) (b : List Byte) (i : Nat) : Bool :=
  let e := updateEntry b i
  imgs.any (fun m =>
    let w := 8 * m.h.coefBytes
    m.sc == e.1 && decide (e.2.1 < m.coefCount) && decide (-(2 ^ (w - 1) : Int) ≤ e.2.2) && decide (e.2.2 < (2 ^ (w - 1) : Int)))

/-- The writes of an UPDATE_COUPLINGS, once no request of the model runs; the next request begins with a full sweep (R55). -/
def State.applyUpdate (s : State) (d : Desc) : State :=
  let id := fieldLe d.bytes 16 2
  if s.modelRuns d id then s
  else match s.findModel d.part id with
    | none => s.complete d .modelAbsent 0 0
    | some m =>
      let put (s : State) (i : Nat) : State :=
        let e := updateEntry d.data i
        match s.modelOn m e.1 with
        | some t => s.pokeMem (cstAddr t.sc (t.off + t.h.coefOff + t.h.coefBytes * e.2.1)) (leBytes t.h.coefBytes (ofSInt (8 * t.h.coefBytes) e.2.2))
        | none => s
      (((List.range (fieldLe d.bytes 32 4)).foldl put s).needFull m).complete d .ok 0 0

/-- UPDATE_COUPLINGS (R483): every entry is checked before any is written. -/
def execUpdateCouplings (desc : Nat) (s : State) : Out := heldWait s fun s =>
  .next (s.withDesc desc 3 (fun _ => true) (fun d s =>
    let b := d.bytes
    match s.findModel d.part (fieldLe b 16 2) with
    | none => s.complete d .modelAbsent 0 0
    | some m =>
      Job.orFail (s.jobRead (s.steward d.part .sua) (fieldLe b 24 8) (16 * fieldLe b 32 4)) d (fun t s =>
        let imgs := s.residentImages m
        if !(List.range (fieldLe b 32 4)).all (updateOk imgs t) then s.complete d .cstFormat 0 0
        else
          let s1 := s.modReqs (fun k => { k with descs := mapWhere (fun x => x.id == d.id) (fun x => { x with data := t }) k.descs })
          s1.applyUpdate { d with data := t }))
    (fun d s => s.applyUpdate d))

/-- The output of a READ_STATE (R485), once no request of the model runs. What the sweep and NONGIBBS fields of these records hold is not
stated: free values. -/
def State.readState (s : State) (d : Desc) : State :=
  let b := d.bytes
  if s.modelRuns d (fieldLe b 16 2) then s
  else match s.findModel d.part (fieldLe b 16 2) with
    | none => s.complete d .modelAbsent 0 0
    | some m =>
      let f := s.openBytes 5
      let map := f.2.positionMap m.pos
      let out := map.1 ++ map.2.stateRecords m m.pos m.nGlobal (leVal (f.1.take 4)) m.replicas (bitOf (byteAt f.1 4) 0) false
      let x := map.2.steward d.part .sua
      match map.2.agWriteCode x (fieldLe b 24 8) out with
      | (some c, s1) => s1.completeFault d c (fieldLe b 24 8) x.node
      | (none, s1) => s1.complete d .ok 0 0

/-- READ_STATE (R485). -/
def execReadState (desc : Nat) (s : State) : Out := heldWait s fun s =>
  .next (s.withDesc desc 6 (fun _ => true) (fun d s =>
    match s.findModel d.part (fieldLe d.bytes 16 2) with
    | none => s.complete d .modelAbsent 0 0
    | some m =>
      if fieldLe d.bytes 32 4 < 64 + m.replicas * recordBytes m.nGlobal (s.modelKind m).1 then s.complete d .descFormat 0 0
      else s.readState d)
    (fun d s => s.readState d))

/-! ### Streams (R416, R419, R430) -/

/-- Whether the fields of a binding half are in range (R417); its reserved bits read 0 (R17). -/
def StreamHalf.inRange (h : StreamHalf) : Bool :=
  decide (1 ≤ h.stream) && decide (h.sp < 8) && decide (1 ≤ h.openMax) && decide (h.openMax ≤ 8)
    && decide (64 ≤ h.fragBytes) && decide (h.fragBytes ≤ 9472) && decide (h.fragBytes % 64 = 0) && decide (1 ≤ h.timeout)
    && decide (4 ≤ h.log2Recs) && decide (h.log2Recs ≤ 16) && decide (h.recBase % 0x1000 = 0)
    && decide (h.dataBase % 0x10000 = 0) && decide (1 ≤ h.dataBytes) && decide (h.dataBytes % 0x10000 = 0) && decide (h.dataBytes ≤ 2 ^ 40)

/-- One DVA of every 64 KiB page of a range. -/
def pagesOf (base n : Nat) : List Nat :=
  (List.range ((base + n - 1) / 65536 - base / 65536 + 1)).map (fun i => if i = 0 then base else (base / 65536 + i) * 65536)

/-- Write access to pages (R416 item 1). -/
def State.jobPages (s : State) (x : Accessor) : List Nat → Job Unit
  | [] => (.ok (), s)
  | va :: vas =>
    match s.gate x .write false va with
    | (.error c, s1) => (.error ⟨c, va, x.node⟩, s1.gateLog x va c)
    | (.ok _, s1) => s1.jobPages x vas

/-- A write of Steward. -/
def State.jobWrite (s : State) (x : Accessor) (va : Nat) (bs : List Byte) : Job Unit :=
  match s.agWriteCode x va bs with
  | (some c, s1) => (.error ⟨c, va, x.node⟩, s1)
  | (none, s1) => (.ok (), s1)

/-- The checks of R416, in order: the binding half. Bytes 64 to 255 are zeroed once the context may be written. -/
def State.checkBind (s : State) (d : Desc) : Job (List Byte) :=
  let va := fieldLe d.bytes 16 8
  let x := s.steward d.part .stream
  Job.andThen (s.jobPages x [va]) fun _ s =>
  Job.andThen (s.jobWrite x (va + 64) (zeros 192)) fun _ s =>
  Job.andThen (s.jobRead x va 48) fun b s =>
  let h := parseHalf b
  let ok := h.inRange
  let pages := (if h.log2Recs ≤ 16 then pagesOf h.recBase (64 * 2 ^ h.log2Recs) else [])
    ++ (if h.dataBytes ≤ 2 ^ 40 then pagesOf h.dataBase h.dataBytes else [])
  Job.andThen (s.jobPages x pages) fun _ s =>
  let notifyOk := !bitOf h.notify 15 || s.beaconNode d.part (bitsOf h.notify 13 6)
  let live := s.io.bindings.filter (fun k => !k.unbound)
  let mine := live.filter (fun k => k.sp == h.sp)
  Job.andThen (require (ok && s.portServes h.sp && decide (h.part = d.part) && notifyOk) .strBindFormat s) fun _ s =>
  Job.andThen (require (!live.any (fun k => k.stream == h.stream)) .strBindDup s) fun _ s =>
  Job.andThen (require (decide (mine.length < 16) && decide ((mine.map (fun k => k.h.openMax)).foldl (· + ·) 0 + h.openMax ≤ 32)) .strBindFull s) fun _ s =>
  (.ok b, s)

/-- BIND_STREAM (R416). -/
def execBindStream (desc : Nat) (s : State) : Out := heldWait s fun s =>
  .next (s.withDesc desc 4 (fun _ => true) (fun d s =>
    Job.orFail (s.checkBind d) d (fun b s =>
      let h := parseHalf b
      let k : Binding :=
        { sp := h.sp, stream := h.stream, part := d.part, ctxVa := fieldLe d.bytes 16 8, half := b, haveEvent := false, stalled := false
          lastEvent := 0, nextSeq := 0, recWrite := 0, dataWrite := 0, lastRx := 0, counters := List.replicate 16 0, writtenBack := zeros 192
          refusalLogged := false, boundAt := s.tickOf (h.sp / 2), recRead := 0, dataRead := 0, unbound := false, open_ := [], closed := []
          armed := [] }
      (s.modIo (fun o => { o with bindings := o.bindings ++ [k] })).complete d .ok 0 0))
    (fun _ s => s))

/-- A binding goes (R419): its open events close EVICTED in opening order, its state is written back, and its armed RUNs end. -/
def State.unbind (s : State) (b : Binding) : State :=
  let s1 := b.open_.foldl (fun s e => s.evictEvent b e) s
  let s2 := (s1.writeBack b).modBinding b (fun k => { k with unbound := true })
  ((s2.armedOn b).foldl (fun s r => s.endReq r.id .strUnbound 0 0) s2).dropUnbound

/-- UNBIND_STREAM (R419): a context that is not bound completes it with STR_UNBOUND. -/
def execUnbindStream (desc : Nat) (s : State) : Out :=
  .next (s.withDesc desc 5 (fun _ => true) (fun d s =>
    match s.io.bindings.find? (fun b => b.part == d.part && b.ctxVa == fieldLe d.bytes 16 8 && !b.unbound) with
    | none => s.complete d .strUnbound 0 0
    | some b => (s.unbind b).complete d .ok 0 0)
    (fun _ s => s))

/-- DIGEST_FINAL (R430): one of the four digest engines of a port finishes the digest of an event that a RUN has taken. -/
def execDigestFinal (sp : SpId) (stream : Word32) (event : Word) (s : State) : Out := heldWait s fun s =>
  let mine := (s.io.digests.filter (fun g => g.sp == sp.val)).take 4
  .next (withSome (mine.find? (fun g => g.stream == stream.toNat && g.event == event)) s (fun g s =>
    let x : Accessor := { s.streamAgent g.sp g.part with req := some g.req }
    let s0 := s.modIo (fun o => { o with digests := o.digests.filter (fun y => !(y == g)) })
    match s0.agReadClean x g.dataVa g.dataLen with
    | (.error .memPoison, s1) => s1.poisonReq x.node g.req g.dataVa
    | (.error c, s1) => s1.endReq g.req c (BitVec.ofNat 64 g.dataVa) x.node
    | (.ok data, s1) =>
      let bytes := g.state ++ data
      s1.modReq g.req (fun r => { r with inputs := r.inputs ++ [⟨1, r.armIndex.getD 0, bytes.length, sha256 bytes⟩] })))

/-! ### FENCE and NOP -/

/-- Whether a descriptor of an armed RUN waits for an event. -/
def State.armedDesc (s : State) (d : Desc) : Bool := s.req.requests.any (fun r => r.desc == d.id && r.armed)

/-- A FENCE completes once every descriptor of its scope taken before it has completed (R487). -/
def State.fence (s : State) (d : Desc) : State :=
  let scope (x : Desc) : Bool := x.part == d.part && (decide (byteAt d.bytes 16 = 1) || x.sq == d.sq) && decide (x.id < d.id)
  if s.req.descs.any (fun x => scope x && !s.armedDesc x) then s else s.complete d .ok 0 0

/-- FENCE (R487). -/
def execFence (desc : Nat) (s : State) : Out := .next (s.withDesc desc 8 (fun _ => true) (fun d s => s.fence d) (fun d s => s.fence d))

/-- NOP (R489). -/
def execNop (desc : Nat) (s : State) : Out := .next (s.withDesc desc 10 (fun _ => true) (fun d s => s.complete d .ok 0 0) (fun _ s => s))

/-! ### CONFIG (R488) -/

/-- An entry of a PT_UPDATE; none where it is malformed. -/
def ptEntry (b : List Byte) (i : Nat) : Option PtEntry :=
  let a := fieldLe b (16 * i) 8
  let e := fieldLe b (16 * i + 8) 8
  let big := bitOf a 0
  let va := a / 2 * 2
  if va < 2 ^ 57 ∧ va % (if big then 0x200000 else 0x10000) = 0 ∧ (!bitOf e 63 || (!badPage e big && !isPointer e)) then some ⟨va, big, e⟩
  else none

/-- A change of a partition is applied, and its descriptor completes once every access translated before it has been performed (R239,
R241). -/
def State.applyChange (s : State) (h : HeldPt) : State :=
  let d := h.desc.bind (fun i => s.req.descs.find? (fun x => x.id == i))
  let gone := s.modMem (fun m => { m with held := m.held.filter (fun x => !(x == h)) })
  let ends (s : State) (c : Code) : State := withSome d s (fun d s => s.complete d c 0 0)
  match gone.changeTables h.part h.entries with
  | none => ends gone .cfgNoSpace
  | some s1 =>
    if s1.inFlight h.part h.entries && d.isSome then s1.modMem (fun m => { m with held := m.held ++ [{ h with applied := true }] })
    else ends s1 .ok

/-- PT_UPDATE (R488): its entries are checked and applied, or held (R240); an applied change completes once nothing uses the old
entries. -/
def execPtUpdate (desc : Nat) (s : State) : Out := heldWait s fun s =>
  .next (s.withDesc desc 9 (fun d => decide (byteAt d.bytes 16 = 1)) (fun d s =>
    let n := fieldLe d.bytes 32 4
    Job.orFail (s.jobRead (s.steward d.part .dma) (fieldLe d.bytes 24 8) (16 * n)) d (fun b s =>
      let es := (List.range n).map (ptEntry b)
      if es.any (·.isNone) then s.complete d .ghTableFormat 0 0
      else
        let h : HeldPt := ⟨some d.id, d.part, es.filterMap id, false⟩
        if s.behindHeld h.part h.entries || s.mustHold h.part h.entries then s.modMem (fun m => { m with held := m.held ++ [h] })
        else s.applyChange h))
    (fun d s => withSome (s.mem.held.find? (fun h => h.desc == some d.id && h.applied && !s.inFlight h.part h.entries)) s (fun h s =>
      (s.modMem (fun m => { m with held := m.held.filter (fun x => !(x == h)) })).complete d .ok 0 0)))

/-- The first held change that nothing holds any longer (R240). -/
def State.releasable (s : State) (p : Nat) : List HeldPt → List HeldPt → Option HeldPt
  | _, [] => none
  | before, h :: hs =>
    let blocked := before.any (fun b => b.entries.any (fun a => h.entries.any (fun c => rangesMeet a.range c.range)))
    if h.part == p && !h.applied then
      if !blocked && !s.mustHold p h.entries then some h else s.releasable p (before ++ [h]) hs
    else s.releasable p before hs

/-- HELD_PT_UPDATE_APPLY (R240): the last request that pinned a held change's pages has completed. -/
def execHeldPtUpdateApply (p : PartId) (s : State) : Out :=
  .next (withSome (s.releasable p [] s.mem.held) s (fun h s => s.applyChange h))

/-- SCHED_INSTALL (R345, R346): the checks; then the image takes effect in the first tick after them that is a multiple of 8, and the
descriptor completes after that tick. -/
def execSchedInstall (desc : Nat) (s : State) : Out := heldWait s fun s =>
  .next (s.withDesc desc 9 (fun d => decide (byteAt d.bytes 16 = 2)) (fun d s =>
    let x := s.steward d.part .dma
    match s.checkSched x (fieldLe d.bytes 24 8) with
    | (.error c, s1) => s1.completeFault d c (fieldLe d.bytes 24 8) x.node
    | (.ok c, s1) =>
      (s1.modNet (fun n => { n with scheds := n.scheds ++ [c] })).modReqs (fun k =>
        { k with descs := mapWhere (fun y => y.id == d.id) (fun y => { y with data := leBytes 1 c.srid }) k.descs }))
    (fun d s =>
      let ad := (s.admitDie d.part).getD 0
      withSome (s.findSched (leVal d.data)) s (fun c s =>
        let t := if c.active then c.phaseStart else roundUp 8 (c.phaseStart + 1) % 2 ^ 64
        whenB (s.reached ad t) s (fun s =>
          let s1 := s.modSched c.srid (fun c => { c with active := true, phaseStart := t })
          whenB (s.reached ad ((t + 1) % 2 ^ 64)) s1 (fun s => s.complete d .ok 0 0)))))

/-- A scheduled region is removed once no request of it runs (R346): its masks and patterns go, and the RUNs that wait for it end in the
order in which they would have launched. -/
def State.removeSched (s : State) (d : Desc) : State :=
  let id := byteAt d.bytes 17
  let names (r : Request) : Bool := r.part == d.part && r.srid == some id
  if s.req.requests.any (fun r => names r && r.running) then s
  else
    let s1 := s.modNet (fun n => { n with scheds := n.scheds.filter (fun c => !(c.srid == id)) })
    let s2 := (s1.req.requests.filter (fun r => names r && (r.armed || decide (r.step = .waitRegion)))).foldl (fun s r => s.endReq r.id .schedAbsent 0 0) s1
    s2.complete d .ok 0 0

/-- SCHED_REMOVE (R346). -/
def execSchedRemove (desc : Nat) (s : State) : Out :=
  .next (s.withDesc desc 9 (fun d => decide (byteAt d.bytes 16 = 3)) (fun d s =>
    let id := byteAt d.bytes 17
    match (s.findSched id).filter (fun c => c.part == d.part && c.active && !c.removing.isSome) with
    | none => s.complete d .schedAbsent 0 0
    | some _ => (s.modSched id (fun c => { c with removing := some d.id })).removeSched d)
    (fun d s => s.removeSched d))

/-- REG_WRITE (R488, R620): a register of BAR0 of the SQ's function; RESULT holds OFFSET. -/
def execRegWrite (desc : Nat) (s : State) : Out :=
  .next (s.withDesc desc 9 (fun d => decide (byteAt d.bytes 16 = 4)) (fun d s =>
    let off := fieldLe d.bytes 32 4
    let r : Option Code × State := if off % 8 ≠ 0 then (some .cfgDenied, s)
      else match s.barTarget d.port d.func off with
        | .reg k =>
          let w := s.regWrite d.port d.func k .full (fieldLe d.bytes 24 8)
          (w.1, match w.1 with
            | some c => w.2.showRefused k c
            | none => w.2)
        | _ => (some .cfgDenied, s)
    r.2.complete d (r.1.getD .ok) (BitVec.ofNat 64 off) 0)
    (fun _ s => s))

end Sys2Proof.Machine
end

