-- ==== Sys2Proof/Machine/Deliver.lean ====
section
/-! DEFINITION. What a block does with a packet that its router or a near link delivers (R298, R304, R317, R321). -/

namespace Sys2Proof.Machine

/-- Whether a node's block may take a packet (R317, R321): it serves, and no other partition owns it. -/
def State.foreignAt (s : State) (node : Nat) (p : Packet) : Bool :=
  match s.ownerOf node, p.part with
  | some q, some r => decide (q ≠ r)
  | _, _ => false

/-- A packet that is not delivered (R317, R321): a request is answered with NET_DEST_FENCED, any other packet is discarded; a packet for
another partition's block is logged. -/
def State.notDelivered (s : State) (node : Nat) (p : Packet) : State :=
  let s1 := if s.foreignAt node p then s.log (nodeDie node) node p.part .netDestFenced 0 0 else s
  let answer (y : Payload) : State := s1.send node (.node p.src) 2 1 p.part p.req y
  match p.payload with
  | .mem _ core tag => answer (.memAns (.fault Code.netDestFenced.val) core tag)
  | .cmd _ x => answer (.cmdFenced x p.id)
  | .line _ _ _ tag => answer (.lineAns tag (some Code.netDestFenced.val))
  | _ => s1

/-- The first router cycle in which a block that has received a packet may act on it: when its last flit has come, and no cycle before the
present tick. -/
def State.actFrom (s : State) (node c : Nat) : Nat :=
  let now := 8 * s.tickOf (nodeDie node)
  if cycleReached c now then c else now

/-- Router cycles that a target takes over an access (R314): of an HC, 200, and up to 1,200 with waits that the manual leaves to the HC and
its stack; of an eDRAM slice, 16 and what is left of a refresh. -/
def State.service (s : State) (a : Nat) : Nat × State :=
  match placeOf a with
  | .cmem .. => (8, s)
  | .tile .. => (4, s)
  | .edram ms off =>
    let now := 4 * s.tickOf (ms / 8)
    let fin := s.mem.edramBusy.get (32 * ms + off / 1024 % 32)
    (16 + (if now < fin ∧ fin - now < 64000 then 2 * (fin - now) else 0), s)
  | .hbm .. =>
    let (n, s1) := s.takeFree
    (200 + Config.freePick n % 1001, s1)
  | _ => (1, s)

/-- Words whose data a packet has brought with a poison mark take the poison syndrome (R315). -/
def State.poisonWords (s : State) (a n : Nat) : State :=
  s.modMem (fun m => { m with mem := { m.mem with marks := (wordsOf a n).foldl (fun k w => k.set w .poison) m.mem.marks } })

/-- A core's access is served at its home (R174, R219), or at a host port (R229, R466), which drops and counts a store while its link is
down (R467). A store whose data are poisoned writes poison; any other access that needs them is not performed (R315). -/
def State.serveMem (s : State) (node c : Nat) (p : Packet) (r : MemReq) (core tag : Nat) : State :=
  let at_ := s.actFrom node c
  let answer (s : State) (wait : Nat) (a : MemAns) : State :=
    s.sendAt node (.node p.src) 2 (if r.op = .fetch then 2 else 1) p.part p.req (.memAns a core tag) (at_ + wait)
  let n := 2 ^ r.log2
  match r.host with
  | none =>
    let v := s.service r.dpa
    let s1 := v.2.noteBusy (accessor (p.part.getD 0) p.src .core p.req) r.dpa
    if p.poison then
      (if r.op = .store then answer ((s1.poisonWords r.dpa n).breakResv r.dpa n) v.1 (.value 0) else answer s1 v.1 .poison)
    else
      let x := s1.performMem p.part r core
      answer x.2 v.1 x.1
  | some (port, f, a, ns, ro) =>
    if r.op = .store then answer (s.hostOut p.req port f a (leBytes n r.data.toNat) ns ro p.poison) 1 (.value 0)
    else if p.poison then answer s 1 .poison
    else if !(s.io.hps.get port).linkUp then answer s 1 (.fault Code.hpLinkDown.val)
    else s.hostRead port f a n (.core core tag)

/-- A block's line has come to its target (R293, R306, R315): it is answered after the target's service time. -/
def State.serveLine (s : State) (node c : Nat) (p : Packet) (write : Bool) (a n tag : Nat) : State :=
  let v := s.service a
  let s1 := if write && p.poison && decide (placeOf a ≠ .hole) then v.2.poisonWords a n else v.2
  s1.sendAt node (.node p.src) 2 (if write then 1 else dataFlits n) p.part p.req (.lineAns tag none) (s.actFrom node c + v.1)

/-- A block's line is answered (R316, R317): a code ends its request; poisoned data end it with MEM_POISON (R315); a walk reads on (R235). -/
def State.lineAnswer (s : State) (node : Nat) (tag : Nat) (code : Option Half) (poison : Bool) : State :=
  match s.net.waiting.find? (fun w => w.tag == tag) with
  | none => s
  | some w =>
    if code.isSome then s.awaitFails w .netDestFenced
    else
      let s1 := s.modNet (fun n => { n with waiting := n.waiting.filter (fun x => !(x.tag == tag)) })
      (if poison then withSome w.req s1 (fun r s => s.poisonReq node r 0) else s1).walkAnswer node tag

/-- An access that awaited its answer no longer does. -/
def State.answered (s : State) (tag : Nat) : State := s.modNet (fun n => { n with waiting := n.waiting.filter (fun w => !(w.tag == tag)) })

/-- A packet waits at its block: it lies in the block's queue of received packets. -/
def State.toInbox (s : State) (node : Nat) (p : Packet) : State :=
  s.modNet (fun n => { n with inbox := n.inbox.modify node (· ++ [p]) })

/-- A command reaches its target (R189, R315): it is taken; one that came poisoned ends with MEM_POISON. -/
def State.takeCmd (s : State) (node : Nat) (p : Packet) (k : CmdKind) (x : CmdRef) : State :=
  let s1 := s.send node (.node p.src) 2 1 p.part p.req (.cmdTaken p.id)
  if p.poison then (s1.poisonReq node x.req x.va).endCmd node x
  else if k = .sua then withSome (scAt node) s1 (fun sc s => s.suaArrive sc x)
  else s1.toInbox node p

/-- A poisoned packet that is no request and no answer (R315, R514): its content is lost; the request it belongs to ends. -/
def State.poisonedNotice (s : State) (node : Nat) (p : Packet) : State := withSome p.req s (fun r s => s.poisonReq node r 0)

/-- A block receives a packet whose last flit has come in a router cycle. -/
def State.receive (s : State) (node c : Nat) (p : Packet) : State :=
  match p.payload with
  | .mem r core tag => s.serveMem node c p r core tag
  | .memAns a core tag => s.memAnswer core tag (if p.poison then .poison else a)
  | .line w a n tag => s.serveLine node c p w a n tag
  | .lineAns tag code => s.lineAnswer node tag code p.poison
  | .beacon .. => s.modNet (fun n => { n with home := n.home.modify node (· ++ [p]), homeDue := n.homeDue.modify node (· ++ [c]) })
  | .beaconAns a (.core k) tag => s.coreAnswer k tag (if p.poison then .poison else a)
  | .beaconAns a (.notify k r) tag => s.notifyAnswer k r tag (if p.poison then .poison else a)
  | .beaconAns a (.sua k r) tag => s.barrierAnswer k r tag (if p.poison then .poison else a)
  | .beaconAns _ _ _ => s
  | .cmd k x => s.takeCmd node p k x
  | .cmdTaken tag => s.answered tag
  | .cmdFenced x tag => ((s.answered tag).endReq x.req .netDestFenced 0 0).cmdOver x
  | .posMap .. => s
  | .phase .. => s
  | .launchGo id t => s.goArrives (nodeDie node) p id t
  | .launchArmed id d => s.armedArrives id d
  | .completion d => s.entryArrives d
  | .cmdDone k => s.modCore k (fun k => { k with cmds := k.cmds - 1 })
  | .flip .. => if p.poison then s.poisonedNotice node p else s.toInbox node p
  | .dense m =>
    if p.poison then s.poisonedNotice node p
    else withSome (scAt node) s (fun sc s => s.modComp (fun c => { c with denseIn := c.denseIn.modify sc (· ++ [m]) }))
  | .event e =>
    if p.poison then s else s.modRas (fun r => { r with evtArrivals := r.evtArrivals.modify (nodeDie node) (· ++ [e]) })
  | .doorbell n =>
    if p.poison then s else s.modReqs (fun k => { k with
      notices := k.notices.modify (nodeDie node) (· ++ [⟨n.part, n.ring, n.cq, BitVec.ofNat 32 n.value.toNat, false⟩]) })
  | .eventNotice sp stream event slot => if p.poison then s else s.offerEvent sp stream event slot
  | .launch .. => if p.poison then s.poisonedNotice node p else s.toInbox node p

/-- A packet reaches a node's block, or its router where it is not delivered (R317, R321). -/
def State.deliver (s : State) (node c : Nat) (p : Packet) : State :=
  if s.blockUp node && !s.foreignAt node p then s.receive node c p else s.notDelivered node p

/-- Where in memory a packet is to be served, and how many bytes. -/
def Packet.served (p : Packet) : Option (Nat × Nat) :=
  match p.payload with
  | .mem r _ _ => if r.host.isSome then none else if r.op = .fetch then some (r.dpa / 64 * 64, 64) else some (r.dpa, 2 ^ r.log2)
  | .line _ a n _ => some (a, n)
  | _ => none

/-- Whether an access waits for a bank that a row command holds (R253). -/
def State.bankWaits (s : State) (p : Packet) : Bool := p.served.any (fun x => s.bankHeldAt x.1)

/-- The CMEM banks that a packet asks for at an SC (R299). -/
def Packet.banks (p : Packet) (sc : Nat) : Option (List Nat) :=
  p.served.bind (fun x => match placeOf x.1 with
    | .cmem k off => if k = sc then some (cmemBanks off x.2) else none
    | _ => none)

/-- A packet that comes to an SC through a contender's position asks for its banks, and is taken once it has them (R299, R305); another is
taken at once. -/
def State.throughBanks (s : State) (node pos : Nat) (p : Packet) (f : State → State) : State :=
  match (scAt node).bind (fun sc => (p.banks sc).map (fun bs => (sc, bs))) with
  | none => f s
  | some (sc, bs) =>
    let g := s.askBanks sc pos p.id bs
    if g.1 then f g.2 else g.2

/-- The first packet whose flits have all been ejected and that may be served, with the cycle of its last flit. -/
def State.ejected (s : State) (node : Nat) : Option (Packet × Nat) :=
  let l := s.net.eject.get node
  let of (p : Packet) : List BufFlit := l.filter (fun f => f.pkt.id == p.id)
  let whole (p : Packet) : Bool := decide ((of p).length = p.flits)
  let last (p : Packet) : Nat := ((of p).getLast?.map (·.entered)).getD 0
  ((l.map (·.pkt)).find? (fun p => whole p && s.cycleCome node (last p) && !s.bankWaits p)).map
    (fun p => ({ p with poison := (of p).any (·.pkt.poison) }, last p))

/-- PACKET_EJECT (R298): the ejection port delivers the next packet to its block. -/
def execPacketEject (node : NodeId) (s : State) : Out :=
  let n := node.toNat
  if !nodeValid n then .fault .noSuchNode
  else .next (withSome (s.ejected n) s (fun x s =>
    s.throughBanks n 9 x.1 (fun s =>
      (s.modNet (fun m => { m with eject := m.eject.modify n (fun l => l.filter (fun f => !(f.pkt.id == x.1.id))) })).deliver n x.2 x.1)))

/-- NEAR_LINK_PACKET (R304): the next packet of a near link that is due arrives at its SC. -/
def execNearLinkPacket (a b : ScId) (s : State) : Out :=
  let k := (a.val, b.val)
  let pos := if nodeY (scNode a) = nodeY (scNode b) then 10 else 11
  .next (withSome ((s.net.near.get k).find? (fun f => s.cycleCome (scNode b) f.due)) s (fun f s =>
    s.throughBanks (scNode b) pos f.pkt (fun s =>
      (s.modNet (fun m => { m with near := m.near.modify k (fun l => l.erase f) })).deliver (scNode b) f.due f.pkt)))

end Sys2Proof.Machine
end

