-- ==== Sys2Proof/Machine/Faults.lean ====
section
/-! DEFINITION. Commands of chapter Faults, Scrubbing and Degraded Service: fences (R517 to R522), Warden's heartbeat and the
reconciliation of unit states (R523, R588, R589), and the partition event rings (R528). -/

namespace Sys2Proof.Machine

/-- Whether a cause of R517 may strike a unit: its kind, and, for UE_LIMIT, its count. -/
def State.mayFence (s : State) (d u : Nat) (cause : Half) : Bool :=
  let lim := s.appF .rasScrubctl d 0 0 63 56
  (decide (cause = Code.ueLimit.val) && decide (lim ≠ 0) && decide (lim ≤ (s.unitRec d u).ue))
    || (decide (cause = Code.zcgKatFail.val) && decide (u < 16))
    || (decide (cause = Code.unitInternal.val) && decide (u < 32))
    || (decide (cause = Code.hbmTrainFail.val) && decide (28 ≤ u) && decide (u < 32))
    || (decide (cause = Code.linkDown.val) && decide (32 ≤ u))

/-- UNIT_FENCED (R517, R518): a cause strikes a unit in service. -/
def execUnitFenced (d : DieId) (u : UnitNo) (cause : Half) (s : State) : Out :=
  .next (whenB (s.mayFence d u cause && decide ((s.unitRec d u).st = .inService) && (s.sys.clk.get d).supplied) s
    (fun s => s.fenceUnit d u cause))

/-- Of two counts modulo `m`, whether the first is the later, less than half of `m` ahead (R588). -/
def laterThan (m a b : Nat) : Bool :=
  let k := (a + m - b % m) % m
  decide (0 < k) && decide (k < m / 2)

/-- Whether a report governs another (R588): the later RESETS, and under equal RESETS the higher GEN. -/
def UnitReport.governs (a b : UnitReport) : Bool :=
  if a.resets % 256 = b.resets % 256 then laterThan 65536 a.gen.toNat b.gen.toNat else laterThan 256 a.resets b.resets

/-- A report as STATE_SPLIT packs it: STATE, ORIGIN, GEN, RESETS (assumption log 7). -/
def UnitReport.word (r : UnitReport) : Nat := r.st.code + 4 * r.origin + 16 * r.gen.toNat + 2 ^ 20 * (r.resets % 256)

/-- The CTL-N compares Warden's cached report of a unit with its own (R589). -/
def State.reconcile (s : State) (d u : Nat) : State :=
  let mine := s.unitReport d u
  match s.sys.warden.cache.get (unitKey d u) with
  | none => if mine.st = .fused then s else s.notice d u
  | some w =>
    if mine.st = .fused then s
    else if mine.governs w then s.notice d u
    else if w.governs mine then
      let s1 := s.modUnit d u (fun r => { r with st := w.st, gen := w.gen, origin := decide (w.origin = 1) })
      if decide (mine.st = .inService) && decide (w.st ≠ .inService) then s1.outOfService d u else s1
    else if decide (mine.st ≠ w.st) || decide (mine.origin ≠ w.origin) then
      let s1 := s.modUnit d u (fun r => { r with st := .fenced, gen := r.gen + 1, cause := Code.stateSplit.val, origin := false })
      let s2 := (s1.log d (unitNode d u) none .stateSplit mine.word w.word).notice d u
      if mine.st = .inService then s2.outOfService d u else s2
    else s

/-- WARDEN_HEARTBEAT (R523, R567, R582, R589): Warden's heartbeat reaches a die with core supply; a ready die compares the
unit states that come with it. -/
def execWardenHeartbeat (d : DieId) (s : State) : Out :=
  .next (whenB (s.sys.warden.running && (s.sys.clk.get d).supplied) s (fun s =>
    let s1 := s.modRas (fun r => { r with heartbeat := r.heartbeat.set d (s.tickOf d), wardenLost := r.wardenLost.set d false })
    if s.dieUp d then eachOf (List.range 35) (fun u s => s.reconcile d u) s1 else s1))

/-- WARDEN_LOST (R523, R524): no heartbeat has reached a die for 2^28 ticks. -/
def execWardenLost (d : DieId) (s : State) : Out :=
  .next (whenB (s.dieUp d && !s.ras.wardenLost.get d && decide (2 ^ 28 ≤ s.since d (s.ras.heartbeat.get d))) s (fun s =>
    ((s.modRas (fun r => { r with wardenLost := r.wardenLost.set d true })).log d (ctlNode d) none .wardenLost 0 0).judgeService))

/-- An event record goes into its partition's ring on a die (R528), which writes records while EN is 1. A record whose write
fails is lost, and WRITE does not advance. -/
def State.writeEvent (s : State) (d p : Nat) (e : EventRec) : State :=
  let ctl : RegKey := ⟨.rasEvtctl, d, p, 0⟩
  let idx : RegKey := ⟨.rasEvtidx, d, p, 0⟩
  let w := s.appWord ctl
  let n := 2 ^ bitsOf w 4 0
  let wr := bitsOf (s.appWord idx) 63 32
  let lost := s.ras.evtLost.get (16 * d + p)
  if !bitOf w 63 then s
  else if (wr + 2 ^ 32 - bitsOf (s.appWord idx) 31 0) % 2 ^ 32 = n then
    (s.hwCount ctl 47 32).modRas (fun r => { r with evtLost := r.evtLost.set (16 * d + p) true })
  else
    let va := s.appF .rasEvtbase d p 0 56 12 * 4096 + 32 * (wr % n)
    let bytes := ({ e with lost := lost } : EventRec).bytes (decide (wr / n % 2 = 0))
    match s.agWriteCode (accessor p (ctlNode d) .dma none) va bytes with
    | (none, s1) =>
      (s1.hwSet idx 63 32 ((wr + 1) % 2 ^ 32)).modRas (fun r => { r with evtLost := r.evtLost.set (16 * d + p) false })
    | (some _, s1) => s1

/-- PARTITION_EVENT_WRITE (R525, R528): the oldest event that has reached a die for a partition is written there; only the
registers of the partition's admitting die are used. -/
def execPartitionEventWrite (d : DieId) (s : State) : Out := heldWait s fun s =>
  .next (withSome (s.ras.evtArrivals.get d).head? s (fun e s =>
    let s1 := s.modRas (fun r => { r with evtArrivals := r.evtArrivals.modify d (·.drop 1) })
    withSome e.part s1 (fun p s => if s.admitDie p = some d.val then s.writeEvent d p e else s)))

end Sys2Proof.Machine
end

