-- ==== Sys2Proof/Machine/DieReset.lean ====
section
/-! DEFINITION. Resets of dies and of the tray (R581, R583, R604, R608), clearing of units (R547, R597, R598), and what a partition reset
stops (R609). -/

namespace Sys2Proof.Machine

/-! ### Clearing -/

/-- The Beacon cells and barrier counters of the nodes that satisfy `p` are cleared (R547, R598). -/
def State.clearCells (s : State) (p : Nat → Bool) : State :=
  s.modNet (fun n => { n with cells := n.cells.forget (fun k => p k.1), counters := n.counters.forget (fun k => p k.1) })

/-- Zero data with valid check bits over all memories of a unit but system memory (R547, R598): of an SC its CMEM, CST, slot states,
field registers and dense shadows, of a TE its tile memory with the exact store, of an MS its eDRAM, of an HC its stack; and the cells
and counters of its router. -/
def State.clearUnit (s : State) (d u : Nat) : State :=
  let s1 := s.modMem (fun m => { m with mem := m.mem.clear (fun a => inUnit d u a && (sysDie a).isNone) })
  let s2 := if u < 16 then
      (s1.modSua (16 * d + u) (fun k => { k with states := .const false, fields := .const 0, shadows := .const 0, ue := false })).dropSites
        (fun sc => sc == 16 * d + u)
    else s1
  s2.clearCells (fun n => n == unitNode d u)

/-- UNIT_CLEAR (R547): Steward clears a dirty unit or 2 MiB frame. -/
def execUnitClear (d : DieId) (t : ClearTarget) (s : State) : Out :=
  let c := s.sys.sec.get d
  .next (match t with
    | .unit u => whenB (c.dirtyUnits.contains u.val && s.dieUp d) s (fun s =>
        (s.clearUnit d u).modSec d (fun c => { c with dirtyUnits := c.dirtyUnits.filter (fun x => x != u.val) }))
    | .frame f => whenB (c.dirtyFrames.contains f && s.dieUp d) s (fun s =>
        (s.modMem (fun m => { m with mem := m.mem.clear (fun a => decide (a < 2 ^ 40) && decide (a / 0x200000 = f)) })).modSec d
          (fun c => { c with dirtyFrames := c.dirtyFrames.filter (fun x => x != f) })))

/-! ### A die's own state -/

/-- The registers that a DIE reset of die `d` resets (R581): those of its window, but GLB_LOCKMAP (R210). -/
def dieReg (d : Nat) (k : RegKey) : Bool := !k.name.ofPartition && !k.name.ofTray && decide (k.name ≠ .glbLockmap) && k.a == d

/-- The network state of the nodes of a die returns to reset, and packets in its routers and blocks are gone. -/
def Net.wipe (n : Net) (d : Nat) : Net :=
  let at_ (x : Nat) : Bool := nodeDie x == d
  { n with
    inject := n.inject.forget at_, bufs := n.bufs.forget (fun k => at_ k.node), injPos := n.injPos.forget at_
    homeDue := n.homeDue.forget at_, beaconNext := n.beaconNext.forget at_, watchNext := n.watchNext.forget at_
    past := n.past.forget (fun k => at_ k.1), nearPos := n.nearPos.forget (fun k => k.1 / 16 == d)
    bankWaits := n.bankWaits.filter (fun w => !(w.sc / 16 == d)), bankUsed := n.bankUsed.forget (fun k => k / 256 == d)
    windowAt := n.windowAt.forget (· == d), winSent := n.winSent.forget (fun k => at_ k.1), freed := n.freed.forget (fun k => at_ k.node)
    schedBufs := n.schedBufs.forget (fun k => at_ k.1), cross := n.cross.forget (fun k => at_ k.1), ports := n.ports.forget (fun k => at_ k.1)
    phases := n.phases.forget (fun k => at_ k.1), eject := n.eject.forget at_, home := n.home.forget at_
    near := n.near.forget (fun k => k.1 / 16 == d), inbox := n.inbox.forget at_
    cells := n.cells.forget (fun k => at_ k.1), counters := n.counters.forget (fun k => at_ k.1)
    watches := n.watches.forget (fun k => at_ k.1), answersDue := n.answersDue.forget at_
    fromSpent := n.fromSpent.forget (fun k => k.2 / 16 == d), toSpent := n.toSpent.forget (fun k => k.2.1 / 16 == d)
    linkCe := n.linkCe.forget at_
    waiting := n.waiting.filter (fun w => decide (w.agent = .none) || !(w.die == d)) }

/-- The counts of a die's ends of its links start again (R372). -/
def LinkSys.wipe (l : LinkSys) (d : Nat) : LinkSys :=
  { l with links := ([0, 1, 2, 3].filter (· != d)).foldl (fun t e => t.modify (linkKey d e) (fun x =>
      if d < e then { x with replays := 0, degrades := 0 } else { x with replaysHi := 0, degradesHi := 0 })) l.links }

/-- The compute blocks of a die return to reset; its locks keep their contents (R206). -/
def Compute.wipe (k : Compute) (d : Nat) : Compute :=
  { k with
    suas := k.suas.forget (fun x => x / 16 == d), denseIn := k.denseIn.forget (fun x => x / 16 == d)
    spindles := k.spindles.forget (fun x => x / 2 == d), tes := k.tes.forget (fun x => x / 4 == d)
    rlus := k.rlus.forget (fun x => x / 8 == d), copies := k.copies.forget (fun x => x / 8 == d)
    cores := k.cores.forget (fun x => x / 128 == d) }

/-- The translation and refresh state of a die returns to reset; its memories keep what they hold until D7 (R549, R598). -/
def MemSys.wipe (m : MemSys) (d : Nat) : MemSys :=
  { m with
    nodes := m.nodes.forget (fun x => nodeDie x == d), edramNext := m.edramNext.forget (fun x => x / 256 == d)
    edramBusy := m.edramBusy.forget (fun x => x / 256 == d), hbmNext := m.hbmNext.forget (fun x => x / 128 == d)
    hbmBusy := m.hbmBusy.forget (fun x => x / 4 == d), hbmParity := m.hbmParity.forget (fun x => x / 128 == d)
    hbmSev := m.hbmSev.forget (fun x => x / 128 == d)
    parked := m.parked.filter (fun q => !(q.die == some d)) }

/-- The fault state of a die returns to reset (R519): counts 0, generations 0. Its tray log lies in system memory and is kept
(R530, R549). -/
def Ras.wipe (r : Ras) (d : Nat) : Ras :=
  { r with
    units := r.units.forget (fun k => k / 64 == d), scrubs := r.scrubs.forget (fun k => k / 128 == d)
    corrections := r.corrections.filter (fun c => !c.words.any (fun w => (addrUnit w).any (fun x => x.1 == d)))
    evtArrivals := r.evtArrivals.forget (fun x => x == d), evtLost := r.evtLost.forget (fun k => k / 16 == d)
    dieFenced := r.dieFenced.set d false, heartbeat := r.heartbeat.set d 0, wardenLost := r.wardenLost.set d false }

/-- Bindings of a die's stream ports are gone: armed RUNs that wait on them end with STR_UNBOUND, as for an unbound stream (R419). -/
def State.dropBindings (s : State) (d : Nat) : State :=
  let mine (b : Binding) : Bool := b.sp / 2 == d
  let s1 := (s.io.bindings.filter mine).foldl (fun s b => b.armed.foldl (fun s r => s.endReq r .strUnbound 0 0) s) s
  s1.modIo (fun o => { o with bindings := o.bindings.filter (fun b => !mine b), digests := o.digests.filter (fun g => !(g.sp / 2 == d)) })

/-- Page tables of a die whose registers have been reset (R607): a partition with no copy left has no tables. -/
def State.dropTables (s : State) : State :=
  s.modMem (fun m => { m with
    tables := m.tables.filter (fun t => !(s.tableDies t.part).isEmpty), boot := m.boot.forget (fun p => (s.tableDies p).isEmpty) })

/-- Everything of a die but its memories, locks and fuses returns to reset; its core supply is as given. -/
def State.wipeDie (s : State) (d : Nat) (supply : Bool) : State :=
  let p := s.sys.power.get d
  let s1 : State :=
    { s with
      net := s.net.wipe d, link := s.link.wipe d, comp := s.comp.wipe d, mem := s.mem.wipe d, ras := s.ras.wipe d
      sys := { s.sys with
        clk := s.sys.clk.set d { DieClk.reset with supplied := supply, resets := (s.sys.clk.get d).resets }
        sec := s.sys.sec.set d DieSec.reset, spdm := s.sys.spdm.set d SpdmSt.reset
        power := s.sys.power.set d { DiePower.reset with tj := p.tj, tripped := p.tripped && !supply }
        warden := { s.sys.warden with capW := s.sys.warden.capW.set d 560, testing := s.sys.warden.testing.filter (fun t => !(t.1 / 64 == d)) } } }
  let s2 := (s1.dropRegs (dieReg d)).dropTables
  s2.modIo (fun o => { o with
    sps := o.sps.forget (fun x => x / 2 == d), ptp := o.ptp.forget (fun x => x == d)
    hps := o.hps.set d { Hp.reset with perst := (o.hps.get d).perst } })

/-- Held locks that a die's reset strikes (R205, R206): those of its table and those that its cores own. -/
def State.resetLocks (s : State) (d : Nat) : State := s.breakLocks (fun i l => i / 256 == d || l.core / 128 == d) 6

/-- A DIE reset starts (R583, R604, R608): its held locks break, the other dies treat it as fenced, its host link goes down and its
enabled functions count as having received an FLR, and its state returns to reset. D1 follows. -/
def State.resetDie (s : State) (d : Nat) : State :=
  let s1 := (s.resetLocks d).loseSteward d
  let s2 := s1.endReqs (fun r => r.dies.contains d) .unitFenced
  let s3 := s2.breakScheds (fun c => c.ports.any (fun q => nodeDie q.node == d))
  let s4 := eachOf ((List.range 4).filter (fun e => decide (e ≠ d) && s.linkUp d e)) (fun e s => s.linkGoesDown d e) s3
  let s5 := (s4.dropWaits d).dropBindings d
  let s6 := if (s5.io.hps.get d).linkUp then s5.hostLinkDown d else s5
  let s7 := eachOf ((List.range 16).filter (fun f => (s6.funcPart d f).isSome)) (fun f s => s.resetFunction d f) s6
  ((s7.dropSites (fun sc => sc / 16 == d)).wipeDie d true).modReqs (fun r => { r with notices := r.notices.set d [] })

/-- The next waiting die reset begins once no reset runs (R608): every die is ready, fenced or without supply. -/
def State.nextReset (s : State) : State :=
  match s.sys.warden.resetQueue with
  | [] => s
  | d :: ds =>
    if s.judged then
      let s1 : State := { s with sys := { s.sys with trayBring := false, warden := { s.sys.warden with resetQueue := ds } } }
      s1.resetDie d
    else s

/-- A TRAY reset (R581, R593): the core supply of all four dies is removed and applied to all together, and every die starts at D1,
but for one that tripped and is still hot (R576), and for all while the input is out of range or a coolant condition lasts (R578, R580);
those stay without supply and fenced. Lock tables and GLB_LOCKMAP are kept; locks that were held break (R206). Warden keeps
its state; waiting die resets are replaced (R608). -/
def State.trayReset (s : State) : State :=
  let hot (d : Nat) : Bool := ((s.sys.power.get d).tripped && decide (950 ≤ (s.sys.power.get d).tj)) || s.sys.warden.coolantBad || !s.sys.warden.inputOk
  let s1 := eachOf [0, 1, 2, 3] (fun d s => s.resetLocks d) s
  let s2 := eachOf [0, 1, 2, 3] (fun d s => s.wipeDie d (!hot d)) s1
  let s3 := s2.dropRegs (fun k => decide (k.name ≠ .glbLockmap))
  let s4 : State := { s3 with
    req := ReqSys.reset, net := Net.reset, link := LinkSys.reset
    mem := { s3.mem with held := [], tables := [], boot := .const none }
    comp := { s3.comp with models := [] }
    io := { s3.io with bindings := [], digests := [] }
    ras := { s3.ras with noService := false }
    sys := { s3.sys with trayBring := true, refDie := none, warden := { s3.sys.warden with resetQueue := [] } } }
  eachOf ([0, 1, 2, 3].filter hot) (fun d s => s.fenceDie d) s4

/-! ### Partitions -/

/-- A request is taken out of the machine with no completion entry and no trail record (R609). -/
def State.killReq (s : State) (r : Request) : State :=
  let mine (x : CmdRef) : Bool := x.req == r.id
  let s1 := s.breakLocks (fun _ l => r.ownsLock l) 1
  let s2 := (((s1.unpin r.id).releaseSuas r.id).freeSched r.id).dropCmds r.id
  let s3 := (r.cores.filter (fun c => decide ((s2.comp.cores.get c).req = some r.id))).foldl State.haltCore s2
  let s4 := s3.modComp (fun k => { k with
    tes := k.tes.mapAll (fun t => { t with cur := t.cur.filter (fun x => !mine x.cmd) })
    rlus := k.rlus.mapAll (fun t => { t with running := t.running.filter (fun x => !mine x.cmd), ending := t.ending.filter (fun x => !mine x.cmd) })
    copies := k.copies.mapAll (fun t => { t with cur := t.cur.filter (fun x => !mine x.cmd) }) })
  let s5 := s4.modIo (fun o => { o with
    bindings := o.bindings.map (fun b => { b with armed := b.armed.filter (fun i => i != r.id) })
    digests := o.digests.filter (fun g => !(g.req == r.id)) })
  let s6 := s5.modNet (fun n => { n with waiting := n.waiting.filter (fun w => decide (w.req ≠ some r.id)) })
  s6.modReqs (fun k => { k with requests := k.requests.filter (fun q => !(q.id == r.id)), descs := k.descs.filter (fun d => !(d.id == r.desc)) })

/-- The registers of the PARTITION domain (R581). -/
def partReg (p : Nat) (k : RegKey) : Bool :=
  decide (k.part = some p) && (match k.name with
    | .ringSqctl | .ringSqbase | .ringSqdb | .ringSqidx | .ringCqctl | .ringCqbase | .ringCqdb | .ringCqidx | .ringCqcoal
    | .detTrailbase | .detTrailctl | .detTrailidx | .rasEvtbase | .rasEvtctl | .rasEvtidx | .memOobdrop | .glbPartreset => true
    | _ => false)

/-- A PARTITION reset (R609): its running requests and armed RUNs stop, descriptors that go on make no entry, held locks of its cores
break with CAUSE 1, its rings are gone with what they held, and its registers, cells and counters are reset. -/
def State.resetPartition (s : State) (p : Nat) : State :=
  let s1 := (s.req.requests.filter (fun r => r.part == p)).foldl (fun s r => s.killReq r) s
  let s2 := s1.breakLocks (fun _ l => l.part == p) 1
  let s3 := (List.range 128).foldl (fun s k => s.dropRing p (decide (64 ≤ k)) (k % 64)) s2
  let s4 := s3.modReqs (fun k => { k with
    notices := k.notices.mapAll (fun l => l.filter (fun n => n.part != p))
    descs := (mapWhere (fun d => d.part == p) (fun d => { d with orphan := true }) k.descs).filter (fun d => d.part != p || d.started)
    due := k.due.filter (fun e => e.part != p)
    rings := k.rings.forget (fun x => x / 128 == p) })
  let notice (q : Parked) : Bool := match q with
    | .notice part .. => part == p
    | _ => false
  let s5 := ((s4.dropRegs (partReg p)).clearCells (fun n => s.inRegion p n)).modMem (fun m => { m with parked := m.parked.filter (fun q => !notice q) })
  s5.modRas (fun r => { r with
    evtArrivals := r.evtArrivals.mapAll (fun l => l.filter (fun e => decide (e.part ≠ some p)))
    evtLost := r.evtLost.forget (fun k => k % 16 == p) })

end Sys2Proof.Machine
end

