-- ==== Sys2Proof/Machine/Identity.lean ====
section
/-! DEFINITION. Identity, attestation and life cycle: the generator (R536, R537), images (R538 to R542), SPDM responders (R543 to R545),
transitions and the fuse journal (R550 to R559), raw capture and debug unlock (R560, R561). -/

namespace Sys2Proof.Machine

/-! ### The security engine's generator -/

/-- What a generate call meets: a generator that refuses, a reseed that waits for Spindle bytes, or 48 bytes. -/
inductive GenRes where
  | busy | wait
  | bytes (bs : List Byte)
deriving DecidableEq, Repr

/-- One generate call of a die's CTR_DRBG (R536): after 2^16 calls it is reseeded first; a reseed that finds no Spindle in RUN is retried
at the next call; after 2^20 calls without one it refuses. -/
def State.generate (s : State) (d : Nat) : GenRes × State :=
  let g := (s.sys.sec.get d).drbg
  let give (g : Drbg) (s : State) : GenRes × State :=
    (.bytes ((List.range 48).map (fun i => Config.drbgByte g.seed g.calls i)),
     s.modSec d (fun c => { c with drbg := { g with calls := g.calls + 1 } }))
  if g.inst && decide (g.calls < 2 ^ 16) then give g s
  else match s.draw d 48 with
    | (.bytes b, s1) => give ⟨true, (if g.inst then g.seed else []) ++ b, 0⟩ s1
    | (.wait, _) => (.wait, s)
    | (.none, _) => if g.inst && decide (g.calls < 2 ^ 20) then give g s else (.busy, s)

/-- `n` generate calls of a responder: a die's generator; Warden's secure element gives bytes of its own. -/
def State.generates (s : State) (who : Nat) : Nat → GenRes × State
  | 0 => (.bytes [], s)
  | n + 1 =>
    let one : GenRes × State := if who < 4 then s.generate who else let b := s.openBytes 48; (.bytes b.1, b.2)
    match one with
    | (.bytes b, s1) =>
      match s1.generates who n with
      | (.bytes c, s2) => (.bytes (b ++ c), s2)
      | r => r
    | r => r

/-! ### Images -/

/-- The SVN of an image's header (R538). -/
def imageSvn (b : List Byte) : Nat := fieldLe b 5 1

/-- The key slot of an image's header (R538). -/
def imageSlot (b : List Byte) : Nat := fieldLe b 6 1

/-- The measurement of an image (R542). -/
def imageDigest (b : List Byte) : List Byte := sha384 (b.take 288)

/-- Whether the form of an image and its signature are right (R538, R539); `kind` none accepts any KIND. -/
def State.imageSigned (s : State) (kind : Option Nat) (b : List Byte) : Bool :=
  let key := sha384 (sliceB b 160 97)
  decide (384 ≤ b.length) && decide (fieldLe b 0 4 = 0x5A494D31) && kind.all (fun k => fieldLe b 4 1 == k)
    && (sliceB b 7 1 ++ sliceB b 80 80 ++ sliceB b 257 31).all (fun x => x == 0)
    && decide (imageSlot b < 4) && decide (key = s.sys.fuses.keyDigests.get (imageSlot b))
    && decide (384 + fieldLe b 8 8 ≤ b.length) && decide (sha384 (sliceB b 384 (fieldLe b 8 8)) = sliceB b 16 48)
    && Config.ecdsaVerify key (imageDigest b) (sliceB b 288 96)

/-- Whether a die accepts an image of a kind (R539): its key slot is not revoked there and its SVN is at least the die's. -/
def State.imageOk (s : State) (d kind : Nat) (b : List Byte) : Bool :=
  s.imageSigned (some kind) b && !bitOf (s.sys.fuses.revoked.get d) (imageSlot b) && decide (s.sys.fuses.svn.get d ≤ imageSvn b)

/-- Key of an image that Warden keeps: kind, and 0 copy A, 1 copy B, 2 staging (R583, R584). -/
def imageKey (k : ImageKind) (copy : Nat) : Nat :=
  3 * (match k with | .steward => 0 | .runtime => 1 | .wardenFw => 2) + copy

/-- The image that a die takes of a kind: copy A, then copy B (R539). -/
def State.bootImage (s : State) (d : Nat) (k : ImageKind) : Option RunImage :=
  let kind := match k with | .steward => 1 | _ => 2
  ([0, 1].find? (fun c => s.imageOk d kind (s.sys.warden.images.get (imageKey k c)))).map (fun c =>
    let b := s.sys.warden.images.get (imageKey k c)
    ⟨imageSvn b, imageSlot b, c, imageDigest b⟩)

/-- KEY_REVOKE (R541): a request on the management path blows a slot's revocation fuse on a die; the slot that signed a running image is
refused with LC_DENIED. -/
def execKeyRevoke (d : DieId) (slot : Fin 4) (s : State) : Out :=
  let c := s.sys.sec.get d
  let used (o : Option RunImage) : Bool := o.any (fun i => i.key == slot.val)
  .next (whenB (s.sys.warden.running && (s.sys.clk.get d).supplied) s (fun s =>
    if used c.steward || used c.runtime then s.emit (.mgmt 4 Code.lcDenied.val.toNat [])
    else (s.modFuses (fun f => { f with revoked := f.revoked.modify d (fun m => m ||| 2 ^ slot.val) })).emit (.mgmt 4 0 [])))

/-! ### The journal -/

/-- Key of a slot in a bank (0 A, 1 B). -/
def slotKey (bank k : Nat) : Nat := 32 * bank + k

/-- Whether a slot is blank in a bank. -/
def Warden.blank (w : Warden) (bank k : Nat) : Bool :=
  let j := w.journal.get (slotKey bank k)
  decide (j.trans = 0) && decide (j.commit = 0)

/-- Whether a slot is committed in a bank (R556). -/
def Warden.committedIn (w : Warden) (bank k : Nat) : Bool :=
  let j := w.journal.get (slotKey bank k)
  decide (j.commit = ~~~j.trans)

/-- The transition word of a committed slot. -/
def Warden.slotWord (w : Warden) (k : Nat) : Option Nat :=
  if w.committedIn 0 k then some (w.journal.get (slotKey 0 k)).trans.toNat
  else if w.committedIn 1 k then some (w.journal.get (slotKey 1 k)).trans.toNat
  else none

/-- The state of a code (R550). -/
def lcOf : Nat → LcState
  | 0 => .raw
  | 1 => .provisioned
  | 2 => .deployed
  | 3 => .diagnostic
  | 4 => .returned
  | _ => .retired

/-- The journal read in ascending order (R556): the state it gives, the state before the last entry into DIAGNOSTIC, and the torn slots. -/
def Warden.readJournal (w : Warden) : LcState × LcState × List Nat :=
  (List.range 32).foldl (fun acc k =>
    let (st, from_, torn) := acc
    match w.slotWord k with
    | some t =>
      if bitsOf t 39 36 = lcCode st then
        let to_ := lcOf (bitsOf t 35 32)
        (to_, (if to_ = .diagnostic then st else from_), torn)
      else (st, from_, torn ++ [k])
    | none => if w.blank 0 k && w.blank 1 k then acc else (st, from_, torn ++ [k])) (.raw, .raw, [])

/-- Slots that are not blank in both banks. -/
def Warden.slotsUsed (w : Warden) : List Nat := (List.range 32).filter (fun k => !(w.blank 0 k && w.blank 1 k))

/-- The transition word of R554. -/
def transWord (k : Nat) (from_ to_ : LcState) (byToken : Bool) : Word :=
  BitVec.ofNat 64 (0x4C43 * 2 ^ 48 + k * 2 ^ 40 + lcCode from_ * 2 ^ 36 + lcCode to_ * 2 ^ 32 + b2n byToken * 2 ^ 24)

/-- A transition recorded in a slot of both banks, with its commit (R555). -/
def Warden.record (w : Warden) (k : Nat) (from_ to_ : LcState) (byToken : Bool) : Warden :=
  let t := transWord k from_ to_ byToken
  { w with journal := (w.journal.set (slotKey 0 k) ⟨t, ~~~t⟩).set (slotKey 1 k) ⟨t, ~~~t⟩, lc := to_ }

/-- A transition word that does not verify, or that input power leaves unfinished: the slot is spent without a commit (R555, R556, R559). -/
def Warden.spoil (w : Warden) (k : Nat) (t a b : Word) : Warden :=
  { w with journal := (w.journal.set (slotKey 0 k) ⟨t &&& a, 0⟩).set (slotKey 1 k) ⟨t &&& b, 0⟩ }

/-- Identity destruction (R558): every fuse of each die's UDS block is blown, and the tray key is zeroised. -/
def State.destroyIdentity (s : State) : State :=
  let ones : List Byte := List.replicate 48 0xFF
  (s.modFuses (fun f => { f with uds := .const (some (ones, ones)) })).modWarden (fun w => { w with trayKey := false })

/-- Whether the destruction of RETIRED has not finished (R558). -/
def State.identityLeft (s : State) : Bool :=
  s.sys.warden.trayKey || [0, 1, 2, 3].any (fun d => match s.sys.fuses.uds.get d with
    | some (data, chk) => decide (chk = sha384 data)
    | none => true)

/-- What precedes a RAW tray's provisioning (R533, R535, R553): each die whose UDS block is blank generates its UDS and programs it with
its check word, and Warden generates the tray key. A die whose generator gives nothing keeps a blank block. -/
def State.provision (s : State) : State :=
  (eachOf [0, 1, 2, 3] (fun d s =>
    if (s.sys.fuses.uds.get d).isSome then s
    else match s.generate d with
      | (.bytes b, s1) => s1.modFuses (fun f => { f with uds := f.uds.set d (some (b, sha384 b)) })
      | _ => s) s).modWarden (fun w => { w with trayKey := true })

/-! ### Requests (R551 to R553, R561) -/

/-- A token's fields and signature match a request (R553): its kind, target and die, the tray's serial, the last nonce. -/
def State.tokenOk (s : State) (t : Token) (kind target die : Nat) : Bool :=
  decide (t.length = 168) && decide (fieldLe t 0 4 = 0x4C435431) && decide (fieldLe t 4 1 = kind) && decide (fieldLe t 5 1 = target)
    && decide (fieldLe t 6 1 = die) && decide (sliceB t 8 16 = s.sys.fuses.traySerial)
    && decide (s.sys.warden.nonce = some (sliceB t 24 48))
    && Config.ecdsaVerify s.sys.fuses.authDigest (sha384 (t.take 72)) (sliceB t 72 96)

/-- An answer of Warden on the management path: code and response fields. -/
def State.reply (s : State) (c : Code) (bs : List Byte) : State := s.emit (.mgmt 4 c.val.toNat bs)

/-- NONCE_REQUEST (R553): Warden issues a nonce, in a secured session (R552). -/
def execNonceRequest (session : Bool) (s : State) : Out :=
  .next (whenB s.sys.warden.running s (fun s =>
    if !session then s.reply .lcDenied []
    else
      let b := s.openBytes 48
      (b.2.modWarden (fun w => { w with nonce := some b.1 })).reply .ok b.1))

/-- The transitions of R551: none where there is none, else whether it needs a token; `from_` is the state before the committed entry into
DIAGNOSTIC. -/
def transition (st from_ to_ : LcState) : Option Bool :=
  match st, to_ with
  | .retired, _ => none
  | _, .retired => some false
  | .raw, .provisioned => some true
  | .provisioned, .deployed => some true
  | .deployed, .diagnostic => some true
  | .returned, .diagnostic => some true
  | .diagnostic, .deployed => if from_ = .deployed then some false else none
  | .deployed, .returned => some false
  | .diagnostic, .returned => some false
  | _, _ => none

/-- The free slots that R559 asks for: two blank slots in each bank, or one for a transition to RETIRED. -/
def Warden.slotFor (w : Warden) (to_ : LcState) : Option Nat :=
  let left (bank : Nat) : Nat := ((List.range 32).filter (fun k => w.blank bank k)).length
  if decide (to_ ≠ .retired) && (decide (left 0 ≤ 1) || decide (left 1 ≤ 1)) then none
  else (List.range 32).find? (fun k => w.blank 0 k && w.blank 1 k)

/-- A transition that Warden allows: recorded, committed, and completed (R555, R558); where its word does not verify, it is refused. -/
def State.transit (s : State) (k : Nat) (to_ : LcState) (byToken : Bool) (run : FuseRun) : State :=
  let st := s.sys.warden.lc
  let s1 := if to_ = .provisioned then s.provision else s
  match run with
  | .torn a b => (s1.modWarden (fun w => w.spoil k (transWord k st to_ byToken) a b)).reply .lcDenied []
  | .verified =>
  let s2 := (s1.modWarden (fun w => w.record k st to_ byToken)).reply .ok []
  match to_ with
  | .provisioned => s2
  | .retired => s2.destroyIdentity.trayReset
  | _ => s2.trayReset

/-- LC_TRANSITION (R551 to R559): a request in a secured session; any token presented discards the nonce. A commit begins only while the
input is present (R555). -/
def execLcTransition (target : LcState) (session : LcSession) (token : Option Token) (s : State) : Out :=
  let w := s.sys.warden
  let s1 := if token.isSome then s.modWarden (fun w => { w with nonce := none }) else s
  .next (whenB (w.running && w.inputOk) s (fun _ =>
    if !session.session then s.reply .lcDenied []
    else match transition w.lc w.readJournal.2.1 target, w.slotFor target with
      | some byToken, some k =>
        if !byToken || token.any (fun t => s.tokenOk t 1 (lcCode target) 0xFF) then s1.transit k target byToken session.run else s1.reply .lcDenied []
      | _, _ => s1.reply .lcDenied []))

/-- DEBUG_UNLOCK (R561): in DIAGNOSTIC, with a token of KIND 2, the debug level of a die rises to TARGET. -/
def execDebugUnlock (d : DieId) (level : Fin 4) (session : Bool) (token : Token) (s : State) : Out :=
  .next (whenB s.sys.warden.running s (fun s =>
    if !session then s.reply .lcDenied []
    else
      let s1 := s.modWarden (fun w => { w with nonce := none })
      if decide (s.sys.warden.lc = .diagnostic) && (decide (level.val = 1) || decide (level.val = 2)) && s.tokenOk token 2 level d then
        ((s1.modSec d (fun c => { c with debug := max c.debug level })).log d (ctlNode d) none .debugUnlock (d + 4 * level) 0).reply .ok []
      else s1.reply .lcDenied []))

/-! ### Raw capture (R560, R562) -/

/-- SEC_CAPCTL of a CTL. -/
def capKey (d : Nat) (south : Bool) : RegKey := ⟨.secCapctl, d, b2n south, 0⟩

/-- RAW_CAPTURE (R560): the management path writes SEC_CAPCTL of a die that is up; a START in another state than DIAGNOSTIC is refused
and logged. -/
def execRawCapture (d : DieId) (south : Bool) (value : Word) (s : State) : Out :=
  let k := capKey d south
  let start := bitOf value.toNat 63
  .next (whenB (s.sys.warden.running && s.dieUp d) s (fun s =>
    if start && decide ((s.sys.sec.get d).lc ≠ some .diagnostic) then
      (s.log d (if south then nodeOf .ctlS d 0 else ctlNode d) none .lcDenied 0 0).reply .lcDenied []
    else
      let was := bitOf (s.visWord k) 63
      match s.takeWrite d 0 k .full value.toNat with
      | (some c, s1) => s1.reply c []
      | (none, s1) =>
        let now := s1.visWord k
        let s2 := if !was && bitOf now 63 then
            s1.modSec d (fun c => { c with captures := c.captures.set (b2n south) ⟨bitsOf now 59 56, bitsOf now 20 0⟩ })
          else s1
        s2.reply .ok []))

/-- The four bits of a captured sample (R560): jitter, latch, comparator, combined, unselected streams 0. -/
def sampleNibble (streams : Nat) (x : Sample) : Nat :=
  b2n (x.jitter && bitOf streams 0) + 2 * b2n (x.latch && bitOf streams 1) + 4 * b2n (x.comparator && bitOf streams 2)
    + 8 * b2n (((x.jitter ^^ x.latch) ^^ x.comparator) && bitOf streams 3)

/-- The bytes of a capture: two samples to a byte, lowest bits first. -/
def captureBytes (streams : Nat) : List Sample → List Byte
  | a :: b :: xs => BitVec.ofNat 8 (sampleNibble streams a + 16 * sampleNibble streams b) :: captureBytes streams xs
  | [a] => [BitVec.ofNat 8 (sampleNibble streams a)]
  | [] => []

/-- The capture buffer of a CTL in its die's system memory (R636). -/
def captureAddr (d : Nat) (south : Bool) : Nat := sysBase d + (if south then 0x1FF80000 else 0x1FF00000)

/-- RAW_CAPTURE_END (R560): as many samples as SAMPLES have been written to the capture buffer; START reads 0. -/
def execRawCaptureEnd (d : DieId) (south : Bool) (samples : List Sample) (s : State) : Out :=
  .next (withSome ((s.sys.sec.get d).captures.get? (b2n south)) s (fun c s =>
    whenB (decide (samples.length = c.samples)) s (fun s =>
      ((s.pokeMem (captureAddr d south) (captureBytes c.streams samples)).hwSet (capKey d south) 63 63 0).modSec d
        (fun k => { k with captures := k.captures.erase (b2n south) }))))

/-! ### SPDM (R543 to R545) -/

/-- A measurement record of 8 bytes. -/
def record8 (bs : List Nat) : List Byte := bs.map (BitVec.ofNat 8)

/-- The measurements of a responder (R545), in index order. -/
def State.measurements (s : State) : Responder → List (List Byte)
  | .die d =>
    let c := s.sys.sec.get d
    let f := s.sys.fuses
    let dig (o : Option RunImage) : List Byte := (o.map (·.digest)).getD (zeros 48)
    [f.romDigest.get d, dig c.steward, dig c.runtime,
     sha384 (record8 [lcCode (c.lc.getD .returned), c.debug, f.svn.get d, f.revoked.get d, b2n f.grade56, d, 0, 0])]
  | .warden =>
    let w := s.sys.warden
    [imageDigest (w.images.get (imageKey .wardenFw 0)),
     sha384 ([0, 1, 2, 3].flatMap (fun d => Config.deviceKey (((s.sys.fuses.uds.get d).map (·.1)).getD []))),
     sha384 (record8 [lcCode w.lc, w.slotsUsed.length, w.readJournal.2.2.length, 0, 0, 0, 0, 0])]

/-- The number of a responder: a die's, or 4 for Warden. -/
def responderNo : Responder → Nat
  | .die d => d
  | .warden => 4

/-- Whether a responder has its key (R545, R550). -/
def State.hasIdentity (s : State) : Responder → Bool
  | .die d =>
    let c := s.sys.sec.get d
    c.keyOk && decide (c.lc ≠ some .raw) && decide (c.lc ≠ some .retired)
  | .warden => s.sys.warden.trayKey && decide (s.sys.warden.lc ≠ .raw) && decide (s.sys.warden.lc ≠ .retired)

/-- An SPDM response: version 1.2 and response code, then what the standard lays out. -/
def State.spdmSay (s : State) (who code : Nat) (data : List Byte) : State :=
  s.emit (.mgmt who 0 ([0x12, BitVec.ofNat 8 code] ++ Config.spdmBody who code data))

/-- An SPDM ERROR with an error code. -/
def State.spdmError (s : State) (who e : Nat) : State := s.emit (.mgmt who 0 [0x12, 0x7F, BitVec.ofNat 8 e, 0])

/-- A response that needs `n` generated values (R537): ERROR Busy while the generator refuses. A reseed that waits for Spindle bytes
delays the response. -/
def State.spdmSigned (s : State) (who n code : Nat) (data : List Byte) (f : State → State) : State :=
  match s.generates who n with
  | (.bytes b, s1) => (f s1).spdmSay who code (data ++ b)
  | (.busy, s1) => s1.spdmError who 0x03
  | (.wait, _) => s

/-- Slots that a responder offers (R544). -/
def slotOffered : Responder → Nat → Bool
  | .die _, k => k == 0
  | .warden, k => decide (k ≤ 4)

/-- A request after NEGOTIATE_ALGORITHMS, of a responder that has its key (R544). -/
def State.spdmServe (s : State) (r : Responder) (q : SpdmReq) : State :=
  let who := responderNo r
  let st := s.sys.spdm.get who
  let ms := s.measurements r
  let upd (f : SpdmSt → SpdmSt) (s : State) : State := { s with sys := { s.sys with spdm := s.sys.spdm.modify who f } }
  let inSession (k code : Nat) (f : State → State) : State :=
    if st.sessions.contains k then (f s).spdmSay who code [BitVec.ofNat 8 k] else s.spdmError who 0x02
  match q with
  | .getDigests => s.spdmSay who 0x01 []
  | .getCertificate k => if slotOffered r k then s.spdmSay who 0x02 [BitVec.ofNat 8 k] else s.spdmError who 0x01
  | .challenge k =>
    if slotOffered r k then s.spdmSigned who 2 0x03 (BitVec.ofNat 8 k :: ms.flatten) id else s.spdmError who 0x01
  | .getMeasurements i =>
    if i = 255 then s.spdmSigned who 2 0x60 ms.flatten id
    else if i = 0 then s.spdmSigned who 2 0x60 [BitVec.ofNat 8 ms.length] id
    else match ms[i - 1]? with
      | some m => s.spdmSigned who 2 0x60 m id
      | none => s.spdmError who 0x01
  | .keyExchange k =>
    if !slotOffered r k then s.spdmError who 0x01
    else if 4 ≤ st.sessions.length then s.spdmError who 0x0A
    else s.spdmSigned who 3 0x64 (BitVec.ofNat 8 k :: leBytes 2 st.nextSession)
      (upd (fun x => { x with sessions := x.sessions ++ [x.nextSession], nextSession := x.nextSession + 1 }))
  | .finish k => inSession k 0x65 id
  | .endSession k => inSession k 0x6C (upd (fun x => { x with sessions := x.sessions.filter (fun i => i != k) }))
  | .heartbeat k => inSession k 0x68 id
  | .keyUpdate k => inSession k 0x69 id
  | _ => s.spdmError who 0x07

/-- A responder answers a request (R544, R545): the three requests of negotiation in their order, then the rest. -/
def State.spdmAnswer (s : State) (r : Responder) (q : SpdmReq) : State :=
  let who := responderNo r
  let n := (s.sys.spdm.get who).negotiated
  let set (k : Nat) (s : State) : State := { s with sys := { s.sys with spdm := s.sys.spdm.modify who (fun x => { x with negotiated := k }) } }
  match q with
  | .otherVersion => s.spdmError who 0x41
  | .unsupported => s.spdmError who 0x07
  | .getVersion => (set 1 s).spdmSay who 0x04 []
  | .getCapabilities => if 1 ≤ n then (set 2 s).spdmSay who 0x61 [] else s.spdmError who 0x04
  | .negotiateAlgorithms => if 2 ≤ n then (set 3 s).spdmSay who 0x63 [] else s.spdmError who 0x04
  | _ =>
    if n < 3 then s.spdmError who 0x04
    else if !s.hasIdentity r then s.spdmError who 0x05
    else s.spdmServe r q

/-- Whether a responder is reached on a path (R543, R563, R564): a die's over the DOE mailbox of its port's PF, or over MCTP through
Warden; Warden over MCTP only. -/
def State.reachesSpdm (s : State) (r : Responder) (p : SpdmPath) : Bool :=
  match r, p with
  | .die d, .doe f => decide (f.func.val = 0) && decide (f.port.val = d.val) && (s.io.hps.get d).linkUp && s.dieUp d
  | .die d, .mctp => s.sys.warden.running && s.dieUp d
  | .warden, .doe _ => false
  | .warden, .mctp => s.sys.warden.running

/-- SPDM_REQUEST (R544). -/
def execSpdmRequest (r : Responder) (path : SpdmPath) (q : SpdmReq) (s : State) : Out :=
  .next (whenB (s.reachesSpdm r path) s (fun s => s.spdmAnswer r q))

end Sys2Proof.Machine
end

