-- ==== Sys2Proof/Machine/Manage.lean ====
section
/-! DEFINITION. Management, power and firmware: unit-state requests (R590, R591), the vendor-defined commands (R566), PLDM and MCTP (R563 to
R568), power limits and throttling (R569 to R576), input and coolant (R578, R580), firmware update (R584 to R587). -/

namespace Sys2Proof.Machine

/-! ### Changes of unit state (R590) -/

/-- A unit becomes OFFLINE (R590, R591): `mgmt` says that the management path asks, whose units Warden keeps in its flash. -/
def State.takeOffline (s : State) (d u : Nat) (mgmt : Bool) : State :=
  let was := (s.unitRec d u).st
  let s1 := ((s.modUnit d u (fun r => { r with st := .offline, gen := r.gen + 1, origin := mgmt })).log d (unitNode d u) none .mgtOffline 0 0).notice d u
  let k := unitKey d u
  let s2 := s1.modWarden (fun w => { w with
    mgtOffline := if mgmt && !w.mgtOffline.contains k then w.mgtOffline ++ [k] else w.mgtOffline
    testing := w.testing.filter (fun t => t.1 != k) })
  if was = .inService then s2.outOfService d u else s2

/-- A change request at the CTL-N (R590): its code, or none while a bring-up test of the unit runs. -/
def State.changeUnit (s : State) (d u : Nat) (online mgmt : Bool) (expect : Nat) : Option Code × State :=
  let r := s.unitRec d u
  let off := decide (r.st = .offline)
  if decide (r.st = .fenced) || decide (r.st = .fused) then (some .cfgDenied, s)
  else if !mgmt && (decide (r.gen.toNat ≠ expect) || (off && r.origin)) then (some .cfgDenied, s)
  else if !online then (if !off || (mgmt && !r.origin) then (some .ok, s.takeOffline d u mgmt) else (some .ok, s))
  else if !off then (some .ok, s)
  else
    let k := unitKey d u
    (none, s.modWarden (fun w => { w with testing := w.testing.filter (fun t => t.1 != k) ++ [(k, !mgmt)] }))

/-- STATE and GEN of a unit, as responses carry them. -/
def State.unitBytes (s : State) (d u : Nat) : List Byte :=
  leBytes 1 (s.unitRec d u).st.code ++ leBytes 2 (s.unitRec d u).gen.toNat

/-- A SET_UNIT_STATE is applied, and answered unless its test runs. -/
def State.applySetUnit (s : State) (d u : Nat) (online : Bool) : State :=
  match s.changeUnit d u online true 0 with
  | (some c, s1) => s1.reply c (s1.unitBytes d u)
  | (none, s1) => s1

/-- While the tray is below the minimum service set a command is answered NO_SERVICE; one that needs a session is refused without
(R566). Warden answers while it runs. -/
def State.command (s : State) (needs session : Bool) (f : State → State) : Out :=
  .next (whenB s.sys.warden.running s (fun s =>
    if s.ras.noService then s.reply .noService []
    else if needs && !session then s.reply .cfgDenied []
    else f s))

/-- SET_UNIT_STATE (R590): a request for a unit of a die in bring-up waits for D10 (R601). -/
def execSetUnitState (d : DieId) (u : UnitNo) (online session : Bool) (s : State) : Out :=
  s.command true session (fun s =>
    if (s.sys.clk.get d).supplied && !(s.sys.clk.get d).ready && !s.dieFencedB d then
      s.modWarden (fun w => { w with held := w.held ++ [⟨d, u, online⟩] })
    else s.applySetUnit d u online)

/-- MGT_UNITREQ (R590, R592): the GO of a die's register is applied; a REQ of 0 or 3 names no request. GO reads 0 and RESULT shows the
code. -/
def execMgtUnitreq (d : DieId) (s : State) : Out :=
  let k : RegKey := ⟨.mgtUnitreq, d, 0, 0⟩
  let w := s.appWord k
  let req := bitsOf w 57 56
  .next (whenB (bitOf w 63 && s.dieUp d) s (fun s =>
    let r := if req = 1 || req = 2 then s.changeUnit d (bitsOf w 5 0) (decide (req = 2)) false (bitsOf w 31 16) else (some .cfgDenied, s)
    (r.2.hwSet k 63 63 0).hwSet k 47 32 (r.1.getD .ok).val.toNat))

/-- A unit that has passed its tests (R590, R597): it is cleared and in service; a link is trained. -/
def State.testPassed (s : State) (d u : Nat) : State :=
  let e := d ^^^ (u - 31)
  let s1 := if 32 ≤ u then
      (match (s.link.links.get (linkKey d e)).trained (s.halfOnly d e) true true true with
       | some l => (((s.modLink (linkKey d e) (fun _ => l)).linkServes e (linkUnit d e)).renotify d e).renotify e d
       | none => s)
    else s.clearUnit d u
  (s1.returnUnit d u).log d (unitNode d u) none .mgtOnline 0 0

/-- BRING_UP_TEST_END (R590, R597): the tests of an ONLINE request end; a unit that fails is fenced with UNIT_INTERNAL. A SET_UNIT_STATE
is answered now. -/
def execBringUpTestEnd (d : DieId) (u : UnitNo) (pass : Bool) (s : State) : Out :=
  let k := unitKey d u
  .next (withSome (s.sys.warden.testing.find? (fun t => t.1 == k)) s (fun t s =>
    let s1 := s.modWarden (fun w => { w with
      testing := w.testing.filter (fun x => x.1 != k), mgtOffline := w.mgtOffline.filter (fun x => x != k) })
    let ok := pass && (decide (u.val < 32) || s.dieUp (d.val ^^^ (u.val - 31)))
    let s2 := if ok then s1.testPassed d u else s1.markFenced d u Code.unitInternal.val
    if t.2 then s2 else s2.reply .ok (s2.unitBytes d u)))

/-! ### Warden's start and reset (R556 to R558, R582, R593) -/

/-- Warden reads its journal (R556, R557): LC_TORN is logged when the highest slot used is torn, one-bank commits are finished, and the
current state is the journal's. -/
def State.readJournal (s : State) : State :=
  let w := s.sys.warden
  let (st, _, torn) := w.readJournal
  let finish (w : Warden) (k : Nat) : Warden :=
    if w.committedIn 0 k && !w.committedIn 1 k then { w with journal := w.journal.set (slotKey 1 k) (w.journal.get (slotKey 0 k)) }
    else if w.committedIn 1 k && !w.committedIn 0 k then { w with journal := w.journal.set (slotKey 0 k) (w.journal.get (slotKey 1 k)) }
    else w
  let s1 := s.modWarden (fun w => { ((List.range 32).foldl finish w) with lc := st })
  let s2 := match w.slotsUsed.getLast? with
    | some k => if torn.contains k then s1.wardenLog 0 .lcTorn k 0 else s1
    | none => s1
  if decide (st = .retired) && s2.identityLeft then s2.destroyIdentity else s2

/-- A WARDEN reset (R581, R582): Warden's MCTP, PLDM and SPDM state and its cache, its last nonce, and the commands it held are gone; it
starts and reads its journal. The dies send their notices again. -/
def State.resetWarden (s : State) : State :=
  let s1 := s.modWarden (fun w => { w with
    cache := .const none, nonce := none, evtReceiver := none, eid := none, dieEids := none, unitBytes := 64, held := [], resetQueue := []
    sensors := .const (0, 0) })
  let s2 : State := { s1 with sys := { s1.sys with spdm := s1.sys.spdm.set 4 SpdmSt.reset } }
  eachOf ([0, 1, 2, 3].filter (fun d => s2.dieUp d)) (fun d s => eachOf (List.range 35) (fun u s => s.notice d u) s) s2.readJournal

/-- WARDEN_RESET (R582): by Warden's watchdog. -/
def execWardenReset (s : State) : Out := .next (whenB s.sys.warden.running s (fun s => s.resetWarden))

/-! ### Resets by command (R581, R608 to R610) -/

/-- A UNIT reset (R610): refused with CFG_BUSY while a running request or armed RUN names the unit, or a scheduled region that is not BROKEN
uses it; memory, service state, generation and counts are kept. -/
def State.resetUnit (s : State) (d u : Nat) : Code × State :=
  let n := unitNode d u
  let e := d ^^^ (u - 31)
  let named := s.req.requests.any (fun r => (r.running || r.armed) && (r.nodes.contains n
    || (decide (32 ≤ u) && r.dies.contains d && r.dies.contains e)))
  let used := s.net.scheds.any (fun c => !c.broken && c.ports.any (fun q => q.node == n))
  if named || used then (.cfgBusy, s)
  else
    let s1 := s.breakLocks (fun _ l => decide (u < 16) && decide (l.core / 8 = 16 * d + u)) 1
    let s2 := s1.dropRegs (fun k => decide (k.name = .teModectl) && k.a == d && k.b + 16 == u)
    if u < 16 then
      (.ok, ((upFrom (8 * (16 * d + u)) 8).foldl (fun s c => (s.haltCore c).modCore c (fun _ => Core.reset)) s2).modSua (16 * d + u)
        (fun k => { k with running := none, cmds := [] }))
    else if u < 20 then (.ok, s2.modTe (4 * d + (u - 16)) (fun _ => Te.reset))
    else if u < 28 then (.ok, (s2.modRlu (8 * d + (u - 20)) (fun _ => Rlu.reset)).modCopy (8 * d + (u - 20)) (fun _ => CopyEng.reset))
    else if u < 32 then (.ok, s2)
    else
      let l := (s.link.links.get (linkKey d e)).st
      let live := decide (l = .up32) || decide (l = .up16) || decide (l = .down)
      (.ok, if live && s.dieUp e then ((s2.hwSet ⟨.netLinkctl, d, u - 31, 0⟩ 0 0 1).hwSet ⟨.netLinkctl, e, u - 31, 0⟩ 0 0 1).startRetrain d e false
            else s2)

/-- UNIT_RESET (R610, R614): the GO of GLB_UNITRESET is taken: RESULT shows the code and GO reads 0. -/
def execUnitReset (d : DieId) (s : State) : Out :=
  let k : RegKey := ⟨.glbUnitreset, d, 0, 0⟩
  .next (whenB (bitOf (s.appWord k) 63 && s.dieUp d) s (fun s =>
    let r := s.resetUnit d (bitsOf (s.appWord k) 5 0)
    (r.2.hwSet k 63 63 0).hwSet k 47 32 r.1.val.toNat))

/-- PARTITION_RESET (R609): a partition whose GO reads 1 is reset, and GO reads 0 again. -/
def execPartitionReset (p : PartId) (s : State) : Out :=
  .next (whenB (s.partResetting p) s (fun s => s.resetPartition p))

/-- What RESET does in a domain (R581), after its answer. A die without core supply returns only at a tray reset (R576). -/
def State.resetDomain (s : State) : ResetDomain → State
  | .warden => (s.reply .ok []).resetWarden
  | .tray => (s.reply .ok []).trayReset
  | .die d =>
    if (s.sys.clk.get d).supplied then
      ((s.reply .ok []).modWarden (fun w => { w with resetQueue := w.resetQueue ++ [d.val] })).nextReset
    else s.reply .cfgDenied []
  | .partition p => (s.reply .ok []).hwSet ⟨.glbPartreset, p, 0, 0⟩ 63 63 1
  | .unit d u => if s.dieUp d then let r := s.resetUnit d u; r.2.reply r.1 [] else s.reply .cfgDenied []
  | .function f => (s.reply .ok []).resetFunction f.port f.func

/-- RESET (R581, R566). After a coolant condition that removed the supply has cleared, a RESET of the tray is taken although the tray is
below the minimum service set (R580). -/
def execReset (dom : ResetDomain) (session : Bool) (s : State) : Out :=
  if s.sys.warden.running && s.sys.warden.coolantOff && !s.sys.warden.coolantBad && session && decide (dom = .tray) then
    .next ((s.modWarden (fun w => { w with coolantOff := false })).resetDomain .tray)
  else s.command true session (fun s => s.resetDomain dom)

/-! ### Other vendor-defined commands (R566) -/

/-- A mask of the dies that satisfy `p`. -/
def dieMask (p : Nat → Bool) : Nat := ([0, 1, 2, 3].filter p).foldl (fun m d => m + 2 ^ d) 0

/-- GET_TRAY_STATUS (R566). -/
def execGetTrayStatus (s : State) : Out :=
  .next (whenB s.sys.warden.running s (fun s =>
    s.reply .ok (record8 ([lcCode s.sys.warden.lc, b2n s.ras.noService, dieMask (fun d => s.dieFencedB d),
      dieMask (fun d => !(s.sys.clk.get d).aligned)] ++ [0, 1, 2, 3].map (fun d => (s.sys.power.get d).level)))))

/-- GET_UNIT_STATE (R566, R588): from Warden's cache; of a unit it holds no report of, what it answers is open. -/
def execGetUnitState (d : DieId) (u : UnitNo) (s : State) : Out :=
  s.command false false (fun s =>
    match s.sys.warden.cache.get (unitKey d u) with
    | some r => s.reply .ok (leBytes 1 r.st.code ++ leBytes 1 r.origin ++ leBytes 2 r.gen.toNat ++ leBytes 1 (r.resets % 256))
    | none => let b := s.openBytes 5; b.2.reply .ok b.1)

/-- SET_POWER_CAP (R569). -/
def execSetPowerCap (d : DieId) (capW : Nat) (session : Bool) (s : State) : Out :=
  s.command true session (fun s =>
    let sum := [0, 1, 2, 3].foldl (fun t e => t + (if e = d.val then capW else s.sys.warden.capW.get e)) 0
    if capW < 200 || 600 < capW || 2240 < sum then s.reply .cfgDenied []
    else (s.modWarden (fun w => { w with capW := w.capW.set d capW })).reply .ok [])

/-- Whether a die's running image of a kind is the image in copy A (R587). -/
def State.runsCopyA (s : State) (o : Option RunImage) (k : ImageKind) : Bool :=
  o.any (fun i => decide (i.digest = imageDigest (s.sys.warden.images.get (imageKey k 0))))

/-- COMMIT_SVN (R540, R587): each named die's fused SVN rises to the lower of the SVNs it runs; it is refused for a die whose running
images are not those of its copy A. -/
def execCommitSvn (mask : BitVec 4) (session : Bool) (s : State) : Out :=
  s.command true session (fun s =>
    let ds := [0, 1, 2, 3].filter (fun d => bitOf mask.toNat d)
    let good (d : Nat) : Bool := s.runsCopyA (s.sys.sec.get d).steward .steward && s.runsCopyA (s.sys.sec.get d).runtime .runtime
    let low (d : Nat) : Nat := min (((s.sys.sec.get d).steward.map (·.svn)).getD 0) (((s.sys.sec.get d).runtime.map (·.svn)).getD 0)
    let s1 := eachOf (ds.filter good) (fun d s => s.modFuses (fun f => { f with svn := f.svn.modify d (fun v => max v (low d)) })) s
    s1.reply (if ds.all good then .ok else .cfgDenied) (record8 ([0, 1, 2, 3].map (fun d => s1.sys.fuses.svn.get d))))

/-- READ_LOG (R566): up to 7 records of a die's tray log from an index, 0 the oldest. -/
def execReadLog (d : DieId) (index : Nat) (s : State) : Out :=
  .next (whenB s.sys.warden.running s (fun s =>
    s.reply .ok ((((s.ras.logs.get d).recs.drop index).take 7).flatMap (fun e => e.bytes false))))

/-! ### PLDM (R565, R567, R568) and MCTP control (R563) -/

/-- A PLDM answer of Warden, with its completion code. -/
def State.pldm (s : State) (cc : Nat) (bs : List Byte) : State := s.emit (.mgmt 4 cc bs)

/-- The PLDM types that Warden supports (R565). -/
def pldmTypes : List Nat := [0, 2, 4, 5]

/-- GET_TID (R565): the TID is not the manual's to give. -/
def execGetTid (s : State) : Out := .next (whenB s.sys.warden.running s (fun s => let b := s.openBytes 1; b.2.pldm 0 b.1))

/-- GET_PLDM_VERSION (R565): the version of a supported type is not the manual's to give. -/
def execGetPldmVersion (ty : Byte) (s : State) : Out :=
  .next (whenB s.sys.warden.running s (fun s =>
    if pldmTypes.contains ty.toNat then let b := s.openBytes 4; b.2.pldm 0 b.1 else s.pldm 0x83 []))

/-- GET_PLDM_TYPES (R565): a bit for each type. -/
def execGetPldmTypes (s : State) : Out :=
  .next (whenB s.sys.warden.running s (fun s => s.pldm 0 (leBytes 8 (pldmTypes.foldl (fun m t => m + 2 ^ t) 0))))

/-- GET_PLDM_COMMANDS (R565): type 0 has its four commands, codes 2 to 5; those of the other types are not the manual's to give. -/
def execGetPldmCommands (ty : Byte) (s : State) : Out :=
  .next (whenB s.sys.warden.running s (fun s =>
    if ty.toNat = 0 then s.pldm 0 (leBytes 32 0x3C)
    else if pldmTypes.contains ty.toNat then let b := s.openBytes 32; b.2.pldm 0 b.1
    else s.pldm 0x83 []))

/-- SET_EVENT_RECEIVER (R567). -/
def execSetEventReceiver (eid : Option Byte) (s : State) : Out :=
  .next (whenB s.sys.warden.running s (fun s => (s.modWarden (fun w => { w with evtReceiver := eid })).pldm 0 []))

/-- A sensor's new value, and the maximum since it was read (R568). -/
def Warden.sense (w : Warden) (id v : Nat) : Warden := { w with sensors := w.sensors.modify id (fun x => (v, max x.2 v)) }

/-- Whether a sensor of R568 exists. -/
def sensorExists (id : Nat) : Bool :=
  (decide (1 ≤ id) && decide (id ≤ 7)) || (decide (16 ≤ id) && decide (id < 48) && decide (id % 8 < 4)) || (decide (48 ≤ id) && decide (id ≤ 56))

/-- Sensors whose readings some command of the tray carries: the rest read what the world gives. -/
def sensorFed (id : Nat) : Bool := id == 3 || id == 4 || id == 7 || (decide (16 ≤ id) && decide (id < 48))

/-- GET_SENSOR_READING (R568): the last value and the maximum, which starts again. -/
def execGetSensorReading (id : Nat) (s : State) : Out :=
  .next (whenB s.sys.warden.running s (fun s =>
    if !sensorExists id then s.pldm 0x80 []
    else if !sensorFed id then let b := s.openBytes 8; b.2.pldm 0 b.1
    else
      let x := s.sys.warden.sensors.get id
      (s.modWarden (fun w => { w with sensors := w.sensors.set id (x.1, x.1) })).pldm 0 (leBytes 4 x.1 ++ leBytes 4 x.2)))

/-- Message types that an endpoint answers (R564). -/
def mctpTypes : Responder → List Nat
  | .warden => [0x00, 0x01, 0x05, 0x06, 0x7E]
  | .die _ => [0x00, 0x05, 0x06]

/-- MCTP_CONTROL (R563, R564): endpoint identifiers, message types, the transmission unit; a message of a type that an endpoint does not
answer has no effect, and one of another type it answers in that type's own step. -/
def execMctpControl (r : Responder) (m : MctpMsg) (s : State) : Out :=
  let who := responderNo r
  let up := s.sys.warden.running && (match r with | .die d => (s.sys.clk.get d).supplied | .warden => true)
  let say (s : State) (cc : Nat) (bs : List Byte) : State := s.emit (.mgmt who cc bs)
  let w := s.sys.warden
  .next (whenB up s (fun s =>
    match r, m with
    | .warden, .allocateEids n first =>
      if 4 ≤ n then say (s.modWarden (fun w => { w with dieEids := some first })) 0 (leBytes 1 4 ++ leBytes 1 first) else say s 2 []
    | .die _, .allocateEids _ _ => say s 5 []
    | .warden, .setEid e => say (s.modWarden (fun w => { w with eid := some e })) 0 (leBytes 1 e)
    | .die d, .setEid e => say (s.modWarden (fun w => { w with dieEids := some (e - d) })) 0 (leBytes 1 e)
    | .warden, .getEid => say s 0 (leBytes 1 (w.eid.getD 0))
    | .die d, .getEid => say s 0 (leBytes 1 ((w.dieEids.map (· + d.val)).getD 0))
    | _, .getMessageTypes => say s 0 (record8 ((mctpTypes r).length :: mctpTypes r))
    | .warden, .negotiateUnit n =>
      if 64 ≤ n && n ≤ 256 then say (s.modWarden (fun w => { w with unitBytes := n })) 0 (leBytes 2 n) else say s 2 []
    | .die _, .negotiateUnit _ => say s 5 []
    | _, .messageOfType _ => s))

/-! ### Power and throttling (R569 to R576) -/

/-- The effective limit of a die, in mW (R569, R580). -/
def State.powerLimitOf (s : State) (d : Nat) : Nat :=
  let l := min (s.appF .mgtPowerlimit d 0 0 9 0) (s.sys.warden.capW.get d) * 1000
  if s.sys.warden.flowLow then l / 2 else l

/-- Warden takes a die's readings (R568). -/
def State.takeReading (s : State) (d : Nat) (r : PowerReading) : State :=
  (s.modPower d (fun p => { p with p1ms := r.p1ms, tj := r.tj, readTj := r.tj })).modWarden (fun w => (w.sense (16 + 8 * d) r.p1ms).sense (17 + 8 * d) r.tj)

/-- THROTTLE_DECISION (R572): a step up or down, or none; no decision is taken while one waits to take effect. -/
def execThrottleDecision (d : DieId) (r : PowerReading) (s : State) : Out :=
  .next (whenB (s.sys.warden.running && (s.sys.clk.get d).supplied) s (fun s =>
    let p := s.sys.power.get d
    let l := s.powerLimitOf d
    let hotAt := 10 * s.appF .mgtPowerlimit d 0 0 31 24
    let now := s.tickOf d
    let cool := decide (10 * r.p1ms < 9 * l) && decide (r.tj + 30 < hotAt)
    let since_ := if cool then some (p.coolSince.getD now) else none
    let settled (n : Nat) : Bool := p.changed.all (fun t => decide (n ≤ s.since d t))
    let overLim := decide (l < r.p100) || decide (hotAt ≤ r.tj)
    let next : Option Nat :=
      if p.pending.isSome then none
      else if overLim && settled 25000 && decide (p.level < 3) then some (p.level + 1)
      else if since_.any (fun t => decide (2500000 ≤ s.since d t)) && settled 2500000 && decide (0 < p.level) then some (p.level - 1)
      else none
    (s.takeReading d r).modPower d (fun p => { p with
      coolSince := since_, pending := match next with | some n => some (n, s.extTick d) | none => p.pending })))

/-- The islands of a die: its SC and TE nodes. -/
def islandNodes (d : Nat) : List Nat := (dieNodes d).filter (fun n => (scAt n).isSome || (teAt n).isSome)

/-- Admissions that waited only for islands to be at T0 go on (R573). -/
def State.admitHeld (s : State) : State :=
  (s.req.requests.filter (fun r => decide (r.step = .arm) && !(r.seed.isEmpty && r.drawn) && s.islandsReady r)).foldl (fun s r => s.proceed r.id) s

/-- THROTTLE (R571, R573, R634): at a five-tick boundary a decided level takes effect, every island that is not held takes the die's
level, and every island that is held or about to be held is at T0; an admission that waited for that goes on. THROTTLE is logged with the
die and a new level, and with T0 where that raises a held island's clock. -/
def execThrottle (d : DieId) (s : State) : Out := heldWait s fun s =>
  let p := s.sys.power.get d
  let due := match p.pending with
    | some x => if decide (x.2 < s.extTick d) then some x.1 else none
    | none => none
  let level := due.getD p.level
  let free := (islandNodes d).filter (fun n => !s.heldIsland n)
  let stale := free.any (fun n => decide (p.islands.get n ≠ level))
  let slow := (islandNodes d).filter (fun n => s.heldIsland n && decide (p.islands.get n ≠ 0))
  .next (whenB (decide (s.extTick d % 5 = 0) && (due.isSome || stale || !slow.isEmpty) && (s.sys.clk.get d).supplied) s (fun s =>
    let set (ns : List Nat) (v : Nat) (t : Tbl Nat Nat) : Tbl Nat Nat := ns.foldl (fun t n => t.set n v) t
    let s1 := s.modPower d (fun p => { p with islands := set slow 0 (set free level p.islands), level := level })
    let s2 := whenB due.isSome s1 (fun s1 =>
      ((s1.modPower d (fun p => { p with pending := none, changed := some (s.tickOf d), coolSince := none, steps := p.steps + 1 })).modWarden
        (fun w => w.sense (19 + 8 * d.val) level)).log d 255 none .throttle (d + 4 * level) 0)
    whenB (!slow.isEmpty) s2 (fun s => (s.log d 255 none .throttle d 0).admitHeld)))

/-- A hard action on a die (R575): POWER_LIMIT is logged; running requests with a held island on it end; in the next tick scheduled regions
with a port on it break; its islands are released from every request admitted before, and go to T3. -/
def State.hardAction (s : State) (d : Nat) : State :=
  let held (n : Nat) : Bool := nodeDie n == d && s.heldIsland n
  let s1 := s.log d 255 none .powerLimit d 0
  let s2 := s1.endReqs (fun r => r.nodes.any held) .powerLimit
  s2.modPower d (fun p => { p with
    pending := some (3, s.extTick d + 1), hard := p.hard + 1, breaking := true
    released := (s.req.requests.filter (fun r => decide (r.step ≠ .arm) && r.nodes.any (fun n => nodeDie n == d))).map (·.id) })

/-- POWER_LIMIT (R575): the die's P1ms exceeds its limit by more than HEADROOM_W, its temperature reaches 103 degrees, or the tray's input
reaches 2,400 W and the die exceeds its limit, or no die does. -/
def execPowerLimit (d : DieId) (r : PowerReading) (trayP1ms : Nat) (otherOver : Bool) (s : State) : Out :=
  let l := s.powerLimitOf d
  let overLim := decide (l < r.p1ms)
  let due := decide (l + 1000 * s.appF .mgtPowerlimit d 0 0 57 48 < r.p1ms) || decide (1030 ≤ r.tj)
    || (decide (2400000 ≤ trayP1ms) && (overLim || !otherOver))
  .next (whenB (due && s.sys.warden.running && (s.sys.clk.get d).supplied) s (fun s =>
    ((s.takeReading d r).modWarden (fun w => w.sense 3 trayP1ms)).hardAction d))

/-- Warden removes a die's core supply (R576, R578, R580): the die is fenced as for a failed CTL-N check, and stops. -/
def State.removeSupply (s : State) (d : Nat) : State :=
  (s.fenceDie d).modClk d (fun k => { DieClk.reset with resets := k.resets })

/-- THERMAL_TRIP (R576): a die reaches 105 degrees. -/
def execThermalTrip (d : DieId) (tj : Nat) (s : State) : Out :=
  .next (whenB (decide (1050 ≤ tj) && s.sys.warden.running && (s.sys.clk.get d).supplied) s (fun s =>
    (((s.removeSupply d).modPower d (fun p => { p with tj := tj, tripped := true })).modWarden (fun w => w.sense (17 + 8 * d.val) tj)).nextReset))

/-! ### Input and coolant (R578, R580) -/

/-- Every die loses its supply. -/
def State.removeSupplies (s : State) : State := eachOf [0, 1, 2, 3] (fun d s => s.removeSupply d) s

/-- INPUT_POWER_FAULT (R578): the input has been out of range for more than 1 ms. -/
def execInputPowerFault (s : State) : Out :=
  .next (whenB (s.sys.warden.running && s.sys.warden.inputOk) s (fun s =>
    (s.modWarden (fun w => { w with inputOk := false, inputFault := true })).removeSupplies))

/-- INPUT_POWER_RESTORED (R578): the input has been back in range for 1 s, and Warden performs a tray reset. -/
def execInputPowerRestored (s : State) : Out :=
  .next (whenB (s.sys.warden.running && s.sys.warden.inputFault) s (fun s =>
    (s.modWarden (fun w => { w with inputOk := true, inputFault := false })).trayReset))

/-- COOLANT_TEMP (R580): the inlet temperature, over 1 s; above 40 degrees it is logged once per excursion. -/
def execCoolantTemp (inlet : Nat) (s : State) : Out :=
  .next (whenB s.sys.warden.running s (fun s =>
    let hot := decide (400 < inlet)
    let s1 := s.modWarden (fun w => { (w.sense 4 inlet) with tempLogged := hot })
    if hot && !s.sys.warden.tempLogged then s1.wardenLog 0 .coolantTemp 0 0 else s1))

/-- COOLANT_FLOW (R580): low flow halves every die's limit until it has been restored for 10 s; very low flow or a leak removes every
die's supply, until the condition has cleared and RESET names the tray. -/
def execCoolantFlow (e : FlowEvent) (s : State) : Out :=
  let off (cause : Nat) (s : State) : State :=
    ((s.wardenLog 0 .coolantFlow cause 0).modWarden (fun w =>
      { (if cause = 2 then w.sense 7 1 else w) with coolantOff := true, coolantBad := true })).removeSupplies
  .next (whenB s.sys.warden.running s (fun s =>
    match e with
    | .low => if s.sys.warden.flowLow then s else (s.wardenLog 0 .coolantFlow 0 0).modWarden (fun w => { w with flowLow := true })
    | .restored => s.modWarden (fun w => { w with flowLow := false })
    | .veryLow => off 1 s
    | .leak => off 2 s
    | .cleared => s.modWarden (fun w => { (w.sense 7 0) with coolantBad := false })))

/-! ### Firmware (R584 to R586) -/

/-- FIRMWARE_COMPONENT_TRANSFER (R584): a component goes into the staging area of its kind. -/
def execFirmwareComponentTransfer (k : ImageKind) (image : List Byte) (s : State) : Out :=
  .next (whenB (s.sys.warden.running && s.sys.warden.activating.all (fun a => a.1 != imageKey k 0)) s (fun s =>
    (s.modWarden (fun w => { w with
      images := w.images.set (imageKey k 2) image, verified := w.verified.filter (fun i => i != imageKey k 0) })).pldm 0 []))

/-- Whether a staged image passes the checks of VerifyComplete (R584): against every die's fuses, or, for Warden firmware, in its form and
signature. -/
def State.stagedOk (s : State) (k : ImageKind) : Bool :=
  let b := s.sys.warden.images.get (imageKey k 2)
  match k with
  | .steward => [0, 1, 2, 3].all (fun d => s.imageOk d 1 b)
  | .runtime => [0, 1, 2, 3].all (fun d => s.imageOk d 2 b)
  | .wardenFw => s.imageSigned none b

/-- VERIFY_COMPLETE (R584): an image that fails is reported and its staging area discarded. -/
def execVerifyComplete (k : ImageKind) (s : State) : Out :=
  .next (whenB (s.sys.warden.running && s.sys.warden.activating.all (fun a => a.1 != imageKey k 0)) s (fun s =>
    if s.stagedOk k then
      (s.modWarden (fun w => { w with verified := w.verified.filter (fun i => i != imageKey k 0) ++ [imageKey k 0] })).pldm 0 [0]
    else
      (s.modWarden (fun w => { w with
        images := w.images.set (imageKey k 2) [], verified := w.verified.filter (fun i => i != imageKey k 0) })).pldm 0 [1]))

/-- One step of an activation (R585): the copies of a kind and its staging area after step `n`. -/
def Warden.activate (w : Warden) (k : ImageKind) (n : Nat) : Warden :=
  let img (c : Nat) : List Byte := w.images.get (imageKey k c)
  match n with
  | 1 => { w with images := w.images.set (imageKey k 1) (img 2), activating := some (imageKey k 0, 1) }
  | 2 => { w with images := w.images.set (imageKey k 2) (img 0), activating := some (imageKey k 0, 2) }
  | 3 => { w with images := w.images.set (imageKey k 0) (img 1), activating := some (imageKey k 0, 3) }
  | _ => { w with
      images := w.images.set (imageKey k 1) (img 2), activating := none, verified := w.verified.filter (fun i => i != imageKey k 0) }

/-- Step 4 has verified (R585, R586): FW_UPDATE is logged, and new Warden firmware runs from a WARDEN reset at once. -/
def State.activated (s : State) (k : ImageKind) : State :=
  let s1 := s.wardenLog 0 .fwUpdate 0 0
  if k = .wardenFw then s1.resetWarden else s1

/-- The next step of the activation under way. -/
def State.activateStep (s : State) (k : ImageKind) (n : Nat) : State :=
  let s1 := s.modWarden (fun w => w.activate k n)
  if n = 4 then s1.activated k else s1

/-- ACTIVATE_FIRMWARE (R585, R586): the first step of the activation of a verified image, answered as one that needs a system reboot, or its
next step. -/
def execActivateFirmware (k : ImageKind) (s : State) : Out :=
  let w := s.sys.warden
  .next (whenB w.running s (fun s =>
    match w.activating with
    | none => if w.verified.contains (imageKey k 0) then (s.activateStep k 1).pldm 0 [1] else s.pldm 1 []
    | some (a, n) => if a = imageKey k 0 then s.activateStep k (n + 1) else s.pldm 1 []))

end Sys2Proof.Machine
end

