-- ==== Sys2Proof/Machine/BringUp.lean ====
section
/-! DEFINITION. Bring-up and what stops it: power-on and resets (R593, R608), the steps of a die (R595 to R601), their bound (R596), the
loss of the Pulse (R39), a failed CTL-N check (R520), and the service set after bring-up (R611, R612). -/

namespace Sys2Proof.Machine

/-! ### Dies that stop (R39, R520) -/

/-- Whether a request with a region on a die ends with PULSE_LOST as that die loses the Pulse (R39): it runs, or it waits at another die's
Steward; what the die's own Steward had taken and not launched is lost with it (R521). -/
def State.losesPulse (s : State) (d : Nat) (r : Request) : Bool :=
  decide (r.step ≠ .done) && ((s.regionDies r.part).contains d || r.dies.contains d) && (r.running || decide (s.admitDie r.part ≠ some d))

/-- PULSE_LOST (R39): a die that counts the Pulse loses it. Its TICK stops, requests with a region on it end with PULSE_LOST, whatever else
the fence does to them in the same tick, and it fences itself. -/
def execPulseLost (d : DieId) (s : State) : Out :=
  .next (whenB ((s.sys.clk.get d).supplied && (s.sys.clk.get d).locked) s (fun s =>
    let s1 := (s.modClk d (fun k => { k with locked := false })).log d 255 none .pulseLost 0 0
    let gone := s1.req.requests.filter (s1.losesPulse d)
    let s2 := gone.foldl (fun s r => s.endReq r.id .pulseLost 0 0) s1
    let s3 := s2.fenceDieBut d (fun r => gone.any (fun g => g.id == r.id))
    (gone.foldl (fun s r => s.modReq r.id (fun q => { q with err := ((s2.findReq r.id).map (·.err)).getD q.err })) s3).nextReset))

/-- DIE_FENCED (R520): the CTL-N of a die with core supply fails an internal check. -/
def execDieFenced (d : DieId) (s : State) : Out :=
  .next (whenB ((s.sys.clk.get d).supplied) s (fun s => (s.fenceDie d).nextReset))

/-! ### Power-on and resets -/

/-- The image kind of an activation's key. -/
def kindOf (a : Nat) : ImageKind := if a = 0 then .steward else if a = 3 then .runtime else .wardenFw

/-- Warden resumes an interrupted activation at the first step not verified, to its end (R585, R593). -/
def State.resumeActivation (s : State) : State :=
  match s.sys.warden.activating with
  | none => s
  | some (a, n) => eachOf ((List.range 5).filter (fun i => decide (n < i))) (fun i s => s.activateStep (kindOf a) i) s

/-- Everything at its power-on value, but the fuses, the fuse journal and Warden's flash (R581). What waits outside the tray, what has
left it, and the model's own counter of free values go on. -/
def State.coldStart (s : State) : State :=
  let w := s.sys.warden
  { State.reset with
    pending := s.pending, free := s.free, io := { State.reset.io with outputs := s.io.outputs }
    sys := { State.reset.sys with
      fuses := s.sys.fuses
      warden := { State.reset.sys.warden with
        powered := true, running := true, pulse := true, journal := w.journal, trayKey := w.trayKey, mgtOffline := w.mgtOffline
        images := w.images, activating := w.activating, verified := w.verified } } }

/-- The core supply of all four dies is applied (R593). -/
def State.supplyAll (s : State) : State :=
  eachOf [0, 1, 2, 3] (fun d s => s.modClk d (fun k => { k with supplied := true }))
    { s with sys := { s.sys with trayBring := true } }

/-- POWER_ON (R593): input power in range reaches a Warden without power: one that has never started, or one whose input has failed
(R578). -/
def execPowerOn (s : State) : Out :=
  .next (whenB (!s.sys.warden.powered || s.sys.warden.inputFault) s (fun s => s.coldStart.readJournal.resumeActivation.supplyAll))

/-- TRAY_RESET (R593). -/
def execTrayReset (s : State) : Out := .next (whenB s.sys.warden.running s (fun s => s.trayReset))

/-- DIE_RESET (R608): a die reset is asked for; it runs once no other does. A die without core supply returns only at a tray reset
(R576). -/
def execDieReset (d : DieId) (s : State) : Out :=
  .next (whenB (s.sys.warden.running && (s.sys.clk.get d).supplied) s (fun s =>
    (s.modWarden (fun w => { w with resetQueue := w.resetQueue ++ [d.val] })).nextReset))

/-! ### The steps of a die (R595) -/

/-- Whether a die's next bring-up step is `n`. -/
def State.stepDue (s : State) (d n : Nat) : Bool :=
  let k := s.sys.clk.get d
  k.supplied && !s.dieFencedB d && !k.ready && decide (k.step + 1 = n)

/-- A step of a die begins and runs (R595, R605); where it fences the die, a waiting die reset may begin (R608, R612). -/
def State.bringStep (s : State) (d n : Nat) (f : State → State) : Out :=
  .next (whenB (s.stepDue d n) s (fun s => (f (s.modClk d (fun k => { k with step := n, stepAge := 0 }))).nextReset))

/-- The fused-off SCs of a die show FUSED (R3, R630). -/
def State.loadFuses (s : State) (d : Nat) : State :=
  eachOf ((List.range 16).filter (fun i => s.scFused d i)) (fun i s => s.modUnit d i (fun r => { r with st := .fused })) s

/-- Whether a die's UDS check holds (R533). -/
def State.udsOk (s : State) (d : Nat) : Bool := (s.sys.fuses.uds.get d).any (fun u => decide (u.2 = sha384 u.1))

/-- D1 (R595): fuses are loaded and the DeviceID is derived from a UDS that passes its check. -/
def execD1 (d : DieId) (fusesOk : Bool) (s : State) : Out :=
  s.bringStep d 1 (fun s =>
    if fusesOk then let s1 := s.loadFuses d; s1.modSec d (fun c => { c with keyOk := s1.udsOk d }) else s.fenceDie d)

/-- D2 (R595, R39): the die locks to the Pulse, and TICK is 0. The heartbeat's bound is counted from here (R523). -/
def execD2 (d : DieId) (locked : Bool) (s : State) : Out :=
  s.bringStep d 2 (fun s =>
    if locked && s.sys.warden.pulse then
      (s.modClk d (fun k => { k with locked := true, tick := 0, wraps := 0 })).modRas (fun r => { r with heartbeat := r.heartbeat.set d 0 })
    else (s.log d 255 none .pulseLost 0 0).fenceDie d)

/-- The stack of an HC of a die has trained, or the HC is fenced with HBM_TRAIN_FAIL (R595). -/
def State.trainStack (s : State) (d i : Nat) (ok : Bool) : State :=
  if ok then s.modClk d (fun k => { k with trained := k.trained ++ [i] }) else s.fenceUnit d (28 + i) Code.hbmTrainFail.val

/-- D3 (R595): HC0 and stack 0; without them the die is fenced (R518). -/
def execD3 (d : DieId) (trained : Bool) (s : State) : Out := s.bringStep d 3 (fun s => s.trainStack d 0 trained)

/-- No image of a kind is accepted (R539): `warden` says who logs it. -/
def State.noImage (s : State) (d : Nat) (warden : Bool) : State :=
  (if warden then s.wardenLog d .imageAuthFail d 0 else s.log d (ctlNode d) none .imageAuthFail d 0).fenceDie d

/-- The bytes of an image that a die runs lie in its system memory (R225, R595), at the start of Steward's part of it (R636). -/
def State.placeImage (s : State) (d : Nat) (k : ImageKind) (img : RunImage) : State :=
  s.pokeMem (sysBase d + 0x18000000) ((s.sys.warden.images.get (imageKey k img.copy)).take 0x7E00000)

/-- D4 (R595, R539): the ROM takes Steward from Warden into system memory; Steward learns the life-cycle state (R550) and takes the cluster runtime. -/
def execD4 (d : DieId) (s : State) : Out :=
  if !s.sys.warden.running then .next s
  else s.bringStep d 4 (fun s =>
    match s.bootImage d .steward with
    | none => s.noImage d true
    | some img =>
      let w := s.sys.warden
      let s1 := (s.placeImage d .steward img).modSec d (fun c => { c with
        steward := some img, lc := some w.lc, slotsUsed := w.slotsUsed.length, torn := w.readJournal.2.2.length })
      match s1.bootImage d .runtime with
      | none => s1.noImage d false
      | some rt => s1.modSec d (fun c => { c with runtime := some rt }))

/-- D5 (R595): Steward trains HC1 to HC3. -/
def execD5 (d : DieId) (hc1 hc2 hc3 : Bool) (s : State) : Out :=
  s.bringStep d 5 (fun s => ((s.trainStack d 1 hc1).trainStack d 2 hc2).trainStack d 3 hc3)

/-- An SC whose ZCG known-answer vectors fail (R118). -/
def State.katFails (s : State) (d u : Nat) : State :=
  if (s.unitRec d u).st = .inService then
    (s.log d (unitNode d u) none .zcgKatFail 0 0).fenceUnit d u Code.zcgKatFail.val
  else s

/-- The enabled Spindles of a die start (R104, R595). -/
def State.startSpindles (s : State) (d : Nat) : State :=
  eachOf [false, true] (fun south s =>
    if bitOf (s.appWord ⟨.secSpindlectl, d, b2n south, 0⟩) 0 && decide ((s.comp.spindles.get (spindleKey d south)).st = .off) then
      s.modSpindle (spindleKey d south) (·.start)
    else s) s

/-- The security engine's generator is instantiated (R536), if a Spindle gives bytes; else it retries at a generate call. -/
def State.seedDrbg (s : State) (d : Nat) : State :=
  match s.draw d 48 with
  | (.bytes b, s1) => s1.modSec d (fun c => { c with drbg := ⟨true, b, 0⟩ })
  | _ => s

/-- D6 (R595, R597): units that fail their tests are fenced; FUSED ones are not tested, and links are trained later. -/
def execD6 (d : DieId) (failed : List UnitNo) (katFailed : List (Fin 16)) (ctlOk : Bool) (s : State) : Out :=
  s.bringStep d 6 (fun s =>
    if !ctlOk then s.fenceDie d
    else
      let s1 := eachOf katFailed (fun u s => s.katFails d u) s
      let s2 := eachOf (failed.filter (fun u => decide (u.val < 32))) (fun u s => s.fenceUnit d u Code.unitInternal.val) s1
      if s2.dieFencedB d then s2 else (s2.startSpindles d).seedDrbg d)

/-- Every memory of a die but system memory is cleared, and nothing is left dirty (R598). -/
def State.clearDie (s : State) (d : Nat) : State :=
  ((eachOf (List.range 32) (fun u s => s.clearUnit d u) s).clearCells (fun n => nodeDie n == d)).modSec d (fun c =>
    { c with dirtyUnits := [], dirtyFrames := [] })

/-- D7 (R595, R598). -/
def execD7 (d : DieId) (s : State) : Out := s.bringStep d 7 (fun s => s.clearDie d)

/-! ### Links and alignment (R599, R600) -/

/-- A link that does not come up in bring-up is DOWN, and fenced with LINK_DOWN at the ends in service (R599). -/
def State.linkStays (s : State) (d e : Nat) : State :=
  let u := linkUnit d e
  let s1 := s.modLink (linkKey d e) (fun l => { l with st := .down, retrainStart := none, degrading := false, cmpLo := none, cmpHi := none })
  eachOf ([d, e].filter (fun x => decide ((s.unitRec x u).st = .inService) && (x == d || s.dieUp e)))
    (fun x s => s.markFenced x u Code.linkDown.val) s1

/-- Whether one end of a link lets it train: it is in service, or fenced with LINK_DOWN alone (R362). -/
def State.linkEndOk (s : State) (d u : Nat) : Bool :=
  let r := s.unitRec d u
  decide (r.st = .inService) || (decide (r.st = .fenced) && decide (r.cause = Code.linkDown.val))

/-- A die trains its link to die `e` at D8 (R599): at once where `e` has reached D8, else later, when `e` does. -/
def State.trainLink (s : State) (d e : Nat) (full lo hi : Bool) : State :=
  let k := s.sys.clk.get e
  let u := linkUnit d e
  if s.dieFencedB e || !k.supplied || !s.linkEndOk d u || !s.linkEndOk e u then s.linkStays d e
  else if k.step < 8 then s.modLink (linkKey d e) (fun l => { l with st := .training, retrainStart := none, degrading := false })
  else
    match ({ s.link.links.get (linkKey d e) with degrading := false }).trained (s.halfOnly d e) full lo hi with
    | some l => ((s.modLink (linkKey d e) (fun _ => l)).linkServes d u).linkServes e u
    | none => s.linkStays d e

/-- D8 (R595, R599): `full`, `lo` and `hi` hold, for links 1 to 3, which widths trained. -/
def execD8 (d : DieId) (full lo hi : BitVec 3) (s : State) : Out :=
  s.bringStep d 8 (fun s =>
    eachOf [1, 2, 3] (fun k s =>
      s.trainLink d (d.val ^^^ k) (bitOf full.toNat (k - 1)) (bitOf lo.toNat (k - 1)) (bitOf hi.toNat (k - 1))) s)

/-- Links of a die whose peer has not reached D8 by the end of its step (R599). -/
def State.dropWaitingLinks (s : State) (d : Nat) : State :=
  eachOf ([0, 1, 2, 3].filter (fun e => e != d && (s.link.links.get (linkKey d e)).st == .training
    && (s.link.links.get (linkKey d e)).retrainStart.isNone)) (fun e s => s.linkStays d e) s

/-- A die counts as aligned from its own count (R600). -/
def State.makeReference (s : State) (d : Nat) : State :=
  let s1 := s.modClk d (fun k => { k with aligned := true })
  { s1 with sys := { s1.sys with refDie := some d } }

/-- A reference sends its alignment word over an up link (R363). -/
def State.sendAlign (s : State) (r d : Nat) : State :=
  if s.linkUp r d && !s.dieFencedB r then
    s.modDir (dirKey r d) (fun w => { w with words := w.words ++
      [⟨.align, (s.sys.clk.get r).tick, BitVec.ofNat 64 (s.tickAfter r (s.linkLag r d)), false⟩] })
  else s

/-- A lower-numbered die reaches D9 in the tick in which the first die did: it is the reference in that die's place (R600). -/
def State.replaceReference (s : State) (r d : Nat) : State :=
  let s1 := s.modClk r (fun k => { k with aligned := false })
  let s2 := eachOf ([0, 1, 2, 3].filter (fun e => e != r)) (fun e s =>
    s.modDir (dirKey r e) (fun w => { w with words := w.words.filter (fun x => decide (x.kind ≠ .align)) })) s1
  eachOf ([0, 1, 2, 3].filter (fun e => e != d && (s2.sys.clk.get e).step == 9)) (fun e s => s.sendAlign d e) (s2.makeReference d)

/-- The reference of a single die reset (R363): the lowest-numbered aligned die in service with an up link to the die. -/
def State.referenceOf (s : State) (d : Nat) : Option Nat := s.alignedDies.find? (fun e => e != d && s.linkUp d e)

/-- D9 (R595, R600): links that still wait are DOWN; the reference sends its alignment word, or this die is the reference. -/
def execD9 (d : DieId) (s : State) : Out :=
  s.bringStep d 9 (fun s0 =>
    let s := s0.dropWaitingLinks d
    if s.sys.trayBring then
      match s.sys.refDie with
      | none => s.makeReference d
      | some r => if d.val < r && (s.sys.clk.get r).stepAge == 0 && (s.sys.clk.get r).step == 9 then s.replaceReference r d
        else s.sendAlign r d
    else match s.referenceOf d with
      | some r => s.sendAlign r d
      | none => s)

/-- Whether an alignment word is on its way to a die. -/
def State.alignComing (s : State) (d : Nat) : Bool :=
  [0, 1, 2, 3].any (fun r => r != d && (s.link.dirs.get (dirKey r d)).words.any (fun w => decide (w.kind = .align)))

/-- Warden's unit states are applied (R591, R601): every OFFLINE it keeps, then every request that arrived during bring-up, in
order. -/
def State.applyUnitStates (s : State) (d : Nat) : State :=
  let keep := (List.range 35).filter (fun u => s.sys.warden.mgtOffline.contains (unitKey d u))
  let s1 := eachOf keep (fun u s => (s.changeUnit d u false true 0).2) s
  let mine := s1.sys.warden.held.filter (fun h => h.die == d)
  eachOf mine (fun h s => s.applySetUnit h.die h.unit h.online)
    (s1.modWarden (fun w => { w with held := w.held.filter (fun h => h.die != d) }))

/-- The die sets READY, RESETS advances, and Warden has its notices (R588, R601). -/
def State.becomeReady (s : State) (d : Nat) : State :=
  if s.dieFencedB d then s
  else
    let s1 := s.modClk d (fun k => { k with ready := true, resets := (k.resets + 1) % 256 })
    (eachOf (List.range 35) (fun u s => s.notice d u) s1).judgeService

/-- D10 (R595, R601, R612): it begins once no alignment word is on its way. -/
def execD10 (d : DieId) (s : State) : Out :=
  if s.alignComing d then .next s
  else s.bringStep d 10 (fun s => ((if s.sys.warden.running then s.applyUnitStates d else s).becomeReady d))

/-- BRING_UP_TIMEOUT (R596): 1,250 ms, 312,500,000 ticks, after its core supply the die is not ready. -/
def execBringUpTimeout (d : DieId) (s : State) : Out :=
  let k := s.sys.clk.get d
  .next (whenB (s.sys.warden.running && k.supplied && !k.ready && !s.dieFencedB d && decide (312500000 ≤ k.age)) s
    (fun s => (s.fenceDie d).nextReset))

end Sys2Proof.Machine
end

