-- ==== Sys2Proof/Machine/RegRows.lean ====
section
/-! DEFINITION. Accesses of functions to the set-up registers through BAR0 (R497, R616 to R633), shadows that take effect (R349, R497),
and the effects of NET_REGION and GLB_BOOTMAP once they are applied (R607). -/

namespace Sys2Proof.Machine

/-! ### MSI-X tables (R633) -/

/-- A vector's mask bit takes a value; where it becomes 0 a pending message goes out (R493). -/
def State.setMask (s : State) (port func v : Nat) (mask : Bool) : State :=
  let k := (func, v)
  let pend := (s.io.hps.get port).pendingMsi.get k
  let s1 := s.modHp port (fun h => { h with masked := h.masked.set k mask })
  if !mask && pend then (s1.modHp port (fun h => { h with pendingMsi := h.pendingMsi.set k false })).msix port func v else s1

/-- An 8-byte word of a function's MSI-X table: the address of an entry, or its data with the mask in bit 32. -/
def State.msixWord (s : State) (port func off : Nat) : Nat :=
  let h := s.io.hps.get port
  let k := (func, off / 16)
  let t := h.table.get k
  if off % 16 = 0 then t.1.toNat else t.2.toNat + 2 ^ 32 * b2n (h.masked.get k)

/-- The pending bits of 64 vectors. -/
def State.pbaWord (s : State) (port func off : Nat) : Nat :=
  (List.range 64).foldl (fun w i => w + 2 ^ i * b2n ((s.io.hps.get port).pendingMsi.get (func, 8 * off + i))) 0

/-- A word with the written half, or all of it, taken from `v`. -/
def halves (cur : Nat) (w : BarWidth) (v : Nat) : Nat :=
  match w with
  | .full => v
  | .low => cur / 2 ^ 32 * 2 ^ 32 + v % 2 ^ 32
  | .high => v % 2 ^ 32 * 2 ^ 32 + cur % 2 ^ 32

/-- A write to a function's MSI-X table. -/
def State.msixWrite (s : State) (port func off : Nat) (w : BarWidth) (v : Nat) : State :=
  let k := (func, off / 16)
  let new := halves (s.msixWord port func off) w v
  let t := (s.io.hps.get port).table.get k
  let put (e : Word × Word32) (s : State) : State := s.modHp port (fun h => { h with table := h.table.set k e })
  if off % 16 = 0 then put (BitVec.ofNat 64 new, t.2) s
  else (put (t.1, BitVec.ofNat 32 (new % 2 ^ 32)) s).setMask port func (off / 16) (bitOf new 32)

/-! ### Writes -/

/-- A BAR0 write of a function (R497 to R499, R617, R620, R622, R633): one that is not aligned, or comes before the port is open (R602)
or in NO_SERVICE (R524), is dropped; `ok` says which registers the command names. -/
def State.barStore (s : State) (f : FuncRef) (off : Nat) (w : BarWidth) (v : Nat) (ok : RegName → Bool) (msix : Bool) : State :=
  let port := f.port.val
  let func := f.func.val
  if decide (off % 8 ≠ 0) || !s.dieServes port then s
  else match s.barTarget port func off with
    | .reg k => if ok k.name then s.barWrite port func off k w v else s
    | .msix o => if msix then s.msixWrite port func o w v else s
    | .pba _ => s
    | .reserved => s

/-- REGISTER_WRITE (R497). -/
def execRegisterWrite (f : FuncRef) (off : Nat) (w : BarWidth) (value : Word) (s : State) : Out :=
  .next (s.barStore f off w value.toNat (fun _ => true) true)

/-- NET_SHARE_WRITE (R330): a write of NET_SHARE or NET_SEAMSHARE. -/
def execNetShareWrite (f : FuncRef) (off : Nat) (w : BarWidth) (value : Word) (s : State) : Out :=
  .next (s.barStore f off w value.toNat (fun n => decide (n = .netShare) || decide (n = .netSeamshare)) false)

/-- EXACT_EN_WRITE (R149): a write of TE_MODECTL. -/
def execExactEnWrite (f : FuncRef) (off : Nat) (w : BarWidth) (value : Word) (s : State) : Out :=
  .next (s.barStore f off w value.toNat (fun n => decide (n = .teModectl)) false)

/-! ### Shadows (R349, R438, R497, R631) -/

/-- Whether a die is in the first tick of a window (R324). -/
def State.windowStarts (s : State) (d : Nat) : Bool := decide (s.tickOf d % 8 = 0)

/-- The BOUNDARY fields of a register whose engine runs no request take effect. Steering destinations follow the transmit side and ring
registers their ring, in steps of their own. -/
def State.applyShadow (s : State) (k : RegKey) : State :=
  match k.name with
  | .netShare | .netSeamshare => whenB (s.windowStarts k.a) s (fun s => s.applyShares k)
  | .strRxquota => whenB (s.windowStarts k.a) s (fun s => s.applyBoundary k (fun f => !s.partRuns (8 * k.c + f.lo / 8)))
  | .suaReplicacap | .teBudget =>
    whenB ((s.admitDie k.a).all s.windowStarts && !s.partRuns k.a) s (fun s => s.applyBoundary k (fun _ => true))
  | .detTrailctl => whenB (!s.partRuns k.b) s (fun s => s.applyBoundary k (fun _ => true))
  | _ => s

/-- SHADOW_APPLY (R497): `off` is the register's offset in a PF's BAR0; the write came in an earlier tick. -/
def execShadowApply (off : Nat) (s : State) : Out :=
  .next (match pfTarget 0 off with
    | .reg k => if s.settled k then s.applyShadow k else s
    | _ => s)

/-! ### Reads (R617, R619, R622, R629) -/

/-- The bytes of a read of a word. -/
def readBytes (w : BarWidth) (v : Nat) : List Byte :=
  match w with
  | .full => leBytes 8 v
  | .low => leBytes 4 (v % 2 ^ 32)
  | .high => leBytes 4 (v / 2 ^ 32)

/-- A read of GLB_TICK (R629): of the lower half latches the upper half for the function; of the upper half takes a latch that is
held. -/
def State.tickRead (s : State) (port func : Nat) (k : RegKey) (w : BarWidth) : List Byte × State :=
  let key := (port, func, k)
  let t := s.tickOf k.a
  match w with
  | .full => (leBytes 8 t, s)
  | .low => (readBytes .low t, s.modRegs (fun r => { r with latches := r.latches.set key (t / 2 ^ 32) }))
  | .high =>
    match s.sys.regs.latches.get? key with
    | some h => (leBytes 4 h, s.modRegs (fun r => { r with latches := r.latches.erase key }))
    | none => (readBytes .high t, s)

/-- A BAR0 read of a function. -/
def State.barLoad (s : State) (port func off : Nat) (w : BarWidth) : List Byte × State :=
  match s.barTarget port func off with
  | .reg k =>
    if (s.unreachable port k).isSome && decide (0x1000 ≤ off) then (readBytes w (2 ^ 64 - 1), s)
    else if k.name = .glbTick then s.tickRead port func k w
    else (readBytes w (s.readReg port k), s)
  | .msix o => (readBytes w (s.msixWord port func o), s)
  | .pba o => (readBytes w (s.pbaWord port func o), s)
  | .reserved => (readBytes w 0, s)

/-- GLB_TICK_READ (R629): the read is answered by the port; before it is open (R602), in NO_SERVICE (R524), or where the offset is not
aligned (R617), with Unsupported Request. At the offset of another register it is a read of that register (R15, R617, R622). -/
def execGlbTickRead (f : FuncRef) (off : Nat) (w : BarWidth) (s : State) : Out :=
  let port := f.port.val
  let func := f.func.val
  .next (if decide (off % 8 ≠ 0) || !s.dieServes port then s.emit (.hostUr port func)
    else let r := s.barLoad port func off w; r.2.emit (.hostData port func r.1 false))

/-! ### Effects of applied fields (R607) -/

/-- NET_REGION_WRITE (R607): EN of a partition's region on a die has been applied: a copy of its tables is made, or discarded. With no
space for the copy EN keeps its value 0, and CFG_NO_SPACE is logged. -/
def execNetRegionWrite (d : DieId) (p : PartId) (s : State) : Out :=
  let k : RegKey := ⟨.netRegion, d, p, 0⟩
  let en := bitOf (s.appWord k) 63
  let has := bitOf (s.appWord ⟨.memPtbase, d, p, 0⟩) 63
  .next (whenB (s.dieUp d) s (fun s =>
    if en && !has then
      match s.createTables d p with
      | some s1 => s1
      | none => (s.hwSet k 63 63 0).log d 255 (some p.val) .cfgNoSpace 0 0
    else if !en && has then s.discardTables d p
    else s))

/-- The entries of a boot window (R607): host pages of 2 MiB of the function that wrote the register, for DMA alone; with EN 0, none. -/
def bootEntries (w : Nat) (map : Bool) : List PtEntry :=
  (List.range (bitsOf w 55 52)).map (fun k =>
    ⟨k * 0x200000, true, if map then
      setFields 0 [(63, 63, 1), (62, 61, 1), (60, 59, bitsOf w 6 5), (58, 55, bitsOf w 4 1), (54, 53, 3),
        (51, 16, (bitsOf w 51 21 + k) % 2 ^ 31 * 32), (12, 12, 1)]
     else 0⟩)

/-- A change of the boot window takes effect, or is held (R239, R240); without table space nothing is mapped and CFG_NO_SPACE is logged
at the admitting die. -/
def State.bootChange (s : State) (p : Nat) (es : List PtEntry) : State :=
  let h : HeldPt := ⟨none, p, es, false⟩
  if s.behindHeld p es || s.mustHold p es then s.modMem (fun m => { m with held := m.held ++ [h] })
  else match s.changeTables p es with
    | some s1 => s1
    | none => s.log ((s.admitDie p).getD 0) 255 (some p) .cfgNoSpace 0 0

/-- BOOTMAP_APPLY (R607, R613): EN of GLB_BOOTMAP is applied: as 1 the window is mapped, as 0 the entries are removed. A partition without
page tables has nothing to map them in. -/
def execBootmapApply (p : PartId) (s : State) : Out :=
  let w := s.appWord ⟨.glbBootmap, p, 0, 0⟩
  let was := s.mem.boot.get p
  let put (v : Option Nat) (s : State) : State := s.modMem (fun m => { m with boot := m.boot.set p.val v })
  .next (whenB (!(s.tableDies p).isEmpty) s (fun s =>
    if bitOf w 63 then
      if was = some w then s else (put (some w) s).bootChange p (bootEntries w true)
    else match was with
      | some v => (put none s).bootChange p (bootEntries v false)
      | none => s))

end Sys2Proof.Machine
end

