-- ==== Sys2Proof/Machine/Riscv.lean ====
section
/-! DEFINITION. What a core does with an encoding (R171, R178): RV64I with M, A, C and Zicsr as the RISC-V specification gives them
(assumption log 9), and Xzor. -/

namespace Sys2Proof.Machine

/-! ### Compressed encodings -/

/-- An I-type word. -/
def iWord (op f3 rd rs1 imm : Nat) : Nat := op + rd * 2 ^ 7 + f3 * 2 ^ 12 + rs1 * 2 ^ 15 + imm % 4096 * 2 ^ 20

/-- An R-type word. -/
def rWord (op f3 f7 rd rs1 rs2 : Nat) : Nat := op + rd * 2 ^ 7 + f3 * 2 ^ 12 + rs1 * 2 ^ 15 + rs2 * 2 ^ 20 + f7 * 2 ^ 25

/-- An S-type word. -/
def sWord (f3 rs1 rs2 imm : Nat) : Nat :=
  0x23 + bitsOf imm 4 0 * 2 ^ 7 + f3 * 2 ^ 12 + rs1 * 2 ^ 15 + rs2 * 2 ^ 20 + bitsOf imm 11 5 * 2 ^ 25

/-- A B-type word of a compare with x0. -/
def bWord (f3 rs1 imm : Nat) : Nat :=
  0x63 + bitsOf imm 11 11 * 2 ^ 7 + bitsOf imm 4 1 * 2 ^ 8 + f3 * 2 ^ 12 + rs1 * 2 ^ 15 + bitsOf imm 10 5 * 2 ^ 25 + bitsOf imm 12 12 * 2 ^ 31

/-- A J-type word that links nowhere. -/
def jWord (imm : Nat) : Nat :=
  0x6F + bitsOf imm 19 12 * 2 ^ 12 + bitsOf imm 11 11 * 2 ^ 20 + bitsOf imm 10 1 * 2 ^ 21 + bitsOf imm 20 20 * 2 ^ 31

/-- The two's complement of a value of `w` bits, in `n` bits. -/
def widen (w n v : Nat) : Nat := ofSInt n (sInt w v)

/-- The word of a compressed encoding of quadrant 0. -/
def expandC0 (c : Nat) : Nat :=
  let rd := 8 + bitsOf c 4 2
  let rs := 8 + bitsOf c 9 7
  let w := bitsOf c 12 10 * 8 + bitsOf c 6 6 * 4 + bitsOf c 5 5 * 64
  let d := bitsOf c 12 10 * 8 + bitsOf c 6 5 * 64
  match bitsOf c 15 13 with
  | 0 => iWord 0x13 0 rd 2 (bitsOf c 12 11 * 16 + bitsOf c 10 7 * 64 + bitsOf c 6 6 * 4 + bitsOf c 5 5 * 8)
  | 2 => iWord 0x03 2 rd rs w
  | 3 => iWord 0x03 3 rd rs d
  | 6 => sWord 2 rs rd w
  | _ => sWord 3 rs rd d

/-- The word of a compressed encoding of quadrant 1. -/
def expandC1 (c : Nat) : Nat :=
  let rd := bitsOf c 11 7
  let rp := 8 + bitsOf c 9 7
  let rq := 8 + bitsOf c 4 2
  let u := bitsOf c 12 12 * 32 + bitsOf c 6 2
  let imm := widen 6 12 u
  let br := widen 9 13 (bitsOf c 12 12 * 256 + bitsOf c 11 10 * 8 + bitsOf c 6 5 * 64 + bitsOf c 4 3 * 2 + bitsOf c 2 2 * 32)
  match bitsOf c 15 13 with
  | 0 => iWord 0x13 0 rd rd imm
  | 1 => iWord 0x1B 0 rd rd imm
  | 2 => iWord 0x13 0 rd 0 imm
  | 3 =>
    if rd = 2 then iWord 0x13 0 2 2 (widen 10 12 (bitsOf c 12 12 * 512 + bitsOf c 6 6 * 16 + bitsOf c 5 5 * 64 + bitsOf c 4 3 * 128 + bitsOf c 2 2 * 32))
    else 0x37 + rd * 2 ^ 7 + widen 6 20 u * 2 ^ 12
  | 4 =>
    match bitsOf c 11 10, bitsOf c 12 12, bitsOf c 6 5 with
    | 0, _, _ => iWord 0x13 5 rp rp u
    | 1, _, _ => iWord 0x13 5 rp rp (u + 0x400)
    | 2, _, _ => iWord 0x13 7 rp rp imm
    | _, 0, 0 => rWord 0x33 0 0x20 rp rp rq
    | _, 0, 1 => rWord 0x33 4 0 rp rp rq
    | _, 0, 2 => rWord 0x33 6 0 rp rp rq
    | _, 0, _ => rWord 0x33 7 0 rp rp rq
    | _, _, 0 => rWord 0x3B 0 0x20 rp rp rq
    | _, _, _ => rWord 0x3B 0 0 rp rp rq
  | 5 => jWord (widen 12 21 (bitsOf c 12 12 * 2048 + bitsOf c 11 11 * 16 + bitsOf c 10 9 * 256 + bitsOf c 8 8 * 1024 + bitsOf c 7 7 * 64
      + bitsOf c 6 6 * 128 + bitsOf c 5 3 * 2 + bitsOf c 2 2 * 32))
  | 6 => bWord 0 rp br
  | _ => bWord 1 rp br

/-- The word of a compressed encoding of quadrant 2. -/
def expandC2 (c : Nat) : Nat :=
  let rd := bitsOf c 11 7
  let rs2 := bitsOf c 6 2
  match bitsOf c 15 13 with
  | 0 => iWord 0x13 1 rd rd (bitsOf c 12 12 * 32 + rs2)
  | 2 => iWord 0x03 2 rd 2 (bitsOf c 12 12 * 32 + bitsOf c 6 4 * 4 + bitsOf c 3 2 * 64)
  | 3 => iWord 0x03 3 rd 2 (bitsOf c 12 12 * 32 + bitsOf c 6 5 * 8 + bitsOf c 4 2 * 64)
  | 4 =>
    if bitsOf c 12 12 = 0 then (if rs2 = 0 then iWord 0x67 0 0 rd 0 else rWord 0x33 0 0 rd 0 rs2)
    else if rs2 ≠ 0 then rWord 0x33 0 0 rd rd rs2
    else if rd = 0 then 0x00100073
    else iWord 0x67 0 1 rd 0
  | 6 => sWord 2 2 rs2 (bitsOf c 12 9 * 4 + bitsOf c 8 7 * 64)
  | _ => sWord 3 2 rs2 (bitsOf c 12 10 * 8 + bitsOf c 9 7 * 64)

/-- The 32-bit word that a compressed encoding stands for. -/
def expandC (c : Nat) : Nat :=
  match c % 4 with
  | 0 => expandC0 c
  | 1 => expandC1 c
  | _ => expandC2 c

/-! ### Computation -/

/-- An operation of RV64I on two values. -/
def aluBase (f3 : Nat) (alt : Bool) (a b : Word) : Word :=
  let sh := b.toNat % 64
  match f3 with
  | 0 => if alt then a - b else a + b
  | 1 => a <<< sh
  | 2 => if a.toInt < b.toInt then 1 else 0
  | 3 => if a.toNat < b.toNat then 1 else 0
  | 4 => a ^^^ b
  | 5 => if alt then a.sshiftRight sh else a >>> sh
  | 6 => a ||| b
  | _ => a &&& b

/-- An operation of the M extension on two values of `w` bits, taken as signed or unsigned integers. -/
def aluMul (w f3 : Nat) (a b : Nat) : Int :=
  let sa := sInt w a
  let sb := sInt w b
  match f3 with
  | 0 => sa * sb
  | 1 => sa * sb / 2 ^ w
  | 2 => sa * b / 2 ^ w
  | 3 => (a * b / 2 ^ w : Nat)
  | 4 => if sb = 0 then -1 else sa.tdiv sb
  | 5 => if b = 0 then -1 else (a / b : Nat)
  | 6 => if sb = 0 then sa else sa.tmod sb
  | _ => if b = 0 then a else (a % b : Nat)

/-- A value of 32 bits, sign-extended. -/
def word32 (v : Word) : Word := (v.setWidth 32).signExtend 64

/-- A 32-bit operation (OP-32, OP-IMM-32), sign-extended. -/
def alu32 (f3 : Nat) (alt : Bool) (a b : Word) : Word :=
  let sh := b.toNat % 32
  let x : Word32 := a.setWidth 32
  match f3 with
  | 0 => word32 (if alt then a - b else a + b)
  | 1 => (x <<< sh).signExtend 64
  | _ => (if alt then x.sshiftRight sh else x >>> sh).signExtend 64

/-- What OP and OP-32 compute. -/
def aluReg (word : Bool) (f7 f3 : Nat) (a b : Word) : Word :=
  let w := if word then 32 else 64
  if f7 = 1 then
    let v := BitVec.ofInt 64 (aluMul w f3 (a.toNat % 2 ^ w) (b.toNat % 2 ^ w))
    if word then word32 v else v
  else if word then alu32 f3 (decide (f7 = 0x20)) a b
  else aluBase f3 (decide (f7 = 0x20)) a b

/-- Whether a branch is taken. -/
def branchTaken (f3 : Nat) (a b : Word) : Bool :=
  match f3 with
  | 0 => decide (a = b)
  | 1 => decide (a ≠ b)
  | 4 => decide (a.toInt < b.toInt)
  | 5 => decide (b.toInt ≤ a.toInt)
  | 6 => decide (a.toNat < b.toNat)
  | _ => decide (b.toNat ≤ a.toNat)

/-! ### CSRs (R172, R177) -/

/-- The value of a CSR of a core: ZWAITLIM and ZCOREID, and the machine registers. -/
def Core.csr (k : Core) (core part : Nat) (a : Nat) : Word :=
  match a with
  | 0x300 => k.mstatus
  | 0x301 => 0x8000000000901105
  | 0x304 => k.mie
  | 0x305 => k.mtvec
  | 0x340 => k.mscratch
  | 0x341 => k.mepc
  | 0x342 => k.mcause
  | 0x343 => k.mtval
  | 0x344 => k.mip
  | 0xF14 => BitVec.ofNat 64 core
  | 0x800 => k.zwaitlim.setWidth 64
  | 0xCC0 => BitVec.ofNat 64 (part * 4096 + core)
  | _ => 0

/-- A core with a value written to a CSR: what has no place in it, or is read-only, keeps its value. Of mstatus MIE, MPIE and MPP (0 or 3)
are kept; mip takes the bits of no standard machine interrupt. -/
def Core.setCsr (k : Core) (a : Nat) (v : Word) : Core :=
  let n := v.toNat
  match a with
  | 0x300 => { k with mstatus := BitVec.ofNat 64 (bitsOf n 3 3 * 2 ^ 3 + bitsOf n 7 7 * 2 ^ 7
      + (if bitsOf n 12 11 = 3 then 3 else if bitsOf n 12 11 = 0 then 0 else bitsOf k.mstatus.toNat 12 11) * 2 ^ 11) }
  | 0x304 => { k with mie := BitVec.ofNat 64 (bitsOf n 3 3 * 2 ^ 3 + bitsOf n 7 7 * 2 ^ 7 + bitsOf n 11 11 * 2 ^ 11 + n / 2 ^ 16 * 2 ^ 16) }
  | 0x305 => { k with mtvec := BitVec.ofNat 64 (n / 4 * 4 + n % 2) }
  | 0x340 => { k with mscratch := v }
  | 0x341 => { k with mepc := BitVec.ofNat 64 (n / 2 * 2) }
  | 0x342 => { k with mcause := v }
  | 0x343 => { k with mtval := v }
  | 0x344 => { k with mip := BitVec.ofNat 64 (k.mip.toNat % 2 ^ 16 + n / 2 ^ 16 * 2 ^ 16) }
  | 0x800 => { k with zwaitlim := v.setWidth 32 }
  | _ => k

/-- A CSR instruction: the CSR's old value goes to rd; it is written, or bits of it are set or cleared, where the source is not x0 (or the
instruction always writes). -/
def Core.csrInstr (k : Core) (core part w : Nat) : Core :=
  let f3 := bitsOf w 14 12
  let a := bitsOf w 31 20
  let src : Word := if 4 ≤ f3 then BitVec.ofNat 64 (bitsOf w 19 15) else k.reg (Fin.ofNat 32 (bitsOf w 19 15))
  let old := k.csr core part a
  let new := match f3 % 4 with
    | 1 => src
    | 2 => old ||| src
    | _ => old &&& ~~~src
  let k1 := if f3 % 4 = 1 ∨ bitsOf w 19 15 ≠ 0 then k.setCsr a new else k
  (k1.setReg (bitsOf w 11 7) old).advance 4

/-- MRET (R172): the mode and interrupt enable that the exception saved, and the pc at mepc. -/
def Core.mret (k : Core) : Core :=
  let st := k.mstatus.toNat
  { k with
    pc := k.mepc, mode := if bitsOf st 12 11 = 3 then .m else .u
    mstatus := BitVec.ofNat 64 (putBits (putBits (putBits st 3 3 (bitsOf st 7 7)) 7 7 1) 12 11 0) }

/-! ### An encoding is executed -/

/-- The registers that a computation or a jump uses. -/
def computeRegs (w : Nat) : List RegNo :=
  let rd : RegNo := Fin.ofNat 32 (bitsOf w 11 7)
  let rs1 : RegNo := Fin.ofNat 32 (bitsOf w 19 15)
  let rs2 : RegNo := Fin.ofNat 32 (bitsOf w 24 20)
  match bitsOf w 6 0 with
  | 0x37 | 0x17 | 0x6F => [rd]
  | 0x13 | 0x1B | 0x67 => [rd, rs1]
  | 0x63 => [rs1, rs2]
  | _ => [rd, rs1, rs2]

/-- Computations, jumps and branches of RV64IM (R171). -/
def Core.compute (k : Core) (w len : Nat) : Core :=
  let rd := bitsOf w 11 7
  let f3 := bitsOf w 14 12
  let a := k.reg (Fin.ofNat 32 (bitsOf w 19 15))
  let b := k.reg (Fin.ofNat 32 (bitsOf w 24 20))
  let i : Word := BitVec.ofNat 64 (widen 12 64 (bitsOf w 31 20))
  let u : Word := BitVec.ofNat 64 (widen 32 64 (bitsOf w 31 12 * 4096))
  let next := k.pc + BitVec.ofNat 64 len
  let put (v : Word) : Core := (k.setReg rd v).advance len
  match bitsOf w 6 0 with
  | 0x37 => put u
  | 0x17 => put (k.pc + u)
  | 0x6F =>
    let off := widen 21 64 (bitsOf w 31 31 * 2 ^ 20 + bitsOf w 19 12 * 2 ^ 12 + bitsOf w 20 20 * 2 ^ 11 + bitsOf w 30 21 * 2)
    { (k.setReg rd next) with pc := k.pc + BitVec.ofNat 64 off }
  | 0x67 => { (k.setReg rd next) with pc := BitVec.ofNat 64 ((a + i).toNat / 2 * 2) }
  | 0x63 =>
    let off := widen 13 64 (bitsOf w 31 31 * 2 ^ 12 + bitsOf w 7 7 * 2 ^ 11 + bitsOf w 30 25 * 2 ^ 5 + bitsOf w 11 8 * 2)
    if branchTaken f3 a b then { k with pc := k.pc + BitVec.ofNat 64 off } else k.advance len
  | 0x13 => put (aluBase f3 (decide (f3 = 5) && bitOf w 30) a i)
  | 0x1B => put (alu32 f3 (decide (f3 = 5) && bitOf w 30) a i)
  | 0x3B => put (aluReg true (bitsOf w 31 25) f3 a b)
  | _ => put (aluReg false (bitsOf w 31 25) f3 a b)

/-- The operation of an AMO word. -/
def amoOp (f5 : Nat) : MemOp :=
  match f5 with
  | 0 => .amoadd
  | 1 => .amoswap
  | 2 => .lr
  | 3 => .sc
  | 4 => .amoxor
  | 8 => .amoor
  | 0xC => .amoand
  | 0x10 => .amomin
  | 0x14 => .amomax
  | 0x18 => .amominu
  | _ => .amomaxu

/-- A legal Xzor word is the instruction of its row (R178). -/
def execXzor (core : CoreId) (w : Nat) (s : State) : Out :=
  let rd : RegNo := Fin.ofNat 32 (bitsOf w 11 7)
  let rs1 : RegNo := Fin.ofNat 32 (bitsOf w 19 15)
  let rs2 : RegNo := Fin.ofNat 32 (bitsOf w 24 20)
  let aq := bitOf w 26
  match bitsOf w 14 12, bitsOf w 31 27 with
  | 0, 0 => execBfGet core rd rs1 aq s
  | 0, 1 => execBfSet core rd rs1 rs2 aq (bitOf w 25) s
  | 0, 2 => execBfWaitEq core rd rs1 rs2 aq s
  | 0, 3 => execBfWaitNe core rd rs1 rs2 aq s
  | 0, _ => execBfWaitGeu core rd rs1 rs2 aq s
  | 1, 0 => execBarArrive core rd rs1 rs2 s
  | 1, _ => execBarWait core rd rs1 rs2 s
  | 2, 0 => execLkAcq core rd rs1 s
  | 2, 1 => execLkRel core rd rs1 rs2 s
  | 2, _ => execLkInfo core rd rs1 s
  | 3, 0 => execCmdTe core rs1 rs2 s
  | 3, 1 => execCmdSua core rs1 rs2 s
  | 3, _ => execCmdRlu core rs1 rs2 s
  | _, 0 => execZtTick core rd s
  | _, 1 => execZfAll core s
  | _, 2 => execZfCmd core s
  | _, _ => execZfHost core s

/-- A system word (R172): the ECALLs of R281 and R433 are the runtime's, another ECALL and EBREAK trap; WFI only passes. -/
def State.system (s : State) (c w : Nat) (k : Core) (r : Request) : State :=
  if bitsOf w 14 12 ≠ 0 then s.modCore c (fun k => k.csrInstr c r.part w)
  else match bitsOf w 31 20 with
    | 0x000 =>
      if k.mode = .u ∧ k.reg 17 = 0x0100 then s.ecallCmd c 0x0100 .copy
      else if k.mode = .u ∧ k.reg 17 = 0x0101 then s.ecallCmd c 0x0101 .steer
      else s.coreTrap c (if k.mode = .u then 8 else 11) 0
    | 0x001 => s.coreTrap c 3 k.pc
    | 0x302 => s.modCore c Core.mret
    | _ => s.goOn c 0 0 4

/-- Registers of a system word. -/
def systemRegs (w : Nat) : List RegNo :=
  match bitsOf w 14 12 with
  | 0 => if bitsOf w 31 20 = 0 then [10, 11, 17] else []
  | f3 => Fin.ofNat 32 (bitsOf w 11 7) :: (if 4 ≤ f3 then [] else [Fin.ofNat 32 (bitsOf w 19 15)])

/-- A legal 32-bit word, or the word a compressed encoding of 2 bytes stands for, is executed (R171, R198). -/
def execWord (core : CoreId) (w len : Nat) (s : State) : Out :=
  let rd : RegNo := Fin.ofNat 32 (bitsOf w 11 7)
  let rs1 : RegNo := Fin.ofNat 32 (bitsOf w 19 15)
  let rs2 : RegNo := Fin.ofNat 32 (bitsOf w 24 20)
  let f3 := bitsOf w 14 12
  let short := decide (len = 2)
  match bitsOf w 6 0 with
  | 0x03 => execCoreAccess core ⟨.load, short, false, false⟩ (Fin.ofNat 4 (f3 % 4)) (decide (f3 < 4)) rd rs1 0 (BitVec.ofNat 12 (bitsOf w 31 20)) s
  | 0x23 => execCoreAccess core ⟨.store, short, false, false⟩ (Fin.ofNat 4 f3) false 0 rs1 rs2
      (BitVec.ofNat 12 (bitsOf w 31 25 * 32 + bitsOf w 11 7)) s
  | 0x2F => execCoreAccess core ⟨amoOp (bitsOf w 31 27), false, bitOf w 26, bitOf w 25⟩ (Fin.ofNat 4 f3) true rd rs1 rs2 0 s
  | 0x0F => execCoreAccess core ⟨.fence, false, false, false⟩ 0 false 0 0 0 (BitVec.ofNat 12 (bitsOf w 31 20)) s
  | 0x0B => execXzor core w s
  | 0x73 => .next (s.withCore core (systemRegs w) (fun k r s => s.system core w k r))
  | _ => .next (s.onCore core (s.mayAccess core .load (computeRegs w)) (fun _ _ s => s.modCore core (fun k => k.compute w len)))

/-- Whether an encoding is what the core has fetched at its pc, where it has fetched a whole instruction there (R176). -/
def Core.holds (k : Core) (word : Word32) : Bool :=
  let bs := k.parcels
  !wholeInstr bs || decide (leVal bs = word.toNat % 2 ^ (8 * bs.length))

/-- ILLEGAL_INSTRUCTION (R171, R178): a core executes an encoding: one it does not implement traps, with an mtval that is not stated, a
free value; any other has its own effect. -/
def execIllegalInstruction (core : CoreId) (word : Word32) (s : State) : Out :=
  let k := s.comp.cores.get core.val
  let w := word.toNat
  if !k.holds word then .next s
  else if !encodingLegal k.mode word then
    .next (s.withCore core [] (fun _ _ s =>
      let (n, s1) := s.takeFree
      s1.coreTrap core 2 (Config.freeWord n)))
  else if w % 4 = 3 then execWord core w 4 s
  else execWord core (expandC (w % 65536)) 2 s

end Sys2Proof.Machine
end

