-- ==== Sys2Proof/Machine/Dispatch.lean ====
section
/-! DEFINITION. One arm per command: a direct call of its meaning, or a rejection by name. -/

namespace Sys2Proof.Machine

/-- The effect of a command on everything but the queue. -/
def exec (i : Instr) (s : State) : Host.Outcome State Fault Refusal :=
  match i with
  | .pulseEdge => Sys2Proof.Machine.execPulseEdge s
  | .pulseLost d => Sys2Proof.Machine.execPulseLost d s
  | .tickCheckWord a b => Sys2Proof.Machine.execTickCheckWord a b s
  | .alignmentDecision => Sys2Proof.Machine.execAlignmentDecision s
  | .tickAlign d => Sys2Proof.Machine.execTickAlign d s
  | .flitSend node p c => Sys2Proof.Machine.execFlitSend node p c s
  | .crossingHandover node p => Sys2Proof.Machine.execCrossingHandover node p s
  | .sundyaHandover a b => Sys2Proof.Machine.execSundyaHandover a b s
  | .nearLinkPacket a b => Sys2Proof.Machine.execNearLinkPacket a b s
  | .packetEject node => Sys2Proof.Machine.execPacketEject node s
  | .netFlitUe node p => Sys2Proof.Machine.execNetFlitUe node p s
  | .netTimeout id => Sys2Proof.Machine.execNetTimeout id s
  | .windowStart d => Sys2Proof.Machine.execWindowStart d s
  | .scheduledTick node p => Sys2Proof.Machine.execScheduledTick node p s
  | .phaseNoticeArrive node p srid => Sys2Proof.Machine.execPhaseNoticeArrive node p srid s
  | .phaseBegin node p srid => Sys2Proof.Machine.execPhaseBegin node p srid s
  | .beaconOpApply node => Sys2Proof.Machine.execBeaconOpApply node s
  | .watchAnswer node => Sys2Proof.Machine.execWatchAnswer node s
  | .waitPoll core => Sys2Proof.Machine.execWaitPoll core s
  | .waitTimeout core => Sys2Proof.Machine.execWaitTimeout core s
  | .watchCancel node => Sys2Proof.Machine.execWatchCancel node s
  | .bfGet core rd rs1 aq => Sys2Proof.Machine.execBfGet core rd rs1 aq s
  | .bfSet core rd rs1 rs2 aq rl => Sys2Proof.Machine.execBfSet core rd rs1 rs2 aq rl s
  | .bfWaitEq core rd rs1 rs2 aq => Sys2Proof.Machine.execBfWaitEq core rd rs1 rs2 aq s
  | .bfWaitNe core rd rs1 rs2 aq => Sys2Proof.Machine.execBfWaitNe core rd rs1 rs2 aq s
  | .bfWaitGeu core rd rs1 rs2 aq => Sys2Proof.Machine.execBfWaitGeu core rd rs1 rs2 aq s
  | .barArrive core rd rs1 rs2 => Sys2Proof.Machine.execBarArrive core rd rs1 rs2 s
  | .barWait core rd rs1 rs2 => Sys2Proof.Machine.execBarWait core rd rs1 rs2 s
  | .lkAcq core rd rs1 => Sys2Proof.Machine.execLkAcq core rd rs1 s
  | .lkRel core rd rs1 rs2 => Sys2Proof.Machine.execLkRel core rd rs1 rs2 s
  | .lkInfo core rd rs1 => Sys2Proof.Machine.execLkInfo core rd rs1 s
  | .cmdTe core rs1 rs2 => Sys2Proof.Machine.execCmdTe core rs1 rs2 s
  | .cmdSua core rs1 rs2 => Sys2Proof.Machine.execCmdSua core rs1 rs2 s
  | .cmdRlu core rs1 rs2 => Sys2Proof.Machine.execCmdRlu core rs1 rs2 s
  | .ztTick core rd => Sys2Proof.Machine.execZtTick core rd s
  | .zfAll core => Sys2Proof.Machine.execZfAll core s
  | .zfCmd core => Sys2Proof.Machine.execZfCmd core s
  | .zfHost core => Sys2Proof.Machine.execZfHost core s
  | .coreAccess core op log2 signed rd rs1 rs2 imm => Sys2Proof.Machine.execCoreAccess core op log2 signed rd rs1 rs2 imm s
  | .copyEcall core => Sys2Proof.Machine.execCopyEcall core s
  | .steerEcall core => Sys2Proof.Machine.execSteerEcall core s
  | .teCommandArrive te => Sys2Proof.Machine.execTeCommandArrive te s
  | .matmul te => Sys2Proof.Machine.execMatmul te s
  | .combine te => Sys2Proof.Machine.execCombine te s
  | .tileStreamStart te c => Sys2Proof.Machine.execTileStreamStart te c s
  | .tileComplete te c => Sys2Proof.Machine.execTileComplete te c s
  | .tileDrainStart te c => Sys2Proof.Machine.execTileDrainStart te c s
  | .quantTileWrite te c => Sys2Proof.Machine.execQuantTileWrite te c s
  | .teCommandEnd te c => Sys2Proof.Machine.execTeCommandEnd te c s
  | .denseContribution sc => Sys2Proof.Machine.execDenseContribution sc s
  | .sweepStart req => Sys2Proof.Machine.execSweepStart req s
  | .classPhaseStart sc cls => Sys2Proof.Machine.execClassPhaseStart sc cls s
  | .flipRecordReceive sc => Sys2Proof.Machine.execFlipRecordReceive sc s
  | .sweepEnd req => Sys2Proof.Machine.execSweepEnd req s
  | .exchangeRound req => Sys2Proof.Machine.execExchangeRound req s
  | .spindleEnable d south => Sys2Proof.Machine.execSpindleEnable d south s
  | .spindleDisable d south => Sys2Proof.Machine.execSpindleDisable d south s
  | .spindleStartupPass d south samples => Sys2Proof.Machine.execSpindleStartupPass d south samples s
  | .spindleWindowClose d south samples => Sys2Proof.Machine.execSpindleWindowClose d south samples s
  | .spindleHealth d south samples => Sys2Proof.Machine.execSpindleHealth d south samples s
  | .seedDraw req => Sys2Proof.Machine.execSeedDraw req s
  | .liveKeyDraw req => Sys2Proof.Machine.execLiveKeyDraw req s
  | .hbmRefresh hc pc kind bank => Sys2Proof.Machine.execHbmRefresh hc pc kind bank s
  | .edramRefresh ms bank cycle => Sys2Proof.Machine.execEdramRefresh ms bank cycle s
  | .tableWalk node => Sys2Proof.Machine.execTableWalk node s
  | .correctionWrite at_ => Sys2Proof.Machine.execCorrectionWrite at_ s
  | .scrubVisit at_ => Sys2Proof.Machine.execScrubVisit at_ s
  | .rluCommandArrive ms => Sys2Proof.Machine.execRluCommandArrive ms s
  | .rluCommandStart ms cycle => Sys2Proof.Machine.execRluCommandStart ms cycle s
  | .rluCopy ms bank => Sys2Proof.Machine.execRluCopy ms bank s
  | .rluClear ms bank => Sys2Proof.Machine.execRluClear ms bank s
  | .rluNot ms bank => Sys2Proof.Machine.execRluNot ms bank s
  | .rluAnd ms bank => Sys2Proof.Machine.execRluAnd ms bank s
  | .rluOr ms bank => Sys2Proof.Machine.execRluOr ms bank s
  | .rluXor ms bank => Sys2Proof.Machine.execRluXor ms bank s
  | .rluXnor ms bank => Sys2Proof.Machine.execRluXnor ms bank s
  | .rluMaj ms bank => Sys2Proof.Machine.execRluMaj ms bank s
  | .rluPopcount ms bank => Sys2Proof.Machine.execRluPopcount ms bank s
  | .rluCommandEnd ms bank => Sys2Proof.Machine.execRluCommandEnd ms bank s
  | .copyArrive ms => Sys2Proof.Machine.execCopyArrive ms s
  | .copyStart ms => Sys2Proof.Machine.execCopyStart ms s
  | .copyBatch ms => Sys2Proof.Machine.execCopyBatch ms s
  | .copyEnd ms => Sys2Proof.Machine.execCopyEnd ms s
  | .linkReplay a b => Sys2Proof.Machine.execLinkReplay a b s
  | .linkRetrainEnd a b full lo hi => Sys2Proof.Machine.execLinkRetrainEnd a b full lo hi s
  | .retrain d k => Sys2Proof.Machine.execRetrain d k s
  | .launchNotice d => Sys2Proof.Machine.execLaunchNotice d s
  | .launchGo req => Sys2Proof.Machine.execLaunchGo req s
  | .launchStart req d => Sys2Proof.Machine.execLaunchStart req d s
  | .launchLate req d => Sys2Proof.Machine.execLaunchLate req d s
  | .launchReady req d => Sys2Proof.Machine.execLaunchReady req d s
  | .launchFire req d => Sys2Proof.Machine.execLaunchFire req d s
  | .trailWrite req => Sys2Proof.Machine.execTrailWrite req s
  | .replayStop req => Sys2Proof.Machine.execReplayStop req s
  | .frameReceive sp bytes fcsOk ts => Sys2Proof.Machine.execFrameReceive sp bytes fcsOk ts s
  | .eventDeadline sp stream event => Sys2Proof.Machine.execEventDeadline sp stream event s
  | .eventClose sp stream event => Sys2Proof.Machine.execEventClose sp stream event s
  | .eventRecordWrite sp stream event => Sys2Proof.Machine.execEventRecordWrite sp stream event s
  | .eventNotice sp stream => Sys2Proof.Machine.execEventNotice sp stream s
  | .strGap sp stream => Sys2Proof.Machine.execStrGap sp stream s
  | .strLinkDown sp => Sys2Proof.Machine.execStrLinkDown sp s
  | .strLinkUp sp => Sys2Proof.Machine.execStrLinkUp sp s
  | .ptpMessage d m => Sys2Proof.Machine.execPtpMessage d m s
  | .ptpHoldover d => Sys2Proof.Machine.execPtpHoldover d s
  | .digestFinal sp stream event => Sys2Proof.Machine.execDigestFinal sp stream event s
  | .steerArrive sp => Sys2Proof.Machine.execSteerArrive sp s
  | .steerTransmit sp => Sys2Proof.Machine.execSteerTransmit sp s
  | .lanternSnoop port line sn => Sys2Proof.Machine.execLanternSnoop port line sn s
  | .lanternRereadData port line bytes => Sys2Proof.Machine.execLanternRereadData port line bytes s
  | .lanternPoll port line => Sys2Proof.Machine.execLanternPoll port line s
  | .pageDoorbellWrite f off size value => Sys2Proof.Machine.execPageDoorbellWrite f off size value s
  | .cacheLineSnoop port line sn => Sys2Proof.Machine.execCacheLineSnoop port line sn s
  | .evictCrossingSnoop port line sn => Sys2Proof.Machine.execEvictCrossingSnoop port line sn s
  | .goWritepull port line drop => Sys2Proof.Machine.execGoWritepull port line drop s
  | .rdownGrant port line bytes => Sys2Proof.Machine.execRdownGrant port line bytes s
  | .ccHoldExpiry port line => Sys2Proof.Machine.execCcHoldExpiry port line s
  | .bar4Access f off a => Sys2Proof.Machine.execBar4Access f off a s
  | .memwinAccess port line a => Sys2Proof.Machine.execMemwinAccess port line a s
  | .hpCplTimeout port id => Sys2Proof.Machine.execHpCplTimeout port id s
  | .hpLinkDown port => Sys2Proof.Machine.execHpLinkDown port s
  | .hpLinkUp port cxl => Sys2Proof.Machine.execHpLinkUp port cxl s
  | .flr f => Sys2Proof.Machine.execFlr f s
  | .perst port => Sys2Proof.Machine.execPerst port s
  | .doorbellNotice d descs => Sys2Proof.Machine.execDoorbellNotice d descs s
  | .run desc => Sys2Proof.Machine.execRun desc s
  | .loadModel desc => Sys2Proof.Machine.execLoadModel desc s
  | .unload desc => Sys2Proof.Machine.execUnload desc s
  | .updateCouplings desc => Sys2Proof.Machine.execUpdateCouplings desc s
  | .bindStream desc => Sys2Proof.Machine.execBindStream desc s
  | .unbindStream desc => Sys2Proof.Machine.execUnbindStream desc s
  | .readState desc => Sys2Proof.Machine.execReadState desc s
  | .replay desc => Sys2Proof.Machine.execReplay desc s
  | .fence desc => Sys2Proof.Machine.execFence desc s
  | .ptUpdate desc => Sys2Proof.Machine.execPtUpdate desc s
  | .heldPtUpdateApply p => Sys2Proof.Machine.execHeldPtUpdateApply p s
  | .schedInstall desc => Sys2Proof.Machine.execSchedInstall desc s
  | .schedRemove desc => Sys2Proof.Machine.execSchedRemove desc s
  | .regWrite desc => Sys2Proof.Machine.execRegWrite desc s
  | .nop desc => Sys2Proof.Machine.execNop desc s
  | .requestEnd req => Sys2Proof.Machine.execRequestEnd req s
  | .completionWrite port => Sys2Proof.Machine.execCompletionWrite port s
  | .cqInterrupt p q => Sys2Proof.Machine.execCqInterrupt p q s
  | .ringEnable p cq q => Sys2Proof.Machine.execRingEnable p cq q s
  | .ringDisable p cq q => Sys2Proof.Machine.execRingDisable p cq q s
  | .registerWrite f off w value => Sys2Proof.Machine.execRegisterWrite f off w value s
  | .shadowApply off => Sys2Proof.Machine.execShadowApply off s
  | .netShareWrite f off w value => Sys2Proof.Machine.execNetShareWrite f off w value s
  | .netRegionWrite d p => Sys2Proof.Machine.execNetRegionWrite d p s
  | .unitClear d t => Sys2Proof.Machine.execUnitClear d t s
  | .bootmapApply p => Sys2Proof.Machine.execBootmapApply p s
  | .glbTickRead f off w => Sys2Proof.Machine.execGlbTickRead f off w s
  | .exactEnWrite f off w value => Sys2Proof.Machine.execExactEnWrite f off w value s
  | .unitFenced d u cause => Sys2Proof.Machine.execUnitFenced d u cause s
  | .dieFenced d => Sys2Proof.Machine.execDieFenced d s
  | .wardenHeartbeat d => Sys2Proof.Machine.execWardenHeartbeat d s
  | .wardenLost d => Sys2Proof.Machine.execWardenLost d s
  | .partitionEventWrite d => Sys2Proof.Machine.execPartitionEventWrite d s
  | .spdmRequest r path q => Sys2Proof.Machine.execSpdmRequest r path q s
  | .nonceRequest session => Sys2Proof.Machine.execNonceRequest session s
  | .lcTransition target session token => Sys2Proof.Machine.execLcTransition target session token s
  | .debugUnlock d level session token => Sys2Proof.Machine.execDebugUnlock d level session token s
  | .keyRevoke d slot => Sys2Proof.Machine.execKeyRevoke d slot s
  | .rawCapture d south value => Sys2Proof.Machine.execRawCapture d south value s
  | .getTrayStatus => Sys2Proof.Machine.execGetTrayStatus s
  | .getUnitState d u => Sys2Proof.Machine.execGetUnitState d u s
  | .setUnitState d u online session => Sys2Proof.Machine.execSetUnitState d u online session s
  | .mgtUnitreq d => Sys2Proof.Machine.execMgtUnitreq d s
  | .reset dom session => Sys2Proof.Machine.execReset dom session s
  | .setPowerCap d capW session => Sys2Proof.Machine.execSetPowerCap d capW session s
  | .commitSvn dieMask session => Sys2Proof.Machine.execCommitSvn dieMask session s
  | .readLog d index => Sys2Proof.Machine.execReadLog d index s
  | .getTid => Sys2Proof.Machine.execGetTid s
  | .getPldmVersion ty => Sys2Proof.Machine.execGetPldmVersion ty s
  | .getPldmTypes => Sys2Proof.Machine.execGetPldmTypes s
  | .getPldmCommands ty => Sys2Proof.Machine.execGetPldmCommands ty s
  | .setEventReceiver eid => Sys2Proof.Machine.execSetEventReceiver eid s
  | .firmwareComponentTransfer k image => Sys2Proof.Machine.execFirmwareComponentTransfer k image s
  | .verifyComplete k => Sys2Proof.Machine.execVerifyComplete k s
  | .activateFirmware k => Sys2Proof.Machine.execActivateFirmware k s
  | .throttleDecision d r => Sys2Proof.Machine.execThrottleDecision d r s
  | .throttle d => Sys2Proof.Machine.execThrottle d s
  | .powerLimit d r trayP1ms otherOver => Sys2Proof.Machine.execPowerLimit d r trayP1ms otherOver s
  | .thermalTrip d tj => Sys2Proof.Machine.execThermalTrip d tj s
  | .inputPowerFault => Sys2Proof.Machine.execInputPowerFault s
  | .inputPowerRestored => Sys2Proof.Machine.execInputPowerRestored s
  | .coolantTemp inlet => Sys2Proof.Machine.execCoolantTemp inlet s
  | .coolantFlow e => Sys2Proof.Machine.execCoolantFlow e s
  | .powerOn => Sys2Proof.Machine.execPowerOn s
  | .wardenReset => Sys2Proof.Machine.execWardenReset s
  | .trayReset => Sys2Proof.Machine.execTrayReset s
  | .dieReset d => Sys2Proof.Machine.execDieReset d s
  | .d1 d fusesOk => Sys2Proof.Machine.execD1 d fusesOk s
  | .d2 d locked => Sys2Proof.Machine.execD2 d locked s
  | .d3 d trained => Sys2Proof.Machine.execD3 d trained s
  | .d4 d => Sys2Proof.Machine.execD4 d s
  | .d5 d hc1 hc2 hc3 => Sys2Proof.Machine.execD5 d hc1 hc2 hc3 s
  | .d6 d failed katFailed ctlOk => Sys2Proof.Machine.execD6 d failed katFailed ctlOk s
  | .d7 d => Sys2Proof.Machine.execD7 d s
  | .d8 d full lo hi => Sys2Proof.Machine.execD8 d full lo hi s
  | .d9 d => Sys2Proof.Machine.execD9 d s
  | .d10 d => Sys2Proof.Machine.execD10 d s
  | .bringUpTimeout d => Sys2Proof.Machine.execBringUpTimeout d s
  | .partitionReset p => Sys2Proof.Machine.execPartitionReset p s
  | .unitReset d => Sys2Proof.Machine.execUnitReset d s
  | .freeRunningHandover node p => Sys2Proof.Machine.execFreeRunningHandover node p s
  | .hostReadCompletion port id ans => Sys2Proof.Machine.execHostReadCompletion port id ans s
  | .delayReqTransmit d ts frac => Sys2Proof.Machine.execDelayReqTransmit d ts frac s
  | .rawCaptureEnd d south samples => Sys2Proof.Machine.execRawCaptureEnd d south samples s
  | .bringUpTestEnd d u pass => Sys2Proof.Machine.execBringUpTestEnd d u pass s
  | .illegalInstruction core word => Sys2Proof.Machine.execIllegalInstruction core word s
  | .mctpControl r m => Sys2Proof.Machine.execMctpControl r m s
  | .msixUnmask f vector => Sys2Proof.Machine.execMsixUnmask f vector s
  | .hdmDecoderCommit port base commit => Sys2Proof.Machine.execHdmDecoderCommit port base commit s
  | .getSensorReading id => Sys2Proof.Machine.execGetSensorReading id s
  | .hbmTemperatureReadout hc temp => Sys2Proof.Machine.execHbmTemperatureReadout hc temp s

end Sys2Proof.Machine
end

