-- ==== Sys2Proof/Safety.lean ====
section
/-! DEFINITION. What counts as a safe run, in the terms claims use: no command faults or is refused; what a block has handed to its
router; and when a descriptor may be acted on and has completed. -/

namespace Sys2Proof.Machine

/-- A run of `k` steps from `s` neither faults nor is refused. -/
def Safe (k : Nat) (s : State) : Prop := ∃ t, Sys2Proof.core.run k s = .next t

/-- A packet with a payload waits at a node's router, for a node on a virtual channel (R286). -/
def State.queued (s : State) (node dst vc : Nat) (pay : Payload) : Prop :=
  ∃ p ∈ s.net.inject.get node, p.dst = .node dst ∧ p.vc = vc ∧ p.payload = pay

/-- A block has handed over a packet with a payload for a node on a virtual channel: it waits at the router, it waits for the block of the
same node, or it is on a near link (R286, R304). -/
def State.handed (s : State) (node dst vc : Nat) (pay : Payload) : Prop :=
  s.queued node dst vc pay
    ∨ (dst = node ∧ ∃ f ∈ s.net.eject.get node, f.pkt.vc = vc ∧ f.pkt.payload = pay)
    ∨ (∃ k, nearPair node (.node dst) vc = some k ∧ ∃ f ∈ s.net.near.get k, f.pkt.vc = vc ∧ f.pkt.payload = pay)

/-- A core's access to an address passes or fails the Gatehouse as `res` says, without a walk: by the translation that a walk has brought, or by
an entry of its node's cache (R232, R235). -/
def State.translates (s : State) (c : Nat) (r : Request) (op : MemOp) (va : Nat) (res : Except Code Target × State) : Prop :=
  let x := accessor r.part (coreNode c) .core (some r.id)
  let s0 := s.modCore c (fun k => { k with xlat := none })
  match (s.comp.cores.get c).xlat.filter (fun t => t.1.part == r.part && t.1.va == pageBase va t.1.big) with
  | some (tag, e, code) => code = 0 ∧ (s.checkEntry x (accessKind op) (accessAtomic op) va e tag.big, s0) = res
  | none => ¬(va < 2 ^ 57 ∧ s.noWalk (some r.id) = false ∧ (s.mem.nodes.get (coreNode c)).hit r.part va = none) ∧ s0.gate x (accessKind op) (accessAtomic op) va = res

/-- A core has taken an exception to its M-mode handler, and its request ends (R172, R180). -/
def State.trapped (t : State) (c : Nat) (k : Core) (r : Request) (cause : Nat) (tval : Word → Prop) : Prop :=
  (let k1 := t.comp.cores.get c
   k1.mcause = BitVec.ofNat 64 cause ∧ tval k1.mtval ∧ k1.mepc = k.pc ∧ k1.mode = .m
    ∧ k1.pc = BitVec.ofNat 64 (k.mtvec.toNat / 4 * 4))
  ∧ ∃ q, t.findReq r.id = some q ∧ q.step = .ending ∧ q.err.isSome = true

/-- A descriptor has completed (R490, R491): it is no longer taken, and its entry, with a code, RESULT, AUX, REPLICAS and LOWERED, is due at
its ring. -/
def State.completed (s : State) (d : Desc) (code : Half) (result : Word) (aux replicas : Nat) (lowered : Bool) : Prop :=
  (∀ x ∈ s.req.descs, x.id ≠ d.id) ∧ ∃ e ∈ s.req.due, e.desc = d.id ∧ e.part = d.part ∧ e.cq = d.cq
    ∧ e.bytes = entryBytes d code (s.ring d.part false d.sq).head result aux replicas lowered

/-- A descriptor of a kind that Steward may act on now, with an ACTIVE completion ring (R474, R491); `marked` is the state in which its row
has begun to act on it. -/
def State.mayAct (s : State) (d : Desc) (kind : Nat) (marked : State) : Prop :=
  s.req.descs.find? (fun x => x.id == d.id) = some d ∧ d.kind = kind ∧ d.started = false ∧ s.fresh d = true ∧ d.orphan = false
    ∧ (s.ring d.part true d.cq).st = 1
    ∧ marked = { s with req := { s.req with descs := mapWhere (fun x => x.id == d.id) (fun x => { x with started := true }) s.req.descs } }

end Sys2Proof.Machine
end

