-- ==== Sys2Proof/WellFormed.lean ====
section
/-! DEFINITION. Which commands name things of the tray: rows 6 and 7 of a node identifier name no node (R6); a window of
the Spindle tests holds 1,024 samples and a start-up pass 4,096 (R103, R104); a cache line is 64 bytes; a descriptor is 64
bytes (R474); a token is 168 bytes (R553). -/

namespace Sys2Proof

/-- The row a node identifier names is 0 to 5 (R5, R6). -/
def nodeOk (n : NodeId) : Bool := decide ((n.toNat / 8) % 8 ≤ 5)

/-- Whether a command's operands are of the tray. -/
def Instr.wellFormed : Instr → Bool
  | .flitSend n _ _ | .crossingHandover n _ | .packetEject n | .netFlitUe n _ | .scheduledTick n _
  | .phaseNoticeArrive n _ _ | .phaseBegin n _ _ | .beaconOpApply n | .watchAnswer n | .watchCancel n | .tableWalk n
  | .freeRunningHandover n _ => nodeOk n
  | .spindleStartupPass _ _ l => decide (l.length = 4096)
  | .spindleWindowClose _ _ l => decide (l.length = 1024)
  | .lanternRereadData _ _ b | .rdownGrant _ _ b => decide (b.length = 64)
  | .memwinAccess _ _ (.write b _) => decide (b.length = 64)
  | .doorbellNotice _ ds => ds.all (fun d => decide (d.length = 64 ∨ d.length = 0))
  | .debugUnlock _ _ _ t => decide (t.length = 168)
  | .lcTransition _ _ (some t) => decide (t.length = 168)
  | .linkReplay a b => decide (a ≠ b.die)
  | .sundyaHandover a b | .tickCheckWord a b | .linkRetrainEnd a b _ _ _ => decide (a ≠ b)
  | _ => true

end Sys2Proof
end

