-- ==== Sys2Proof/Certificates/Slice0/Obligations.lean ====
section
/-! DEFINITION. The statements for the provers: what the rules of the manual say each command does, where it runs to its own
effect, and what it leaves as it was. -/

open Sys2Proof Sys2Proof.Machine

/-! ### The whole machine -/

/-- A step performs the command at the front of the queue, with the rest of the queue behind it; with no command waiting the block idles.
The idle step is the model's choice (assumption log 3). -/
def Obligations.StepRunsFrontCommand : Prop :=
  (∀ (c : Instr) (rest : List Instr) (s : State), s.pending = c :: rest → step s = exec c { s with pending := rest })
    ∧ ∀ s : State, s.pending = [] → step s = .next s

/-- What the manual states of the tray as input power is applied: no die has core supply or counts, no die is ready, ZWAITLIM is 262,144
(R184), the power cap 560 W (R569), links are OFF, SVN and revocation fuses are 0; memory lists nothing and no command waits. The memory
and fuse contents are the model's choice (assumption logs 1, 16 and 124). -/
def Obligations.ResetState : Prop :=
  let s := State.reset
  s.pending = [] ∧ s.mem.mem.cells = [] ∧ (∀ a, s.mem.mem.byte a = 0)
    ∧ (∀ d : Fin 4, (s.sys.clk.get d.val).supplied = false ∧ (s.sys.clk.get d.val).tick = 0 ∧ (s.sys.clk.get d.val).ready = false)
    ∧ (∀ c : CoreId, (s.comp.cores.get c.val).zwaitlim = 262144 ∧ (s.comp.cores.get c.val).req = none)
    ∧ (∀ d : Fin 4, s.sys.warden.capW.get d.val = 560)
    ∧ (∀ k, (s.link.links.get k).st = .off)
    ∧ (∀ l, (s.comp.locks.get l).st = 0 ∧ (s.comp.locks.get l).epoch = 0)
    ∧ ∀ k, s.visWord k = (s.resetOf k).toNat ∧ s.appWord k = s.visWord k

/-- Memory has its canonical form at reset. -/
def Obligations.ResetMemoryCanonical : Prop :=
  State.reset.mem.mem.wf = true

/-- Every step keeps the canonical form of memory: addresses strictly rising, no byte listed that reads as an unlisted one does. -/
def Obligations.StepKeepsMemoryCanonical : Prop :=
  ∀ s t : State, s.mem.mem.wf = true → step s = .next t → t.mem.mem.wf = true

/-- No command puts a command into the queue, takes one out, or reorders it: commands are performed first in, first out. -/
def Obligations.CommandsKeepTheQueue : Prop :=
  ∀ (c : Instr) (s t : State), exec c s = .next t → t.pending = s.pending

/-- No command unblows a fuse: a die's fused SVN never falls, a revoked key slot stays revoked, the fuses of the grade, the serials, the
addresses, the fused-off SCs and the digests never change, and a UDS block, once programmed, never becomes blank (R533, R540, R541,
R558). -/
def Obligations.FusesOnlyGrow : Prop :=
  ∀ (c : Instr) (s t : State), exec c s = .next t →
    (∀ d, s.sys.fuses.svn.get d ≤ t.sys.fuses.svn.get d)
    ∧ (∀ d j, bitOf (s.sys.fuses.revoked.get d) j = true → bitOf (t.sys.fuses.revoked.get d) j = true)
    ∧ (∀ d, (s.sys.fuses.uds.get d).isSome = true → (t.sys.fuses.uds.get d).isSome = true)
    ∧ t.sys.fuses = { s.sys.fuses with svn := t.sys.fuses.svn, revoked := t.sys.fuses.revoked, uds := t.sys.fuses.uds }

/-- Every command whose operands are of the tray is answered with a next state: none faults and none is refused. A row of a node identifier
that names no node (R6) stops each command that names a router. -/
def Obligations.CommandsAnswer : Prop :=
  (∀ (c : Instr) (s : State), c.wellFormed = true → ∃ t, exec c s = .next t)
  ∧ (∀ (n : NodeId) (s : State), nodeOk n = false →
    (∀ p c, exec (.flitSend n p c) s = .fault .noSuchNode) ∧ (∀ p, exec (.crossingHandover n p) s = .fault .noSuchNode)
      ∧ (∀ p, exec (.freeRunningHandover n p) s = .fault .noSuchNode) ∧ exec (.packetEject n) s = .fault .noSuchNode
      ∧ (∀ p, exec (.netFlitUe n p) s = .fault .noSuchNode) ∧ (∀ p, exec (.scheduledTick n p) s = .fault .noSuchNode)
      ∧ (∀ p i, exec (.phaseNoticeArrive n p i) s = .fault .noSuchNode) ∧ (∀ p i, exec (.phaseBegin n p i) s = .fault .noSuchNode)
      ∧ exec (.beaconOpApply n) s = .fault .noSuchNode ∧ exec (.watchAnswer n) s = .fault .noSuchNode
      ∧ exec (.watchCancel n) s = .fault .noSuchNode ∧ exec (.tableWalk n) s = .fault .noSuchNode)

/-! ### The Pulse, TICK and alignment; Spindles (R35 to R39, R101 to R110, R363, R365) -/

/-- PULSE_EDGE, while Warden gives the Pulse: TICK advances by 1, and wraps, on every supplied die that has its Pulse lock, and on no other
(R35); no die's alignment or lock changes; no register write stays due; over each link that is up between dies that have passed D9 a check word of
t + L leaves where the sender's TICK is a multiple of 256 (R365). Where no hard action has just been taken, nothing else changes but the
registers as the hardware uses them and the next eDRAM refresh of each bank. The extended count of R634 grows by 1 at each Pulse edge of a
die that counts, through the wrap of TICK. TICK_ALIGN: a die that takes an alignment word has the TICK of the word plus L, counted on since the
handover was due, and is aligned (R363); with no error in memory and no correction queued, nothing else changes but the link's words, the
refreshes it catches up on (R220) and the wait for a heartbeat. TICK_CHECK_WORD: the oldest due check word leaves the link, and the
receiver's latest comparison says whether its TICK was t + L in the tick of the handover (R365, R36); a delayed word is not compared.
ALIGNMENT_DECISION: where two aligned dies disagree over an up link, the dies outside the kept group are marked unaligned, and the group
stays aligned (R37). -/
def Obligations.ClocksCountAndAlign : Prop :=
  (∀ s : State, s.sys.warden.pulse = true → (∀ d : DieId, (s.sys.power.get d.val).breaking = false) → ∃ t, exec .pulseEdge s = .next t
    ∧ (∀ d : DieId, (t.sys.clk.get d.val).tick
        = if (s.sys.clk.get d.val).supplied && (s.sys.clk.get d.val).locked then (s.sys.clk.get d.val).tick + 1
          else (s.sys.clk.get d.val).tick)
    ∧ (∀ d : DieId, (t.sys.clk.get d.val).aligned = (s.sys.clk.get d.val).aligned
        ∧ (t.sys.clk.get d.val).locked = (s.sys.clk.get d.val).locked)
    ∧ t.sys.regs.due = [] ∧ t.sys.regs.vis = s.sys.regs.vis
    ∧ (∀ a b : DieId, a ≠ b → (t.link.dirs.get (dirKey a.val b.val)).words = (s.link.dirs.get (dirKey a.val b.val)).words ++
        if t.linkUp a.val b.val = true ∧ 10 ≤ (t.sys.clk.get a.val).step ∧ 10 ≤ (t.sys.clk.get b.val).step
            ∧ (t.sys.clk.get a.val).locked = true ∧ t.tickOf a.val % 256 = 0 then
          [⟨.check, (t.sys.clk.get a.val).tick, BitVec.ofNat 64 (t.tickOf a.val + t.linkLag a.val b.val), false⟩] else [])
    ∧ t = { s with
        sys := { s.sys with clk := t.sys.clk, regs := t.sys.regs }, mem := { s.mem with edramNext := t.mem.edramNext }
        link := { s.link with dirs := t.link.dirs } })
  ∧ (∀ (s : State) (d : DieId), s.sys.warden.pulse = true → (s.sys.clk.get d.val).supplied = true →
    (s.sys.clk.get d.val).locked = true →
    ∃ t, exec .pulseEdge s = .next t ∧ t.extTick d.val = s.extTick d.val + 1)
  ∧ (∀ (s : State) (a d : DieId) (w : LinkWord), a ≠ d → s.linkUp a.val d.val = true → s.dueWord a.val d.val .align = some w →
    (∀ e : DieId, e < a → e ≠ d → s.linkUp e.val d.val = true → s.dueWord e.val d.val .align = none) →
    s.mem.mem.marks.entries = [] → s.ras.corrections = [] →
    ∃ t, exec (.tickAlign d) s = .next t
      ∧ (t.sys.clk.get d.val).tick = BitVec.ofNat 64 (w.tick.toNat + s.linkLag a.val d.val + s.since a.val w.due.toNat)
      ∧ (t.sys.clk.get d.val).wraps = 0 ∧ (t.sys.clk.get d.val).aligned = true
      ∧ (∀ e : DieId, e ≠ d → t.sys.clk.get e.val = s.sys.clk.get e.val)
      ∧ (t.link.dirs.get (dirKey a.val d.val)).words = (s.link.dirs.get (dirKey a.val d.val)).words.erase w
      ∧ t = { s with
          sys := { s.sys with clk := t.sys.clk }, link := { s.link with dirs := t.link.dirs }
          ras := { s.ras with heartbeat := t.ras.heartbeat }
          mem := { s.mem with edramNext := t.mem.edramNext, edramBusy := t.mem.edramBusy } })
  ∧ (∀ (s : State) (a b : DieId) (w : LinkWord), a ≠ b → s.linkUp a.val b.val = true →
    s.dueWord a.val b.val .check = some w →
    (w.delayed = false →
      ∃ t, exec (.tickCheckWord a b) s = .next t
        ∧ (t.link.dirs.get (dirKey a.val b.val)).words = (s.link.dirs.get (dirKey a.val b.val)).words.erase w
        ∧ (let same := decide (s.tickOf b.val = (w.due.toNat + s.since a.val w.due.toNat) % 2 ^ 64)
           let l := t.link.links.get (linkKey a.val b.val)
           (b < a → l.cmpLo = some same) ∧ (a < b → l.cmpHi = some same))
        ∧ t.sys.clk = s.sys.clk ∧ t.mem = s.mem ∧ t.comp = s.comp ∧ t.req = s.req)
    ∧ (w.delayed = true → exec (.tickCheckWord a b) s = .next (s.modDir (dirKey a.val b.val) (fun x => { x with words := x.words.erase w }))))
  ∧ (∀ (s : State) (a b : DieId), s.sys.warden.running = true → a.val ∈ s.alignedDies → b.val ∈ s.alignedDies → a < b →
    s.linkUp a.val b.val = true → s.agree a.val b.val = false →
    ∃ t, exec .alignmentDecision s = .next t
      ∧ ∀ d : DieId, d.val ∈ s.alignedDies →
          (t.sys.clk.get d.val).aligned = s.keptGroup.contains d.val)

/-- SPINDLE_ENABLE and SPINDLE_DISABLE: the states of R104, and nothing else changes. SPINDLE_STARTUP_PASS and SPINDLE_WINDOW_CLOSE: 4,096
samples without a failure put the Spindle in RUN; 1,024 in RUN add their conditioned bits to the pool, which never holds more than 512
bytes (R103, R104). SPINDLE_HEALTH: a failure empties the pool and starts the Spindle anew; the third within 2^28 ticks retires it
(R105). -/
def Obligations.SpindlesRun : Prop :=
  (∀ (s : State) (d : DieId) (south : Bool),
    let k := spindleKey d.val south
    let p := s.comp.spindles.get k
    (p.st = .off → s.appF .secSpindlectl d.val (b2n south) 0 0 0 = 1 → 6 ≤ (s.sys.clk.get d.val).step →
      exec (.spindleEnable d south) s = .next { s with comp := { s.comp with
        spindles := s.comp.spindles.set k { p with st := .startup, runs := List.replicate 4 (false, 0) } } })
    ∧ (p.st ≠ .retired → s.appF .secSpindlectl d.val (b2n south) 0 0 0 = 0 →
      exec (.spindleDisable d south) s = .next { s with comp := { s.comp with
        spindles := s.comp.spindles.set k { p with st := .off, pool := [], bits := [] } } }))
  ∧ (∀ (s : State) (d : DieId) (south : Bool) (xs : List Sample),
    let k := spindleKey d.val south
    let p := s.comp.spindles.get k
    (p.health (s.rctCut d.val south) (s.aptCut d.val south) xs).failed = false →
    (p.st = .startup → xs.length = 4096 →
      ∃ t, exec (.spindleStartupPass d south xs) s = .next t ∧ (t.comp.spindles.get k).st = .run
        ∧ (t.comp.spindles.get k).pool = p.pool
        ∧ t = { s with comp := { s.comp with spindles := s.comp.spindles.set k (t.comp.spindles.get k) } })
    ∧ (p.st = .run → xs.length = 1024 → p.pool.length ≤ 512 →
      ∃ t, exec (.spindleWindowClose d south xs) s = .next t ∧ (t.comp.spindles.get k).st = .run
        ∧ p.pool <+: (t.comp.spindles.get k).pool ∧ (t.comp.spindles.get k).pool.length ≤ 512
        ∧ (p.pool.length = 512 → (t.comp.spindles.get k).pool = p.pool)
        ∧ t = { s with comp := { s.comp with spindles := s.comp.spindles.set k (t.comp.spindles.get k) } }))
  ∧ (∀ (s : State) (d : DieId) (south : Bool) (xs : List Sample),
    let k := spindleKey d.val south
    let p := s.comp.spindles.get k
    let h := p.health (s.rctCut d.val south) (s.aptCut d.val south) xs
    (p.st = .run ∧ xs.length ≤ 1024 ∨ p.st = .startup ∧ xs.length ≤ 4096) → h.early = false →
    (h.rct.any id || h.apt.any id) = true →
    ∃ t, exec (.spindleHealth d south xs) s = .next t ∧ (t.comp.spindles.get k).pool = [] ∧ (t.comp.spindles.get k).bits = []
      ∧ (t.comp.spindles.get k).fails = min (2 ^ 32 - 1) (p.fails + 1)
      ∧ ((t.comp.spindles.get k).st = if 2 ≤ (p.failTicks.filter (fun x => decide (s.since d.val x < 2 ^ 28))).length
          then .retired else .startup)
      ∧ (∀ j, j ≠ k → t.comp.spindles.get j = s.comp.spindles.get j) ∧ t.mem = s.mem ∧ t.req = s.req)

/-- A draw takes the oldest bytes of the pool of each Spindle of a die that is in RUN and XORs them; with one in RUN they are its bytes
(R108). LIVE_KEY_DRAW: at the start of a segment of a live request, 16 drawn bytes become its key (R110). SEED_DRAW: 16 drawn bytes
become the seed of a request that is being admitted (R109), which goes on to launch; one without pins, without a stream input and
without a scheduled region is stated, whose clock islands are at T0 where it is reproducible (R573) and while no row command holds a bank
(R253). With no Spindle in RUN either ends with ENTROPY_UNAVAIL (R108). -/
def Obligations.DrawsGiveSeedsAndKeys : Prop :=
  (∀ (s : State) (d : DieId) (n : Nat),
    let a := 2 * d.val
    let b := 2 * d.val + 1
    let up : Nat → Prop := fun k => (s.comp.spindles.get k).st = .run
    let has : Nat → Prop := fun k => n ≤ (s.comp.spindles.get k).pool.length
    let rest : Nat → Spindle := fun k => { s.comp.spindles.get k with pool := (s.comp.spindles.get k).pool.drop n }
    (¬up a → ¬up b → s.draw d.val n = (.none, s))
    ∧ (up a → ¬up b → has a → s.draw d.val n = (.bytes (xorBytes (zeros n) ((s.comp.spindles.get a).pool.take n)),
        { s with comp := { s.comp with spindles := s.comp.spindles.set a (rest a) } }))
    ∧ (¬up a → up b → has b → s.draw d.val n = (.bytes (xorBytes (zeros n) ((s.comp.spindles.get b).pool.take n)),
        { s with comp := { s.comp with spindles := s.comp.spindles.set b (rest b) } }))
    ∧ (up a → up b → has a → has b → s.draw d.val n
        = (.bytes (xorBytes (xorBytes (zeros n) ((s.comp.spindles.get a).pool.take n)) ((s.comp.spindles.get b).pool.take n)),
          { s with comp := { s.comp with spindles := (s.comp.spindles.set a (rest a)).set b (rest b) } }))
    ∧ (up a ∧ ¬has a ∨ up b ∧ ¬has b → s.draw d.val n = (.wait, s)))
  ∧ (∀ (s s1 : State) (r : Request) (key : List Byte), s.findReq r.id = some r →
    s.draw ((s.admitDie r.part).getD 0) 16 = (.bytes key, s1) →
    (∀ g : Program, r.prog = some g → g.liveKey = none → g.sweeping = false → g.finished = false → r.live = true → r.step = .run →
      exec (.liveKeyDraw r.id) s = .next (s1.modReq r.id (fun q => { q with prog := q.prog.map (fun g => { g with liveKey := some key }) }))
        ∧ (s1.modReq r.id (fun q => { q with prog := q.prog.map (fun g => { g with liveKey := some key }) })).findReq r.id
          = some { r with prog := some { g with liveKey := some key } })
    ∧ (r.step = .arm → r.drawn = true → r.seed = [] → s.rowsRun = false → s.islandsReady r = true → r.pinCount = 0 → r.armIndex = none → r.srid = none →
      r.launch.barrier = true → (∀ e ∈ s.req.descs, e.part ≠ r.part) →
      ∃ t q, exec (.seedDraw r.id) s = .next t ∧ t.findReq r.id = some q ∧ q.seed = key ∧ q.step = .launch
        ∧ q.seqNo = s.req.seqs.get r.part ∧ t.req.seqs.get r.part = s.req.seqs.get r.part + 1
        ∧ t.comp = s1.comp ∧ t.mem = s.mem))
  ∧ (∀ (s : State) (r : Request), s.findReq r.id = some r →
    (s.draw ((s.admitDie r.part).getD 0) 16).1 = .none →
    (∀ g : Program, r.prog = some g → g.liveKey = none → g.sweeping = false → g.finished = false → r.live = true → r.step = .run →
      exec (.liveKeyDraw r.id) s = .next (s.endReq r.id .entropyUnavail 0 0))
    ∧ (r.step = .arm → r.drawn = true → r.seed = [] → s.rowsRun = false →
      exec (.seedDraw r.id) s = .next (s.endReq r.id .entropyUnavail 0 0)))

/-! ### The mesh and the links between dies (R286 to R317, R353 to R355) -/

/-- FLIT_SEND: the winner of a cycle leaves its output, and the output is used up to that cycle. At a mesh output a free-running flit is due
at the neighbour's input after the hop, 2 cycles or 5 over the seam; a tick-released one in the first cycle of the next tick, or of the one
after it where it left in the guard window (R30, R290). At the ejection port it waits for its block, at the home port for the Beacon unit, at
a Sundya port in the replay buffer. A corrected link error is counted at the router, and a data word with an uncorrectable error gives the
packet its poison mark (R315). CROSSING_HANDOVER and FREE_RUNNING_HANDOVER: the first flit of its kind that is due at an input leaves the
crossing and enters the input buffer of its VC and kind, behind the flits there, or the scheduled queue of each output it takes; a phase
notice is noted at the ports of its region (R30, R290, R291, R334, R338). SUNDYA_HANDOVER, and FREE_RUNNING_HANDOVER at the Sundya port: a
flit that is due over a link leaves the replay buffer and waits in the SL's node of the receiving die, behind the flit of its packet before it
where that still waits; a scheduled one enters the scheduled queues (R353, R354, R355). -/
def Obligations.FlitsCross : Prop :=
  (∀ (s s1 : State) (n : NodeId) (o : Port) (c : Fin 8) (e : FlitErr) (inp : Port) (f : BufFlit),
    nodeOk n = true → s.dieFencedB (nodeDie n.toNat) = false → (s.portNow n.toNat o).nextCycle ≤ c.val →
    s1 = (s.refill n.toNat (8 * s.tickOf (nodeDie n.toNat) + c.val)).checkFlit n.toNat o c.val e →
    s1.winner n.toNat o c.val = some (inp, f) →
    ∃ t, exec (.flitSend n o ⟨c, e⟩) s = .next t
      ∧ (t.net.ports.get (n.toNat, o)).nextCycle = c.val + 1
      ∧ (∀ m, o ∈ [Port.n, .e, .s, .w] → neighbour n.toNat o = some m →
          t.net.cross.get (m, opposite o) = s1.net.cross.get (m, opposite o) ++
            [⟨f.pkt, f.idx, let T := s.tickOf (nodeDie n.toNat)
              if f.pkt.tickRel then 8 * (T + if 6 ≤ c.val then 2 else 1)
              else 8 * T + c.val + if isSeam n.toNat o then 5 else 2⟩])
      ∧ (o = .l → ∃ g ∈ t.net.eject.get n.toNat, g.pkt = f.pkt ∧ g.idx = f.idx)
      ∧ (o = .h → t.net.home.get n.toNat = s1.net.home.get n.toNat ++ [f.pkt])
      ∧ (∀ a b, o = .sx → slLink n.toNat = some (a, b) →
          ∃ g ∈ (t.link.dirs.get (dirKey a b)).flight, g.pkt = f.pkt ∧ g.idx = f.idx ∧ g.due = s1.linkDue a b (s1.tickOf a) c.val f.pkt.tickRel)
      ∧ t.comp = s.comp ∧ t.mem = s.mem)
  ∧ (∀ (s : State) (n : NodeId) (o : Port) (c : Fin 8) (inp : Port) (f : BufFlit), s.winner n.toNat o c.val = some (inp, f) →
    (s.checkFlit n.toNat o c.val .corrected).net.linkCe.get n.toNat = s.net.linkCe.get n.toNat + 1
    ∧ ∀ g ∈ (s.checkFlit n.toNat o c.val .dataUe).net.bufs.get ⟨n.toNat, inp, f.pkt.vc, f.pkt.tickRel⟩,
        g.pkt.id = f.pkt.id → g.idx = f.idx → g.pkt.poison = true)
  ∧ (∀ (s : State) (n : NodeId) (p : Port) (x : CrossFlit) (rel : Bool),
    nodeOk n = true → s.dueCross n.toNat p rel = some x → (rel = false → p ≠ .sx) →
    let cmd : Instr := if rel then .crossingHandover n p else .freeRunningHandover n p
    let outs := s.outsAt n.toNat x.pkt
    let f : BufFlit := ⟨{ x.pkt with first := 0, last := x.pkt.flits }, x.idx, x.due, outs⟩
    let net : Net := { s.net with cross := s.net.cross.modify (n.toNat, p) (fun l => l.erase x) }
    (x.pkt.srid = none → x.pkt.isPhase = false → outs ≠ [] →
      exec cmd s = .next { s with net := { net with
        bufs := s.net.bufs.modify ⟨n.toNat, p, x.pkt.vc, x.pkt.tickRel⟩ (· ++ [f]) } })
    ∧ (x.pkt.srid = none → x.pkt.isPhase = false → outs = [] → exec cmd s = .next { s with net := net })
    ∧ (x.pkt.srid.isSome = true → x.pkt.isPhase = false →
      exec cmd s = .next { s with net := { net with
        schedBufs := outs.foldl (fun b o => b.modify (n.toNat, p, o) (· ++ [f])) s.net.schedBufs } })
    ∧ (∀ i k T c, x.pkt.payload = .phase i k T → s.findSched i = some c →
      ∃ t, exec cmd s = .next t ∧ t.mem = s.mem ∧ t.comp = s.comp
        ∧ ∀ q ∈ c.ports, ∀ o, q.node = n.toNat → portOfNo q.port = some o → (t.net.phases.get (n.toNat, o, i)).noted = some (k, T, true)))
  ∧ (∀ (s : State) (a b : DieId) (f : LinkFlit) (rel : Bool), a ≠ b → s.dueFlight a.val b.val rel = some f →
    let sl := slToward b.val a.val
    let cmd : Instr := if rel then .sundyaHandover a b else .freeRunningHandover (BitVec.ofNat 8 sl) .sx
    let dirs := s.link.dirs.modify (dirKey a.val b.val) (fun x => { x with flight := x.flight.erase f })
    (f.sched = false → exec cmd s = .next { s with
      link := { s.link with dirs := dirs }, net := { s.net with inject := s.net.inject.modify sl (fun l => landed l f) } })
    ∧ (f.sched = true → f.pkt.srid.isSome = true → f.pkt.isPhase = false →
      exec cmd s = .next { s with
        link := { s.link with dirs := dirs }
        net := { s.net with schedBufs := (s.outsAt sl f.pkt).foldl (fun b o => b.modify (sl, .l, o)
          (· ++ [⟨{ f.pkt with first := 0, last := f.pkt.flits }, f.idx, f.due, s.outsAt sl f.pkt⟩])) s.net.schedBufs } }))
  ∧ (∀ (l r : List Packet) (p : Packet) (f : LinkFlit),
    ((∀ q ∈ l, ¬(q.id = f.pkt.id ∧ q.last = f.idx)) →
      landed l f = l ++ [{ f.pkt with start := f.due, first := f.idx, last := f.idx + 1 }])
    ∧ (p.id = f.pkt.id → p.last = f.idx → (∀ q ∈ l ++ r, ¬(q.id = f.pkt.id ∧ q.last = f.idx)) →
      landed (l ++ p :: r) f = l ++ { p with last := f.idx + 1 } :: r))

/-- NEAR_LINK_PACKET and PACKET_EJECT: a packet that has arrived leaves the near link or the ejection port and its block acts on it (R298,
R304): a dense contribution waits at the SUA, an event waits for the event ring of the die. One that must have a CMEM bank and does not win it
stays where it is (R299). A block that is out of service, or of another partition, acts on neither (R317, R321); a packet for another
partition's block is logged, and a core's request is answered with NET_DEST_FENCED. NET_FLIT_UE: the packet of the flit leaves every buffer,
scheduled queue, crossing and link, a multicast only its own crossing, and NET_FLIT_UE is in the tray log of the die; memory and the compute
blocks are as they were (R316). NET_TIMEOUT: an access that has had no answer for 65,536 ticks is no longer awaited; a core takes its access
exception in M-mode, with mepc the address of the access, and its request ends; for another requester the request ends with NET_TIMEOUT
(R316, R180). -/
def Obligations.PacketsArriveOrAreLost : Prop :=
  (∀ (s : State) (a b : ScId) (f : CrossFlit) (m : DenseMsg),
    (s.net.near.get (a.val, b.val)).find? (fun f => s.cycleCome (scNode b.val) f.due) = some f →
    s.blockUp (scNode b.val) = true → s.foreignAt (scNode b.val) f.pkt = false → f.pkt.payload = .dense m → f.pkt.poison = false →
    exec (.nearLinkPacket a b) s = .next { s with
      net := { s.net with near := s.net.near.modify (a.val, b.val) (fun l => l.erase f) }
      comp := { s.comp with denseIn := s.comp.denseIn.modify b.val (· ++ [m]) } })
  ∧ (∀ (s : State) (a b : ScId) (f : CrossFlit) (bs : List Nat),
    (s.net.near.get (a.val, b.val)).find? (fun f => s.cycleCome (scNode b.val) f.due) = some f → f.pkt.banks b.val = some bs →
    (s.askBanks b.val (if nodeY (scNode a.val) = nodeY (scNode b.val) then 10 else 11) f.pkt.id bs).1 = false →
    ∃ t, exec (.nearLinkPacket a b) s = .next t ∧ t.net.near = s.net.near ∧ t.mem = s.mem ∧ t.comp = s.comp)
  ∧ (∀ (s : State) (n : NodeId) (p : Packet) (c : Nat) (e : EventRec), nodeOk n = true → s.ejected n.toNat = some (p, c) →
    s.foreignAt n.toNat p = false → p.payload = .event e → p.poison = false →
    let net : Net := { s.net with eject := s.net.eject.modify n.toNat (fun l => l.filter (fun f => !(f.pkt.id == p.id))) }
    (s.blockUp n.toNat = true → exec (.packetEject n) s = .next { s with
      net := net, ras := { s.ras with evtArrivals := s.ras.evtArrivals.modify (nodeDie n.toNat) (· ++ [e]) } })
    ∧ (s.blockUp n.toNat = false → exec (.packetEject n) s = .next { s with net := net }))
  ∧ (∀ (s : State) (n : NodeId) (p : Packet) (c : Nat) (m : DenseMsg), nodeOk n = true → s.ejected n.toNat = some (p, c) →
    s.foreignAt n.toNat p = true → p.payload = .dense m →
    ∃ t, exec (.packetEject n) s = .next t ∧ t.comp = s.comp ∧ t.mem = s.mem
      ∧ (t.ras.logs.get (nodeDie n.toNat)).recs.getLast?.map (fun r => (r.code, r.node)) = some (Code.netDestFenced.val, n.toNat))
  ∧ (∀ (s : State) (n : Nat) (p : Packet) (r : MemReq) (core tag : Nat), p.payload = .mem r core tag → s.foreignAt n p = false →
    nearPair n (.node p.src) 2 = none → p.src ≠ n →
    (s.notDelivered n p).queued n p.src 2 (.memAns (.fault Code.netDestFenced.val) core tag))
  ∧ (∀ (s : State) (n : NodeId) (p : Port) (x : CrossFlit), nodeOk n = true →
    (s.net.cross.get (n.toNat, p)).head? = some x →
    ∃ t, exec (.netFlitUe n p) s = .next t
      ∧ (∀ f ∈ t.net.cross.get (n.toNat, p), f.pkt.id ≠ x.pkt.id)
      ∧ (∀ m, x.pkt.dst = .node m →
          (∀ k, ∀ f ∈ t.net.bufs.get k, f.pkt.id ≠ x.pkt.id) ∧ (∀ k, ∀ f ∈ t.net.schedBufs.get k, f.pkt.id ≠ x.pkt.id)
          ∧ (∀ k, ∀ f ∈ t.net.cross.get k, f.pkt.id ≠ x.pkt.id)
          ∧ (∀ k, ∀ f ∈ (t.link.dirs.get k).flight, f.pkt.id ≠ x.pkt.id))
      ∧ ((∀ m, x.pkt.dst ≠ .node m) → t.net.bufs = s.net.bufs ∧ t.link = s.link)
      ∧ ((t.ras.logs.get (nodeDie n.toNat)).recs.getLast?.map (fun r => (r.code, r.node)) = some (Code.netFlitUe.val, n.toNat))
      ∧ t.mem = s.mem ∧ t.comp = s.comp ∧ t.sys = s.sys)
  ∧ (∀ (s : State) (w : AwaitEnt) (c : CoreId) (r : Request), s.net.waiting.find? (fun x => x.tag == w.tag) = some w → w.agent = .core c.val →
    (s.comp.cores.get c.val).req = some r.id → s.findReq r.id = some r → r.step = .run → c.val ∈ r.cores →
    s.watchHeld w.dst w.tag = false → 65536 ≤ s.since (nodeDie (coreNode c.val)) w.issued →
    ∃ t q, exec (.netTimeout w.tag) s = .next t
      ∧ (∀ x ∈ t.net.waiting, x.tag ≠ w.tag)
      ∧ (let k := t.comp.cores.get c.val
         k.mcause = BitVec.ofNat 64 w.cause ∧ k.mtval = w.tval ∧ k.mepc = ((s.comp.cores.get c.val).rewind w.tag).pc ∧ k.mode = .m
          ∧ k.req = none)
      ∧ t.findReq r.id = some q ∧ q.step = .ending ∧ t.mem = s.mem ∧ t.sys = s.sys)
  ∧ (∀ (s : State) (w : AwaitEnt) (i : Nat), s.net.waiting.find? (fun x => x.tag == w.tag) = some w →
    (∃ c, w.agent = .notify c i ∨ w.agent = .block c (some i) ∨ w.agent = .sua c i) →
    s.watchHeld w.dst w.tag = false → 65536 ≤ s.since w.die w.issued →
    exec (.netTimeout w.tag) s = .next
      (({ s with net := { s.net with waiting := s.net.waiting.filter (fun x => !(x.tag == w.tag)) } } : State).endReq i .netTimeout 0 0))

/-- WINDOW_START: once at a tick that is a multiple of 8 every FROM allowance and TO credit of the die is whole again, and the meters of other
dies are as they were (R324, R326, R327). SCHEDULED_TICK: in a reserved tick a port sends the flit its pattern position names, which
crosses to the neighbour tick-released, and is used for the rest of the tick (R335, R336); a phase notice that waits there goes ahead of it
(R339). PHASE_NOTICE_ARRIVE and PHASE_BEGIN: a notice in time waits for T_k, and the port begins the phase there; one that came late begins it
at once as if in T_k, and SCHED_LATE is logged (R339). -/
def Obligations.WindowsAndPhases : Prop :=
  (∀ (s : State) (d : DieId), s.tickOf d.val % 8 = 0 → s.net.windowAt.get d.val ≠ some (s.tickOf d.val) →
    s.net.fromSpent.rest = 0 → s.net.toSpent.rest = 0 →
    ∃ t, exec (.windowStart d) s = .next t
      ∧ (∀ p r, r < 16 → t.net.fromSpent.get (p, 16 * d.val + r) = 0)
      ∧ (∀ p r k, r < 16 → t.net.toSpent.get (p, 16 * d.val + r, k) = 0)
      ∧ (∀ p r, r / 16 ≠ d.val → t.net.fromSpent.get (p, r) = s.net.fromSpent.get (p, r))
      ∧ (∀ p r k, r / 16 ≠ d.val → t.net.toSpent.get (p, r, k) = s.net.toSpent.get (p, r, k))
      ∧ t.sys.regs.vis = s.sys.regs.vis
      ∧ t = { s with net := { s.net with
                       fromSpent := t.net.fromSpent, toSpent := t.net.toSpent
                       windowAt := s.net.windowAt.set d.val (some (s.tickOf d.val)) }
                     sys := { s.sys with regs := t.sys.regs }, io := { s.io with sps := t.io.sps } })
  ∧ (∀ (s s1 : State) (n : NodeId) (o inp : Port) (c : Sched) (f : BufFlit),
    nodeOk n = true → s.dieFencedB (nodeDie n.toNat) = false →
    s.schedAt n.toNat o = some c → s1 = s.refill n.toNat (8 * s.tickOf (nodeDie n.toNat)) → (s1.portNow n.toNat o).nextCycle = 0 →
    (s1.winner n.toNat o 0).any (fun x => x.2.pkt.isPhase) = false →
    (let ph := s1.net.phases.get (n.toNat, o, c.srid)
     let pat := c.pattern n.toNat o ph.phase
     pat ≠ [] ∧ s1.reached (nodeDie n.toNat) ph.start = true
      ∧ positionAt pat (s1.since (nodeDie n.toNat) ph.start) = (1, some inp)) →
    (s1.net.schedBufs.get (n.toNat, inp, o)).find? (fun g => g.outs.contains o) = some f →
    f.pkt.srid = some c.srid → f.pkt.tickRel = true → s1.schedRoom n.toNat o f.pkt = true →
    ∃ t, exec (.scheduledTick n o) s = .next t
      ∧ (∀ g ∈ t.net.schedBufs.get (n.toNat, inp, o), g.pkt.id = f.pkt.id → g.idx = f.idx → o ∉ g.outs)
      ∧ (t.net.ports.get (n.toNat, o)).nextCycle = 8
      ∧ (∀ m, o ∈ [Port.n, .e, .s, .w] → neighbour n.toNat o = some m → t.net.cross.get (m, opposite o)
          = s1.net.cross.get (m, opposite o) ++ [⟨f.pkt, f.idx, 8 * (s.tickOf (nodeDie n.toNat) + 1)⟩])
      ∧ (o = .l → ∃ g ∈ t.net.eject.get n.toNat, g.pkt = f.pkt ∧ g.idx = f.idx)
      ∧ (o = .h → t.net.home.get n.toNat = s1.net.home.get n.toNat ++ [f.pkt])
      ∧ (∀ a b, o = .sx → slLink n.toNat = some (a, b) →
          ∃ g ∈ (t.link.dirs.get (dirKey a b)).flight, g.pkt = f.pkt ∧ g.idx = f.idx ∧ g.sched = true)
      ∧ t.comp = s.comp ∧ t.mem = s.mem)
  ∧ (∀ (s s1 : State) (n : NodeId) (o inp : Port) (m : Nat) (c : Sched) (f : BufFlit),
    nodeOk n = true → o ∈ [Port.n, .e, .s, .w] → neighbour n.toNat o = some m → s.dieFencedB (nodeDie n.toNat) = false →
    s.schedAt n.toNat o = some c → s1 = s.refill n.toNat (8 * s.tickOf (nodeDie n.toNat)) → (s1.portNow n.toNat o).nextCycle = 0 →
    s1.winner n.toNat o 0 = some (inp, f) → f.pkt.isPhase = true →
    ∃ t, exec (.scheduledTick n o) s = .next t ∧ t.comp = s.comp ∧ t.mem = s.mem
      ∧ ∃ x ∈ t.net.cross.get (m, opposite o), x.pkt = f.pkt ∧ x.idx = f.idx)
  ∧ (∀ (s : State) (n : NodeId) (o : Port) (i : Fin 16) (k T : Nat), nodeOk n = true →
    let x := s.net.phases.get (n.toNat, o, i.val)
    (x.noted = some (k, T, true) → s.reached (nodeDie n.toNat) T = false →
      exec (.phaseNoticeArrive n o i) s = .next { s with net := { s.net with
        phases := s.net.phases.set (n.toNat, o, i.val) { x with noted := some (k, T, false) } } })
    ∧ (x.noted = some (k, T, true) → s.reached (nodeDie n.toNat) T = true →
      ∃ t, exec (.phaseNoticeArrive n o i) s = .next t ∧ t.net.phases.get (n.toNat, o, i.val) = ⟨k, T, none⟩
        ∧ (t.ras.logs.get (nodeDie n.toNat)).recs.getLast?.map (·.code) = some Code.schedLate.val)
    ∧ (x.noted = some (k, T, false) → s.reached (nodeDie n.toNat) T = true →
      exec (.phaseBegin n o i) s = .next { s with net := { s.net with
        phases := s.net.phases.set (n.toNat, o, i.val) ⟨k, T, none⟩
        past := s.net.past.modify (n.toNat, o, i.val)
          (fun l => if k = 0 then [] else l ++ [(x.phase, x.start, s.tickOf (nodeDie n.toNat))]) } }))

/-! ### Beacon and cores (R168 to R210) -/

/-- BEACON_OP_APPLY of flag operations, in a router cycle that has come (R310): BF.GET and a BF.WAIT whose condition holds are answered with
the cell's value and change no cell; BF.SET writes the cell and answers the old value; a notify increment adds 1; both satisfy every watch of
the cell whose condition then holds (R182, R183, R190, R311). A wait whose condition does not hold takes the lowest free watch entry, or is
answered NOWATCH where none is free (R183, R311). Of a cell with an uncorrectable error or the poison mark BF.GET is answered with poison, and
BF.SET answers 0 and clears it (R502); a poisoned operation is not performed (R315). BEACON_OP_APPLY of BAR.ARRIVE: an arrival that is not
the last counts and latches the participants; the last one advances the generation, by 1 modulo 2^16, clears the count and satisfies the
counter's watches; one with another count, or of count 0, changes no counter and is answered for a trap (R186). BAR.WAIT is answered with
another generation at once, and else takes a watch entry (R187). -/
def Obligations.FlagsAndBarriersApply : Prop :=
  (∀ (s : State) (n : NodeId) (p : Packet) (ps : List Packet) (a : Agent) (tag cell : Nat) (v : Word32) (cond : WaitCond),
    nodeOk n = true → s.net.home.get n.toNat = p :: ps → s.cycleCome n.toNat (s.opCycle n.toNat) = true → s.foreignAt n.toNat p = false →
    a ≠ .none →
    let c := s.net.cells.get (n.toNat, cell)
    let satisfied (t : State) (x : Word32) : Prop := ∀ i w, i < 32 → s.net.watches.get (n.toNat, i) = some w → w.bar = false →
      w.cell = cell → w.answer = none → w.cond.holds x.toNat = true →
      t.net.watches.get (n.toNat, i) = some { w with answer := some (BitVec.ofNat 64 x.toNat) } ∧ i ∈ t.net.answersDue.get n.toNat
    (p.poison = false → c.ue = false → c.poison = false →
      (p.payload = .beacon (.get cell) a tag →
        ∃ t, exec (.beaconOpApply n) s = .next t ∧ t.net.cells = s.net.cells ∧ t.net.home.get n.toNat = ps
          ∧ t.queued n.toNat p.src 0 (.beaconAns (.value (c.v.setWidth 64)) a tag) ∧ t.comp = s.comp ∧ t.mem = s.mem)
      ∧ (p.payload = .beacon (.wait cell cond) a tag → cond.holds c.v.toNat = true →
        ∃ t, exec (.beaconOpApply n) s = .next t ∧ t.net.cells = s.net.cells ∧ t.net.home.get n.toNat = ps
          ∧ t.queued n.toNat p.src 0 (.beaconAns (.value (c.v.setWidth 64)) a tag) ∧ t.comp = s.comp ∧ t.mem = s.mem)
      ∧ (p.payload = .beacon (.set cell v) a tag →
        ∃ t, exec (.beaconOpApply n) s = .next t ∧ t.net.cells = s.net.cells.set (n.toNat, cell) ⟨v, false, false⟩ ∧ satisfied t v
          ∧ t.queued n.toNat p.src 0 (.beaconAns (.value (c.v.setWidth 64)) a tag) ∧ t.comp = s.comp ∧ t.mem = s.mem)
      ∧ (p.payload = .beacon (.notify cell) a tag →
        ∃ t, exec (.beaconOpApply n) s = .next t ∧ t.net.cells = s.net.cells.set (n.toNat, cell) ⟨c.v + 1, false, false⟩
          ∧ satisfied t (c.v + 1) ∧ t.comp = s.comp ∧ t.mem = s.mem)
      ∧ (p.payload = .beacon (.wait cell cond) a tag → cond.holds c.v.toNat = false →
        (∃ i, i < 32 ∧ s.net.watches.get (n.toNat, i) = none) →
        ∃ t i, exec (.beaconOpApply n) s = .next t ∧ i < 32 ∧ s.net.watches.get (n.toNat, i) = none
          ∧ (∀ j, j < i → s.net.watches.get (n.toNat, j) ≠ none)
          ∧ t.net.watches = s.net.watches.set (n.toNat, i) (some ⟨false, cell, cond, a, p.src, tag, p.part, p.req, p.tickRel, none⟩)
          ∧ t.net.cells = s.net.cells ∧ t.net.inject = s.net.inject ∧ t.comp = s.comp)
      ∧ (p.payload = .beacon (.wait cell cond) a tag → cond.holds c.v.toNat = false →
        (∀ i, i < 32 → s.net.watches.get (n.toNat, i) ≠ none) →
        ∃ t, exec (.beaconOpApply n) s = .next t ∧ t.net.watches = s.net.watches ∧ t.net.cells = s.net.cells
          ∧ t.queued n.toNat p.src 0 (.beaconAns .noWatch a tag)))
    ∧ (p.poison = false → c.ue = true ∨ c.poison = true →
      (p.payload = .beacon (.get cell) a tag →
        ∃ t, exec (.beaconOpApply n) s = .next t ∧ t.net.cells = s.net.cells.set (n.toNat, cell) ⟨c.v, true, false⟩
          ∧ t.queued n.toNat p.src 0 (.beaconAns .poison a tag))
      ∧ (p.payload = .beacon (.set cell v) a tag →
        ∃ t, exec (.beaconOpApply n) s = .next t ∧ t.net.cells = s.net.cells.set (n.toNat, cell) ⟨v, false, false⟩ ∧ satisfied t v
          ∧ t.queued n.toNat p.src 0 (.beaconAns (.value 0) a tag)))
    ∧ (p.poison = true → p.payload = .beacon (.set cell v) a tag →
      ∃ t, exec (.beaconOpApply n) s = .next t ∧ t.net.cells = s.net.cells ∧ t.queued n.toNat p.src 0 (.beaconAns .poison a tag)))
  ∧ (∀ (s : State) (n : NodeId) (p : Packet) (ps : List Packet) (a : Agent) (tag ctr count : Nat) (g : Half),
    nodeOk n = true → s.net.home.get n.toNat = p :: ps → s.cycleCome n.toNat (s.opCycle n.toNat) = true → p.poison = false →
    s.foreignAt n.toNat p = false → a ≠ .none →
    let c := s.net.counters.get (n.toNat, ctr)
    c.ue = false → c.poison = false →
    (p.payload = .beacon (.arrive ctr count) a tag →
      (count ≠ 0 → (c.latched = none ∨ c.latched = some count) → c.arrivals + 1 ≠ count →
        ∃ t, exec (.beaconOpApply n) s = .next t
          ∧ t.net.counters = s.net.counters.set (n.toNat, ctr) { c with arrivals := c.arrivals + 1, latched := some count }
          ∧ t.queued n.toNat p.src 0 (.beaconAns (.value (c.gen.setWidth 64)) a tag))
      ∧ (count ≠ 0 → (c.latched = none ∨ c.latched = some count) → c.arrivals + 1 = count →
        ∃ t, exec (.beaconOpApply n) s = .next t
          ∧ t.net.counters = s.net.counters.set (n.toNat, ctr) { c with gen := c.gen + 1, arrivals := 0, latched := none }
          ∧ (∀ i w, i < 32 → s.net.watches.get (n.toNat, i) = some w → w.bar = true → w.cell = ctr → w.answer = none →
              w.cond.holds (c.gen + 1).toNat = true →
              t.net.watches.get (n.toNat, i) = some { w with answer := some (BitVec.ofNat 64 (c.gen + 1).toNat) }
                ∧ i ∈ t.net.answersDue.get n.toNat)
          ∧ t.queued n.toNat p.src 0 (.beaconAns (.value (c.gen.setWidth 64)) a tag))
      ∧ ((count = 0 ∨ ∃ m, c.latched = some m ∧ m ≠ count) →
        ∃ t, exec (.beaconOpApply n) s = .next t ∧ t.net.counters = s.net.counters
          ∧ t.queued n.toNat p.src 0 (.beaconAns .barrierTrap a tag)))
    ∧ (p.payload = .beacon (.barWait ctr g) a tag →
      (c.gen ≠ g → ∃ t, exec (.beaconOpApply n) s = .next t ∧ t.net.counters = s.net.counters
        ∧ t.queued n.toNat p.src 0 (.beaconAns (.value (c.gen.setWidth 64)) a tag))
      ∧ (c.gen = g → (∃ i, i < 32 ∧ s.net.watches.get (n.toNat, i) = none) →
        ∃ t i, exec (.beaconOpApply n) s = .next t ∧ i < 32 ∧ s.net.watches.get (n.toNat, i) = none
          ∧ (∀ j, j < i → s.net.watches.get (n.toNat, j) ≠ none)
          ∧ t.net.watches = s.net.watches.set (n.toNat, i) (some ⟨true, ctr, .gen g, a, p.src, tag, p.part, p.req, p.tickRel, none⟩)
          ∧ t.net.counters = s.net.counters ∧ t.net.inject = s.net.inject)))

/-- BEACON_OP_APPLY of lock operations at the CTL-N of a die, on a lock of which a copy is good, in a router cycle that has come (R310,
R502). On a lock assigned to the partition: LK.ACQ takes a FREE lock with the next epoch and answers
ACQUIRED, leaves a HELD one as it is and answers BUSY with its epoch, and takes a BROKEN one with the next epoch, its cause and old
owner in the answer; LK.REL frees it only for its owner at its epoch; LK.INFO answers the lock's record (R204, R207, R209). On any other lock the operation changes
no lock's state and is answered for a trap (R210). No other lock changes. -/
def Obligations.LockOperationsApply : Prop :=
  ∀ (s : State) (n : NodeId) (p : Packet) (ps : List Packet) (core tag i part : Nat) (e : Word32),
    nodeOk n = true → s.net.home.get n.toNat = p :: ps → s.cycleCome n.toNat (s.opCycle n.toNat) = true → p.poison = false →
    s.foreignAt n.toNat p = false → p.part = some part →
    let k := 256 * nodeDie n.toNat + i
    let l := s.comp.locks.get k
    let o := s.ownerOfOp p (.core core)
    let good : Lock := { l with badA := false, badB := false }
    (l.badA && l.badB) = false →
    (s.lockAssigned (nodeDie n.toNat) i part = true →
    (p.payload = .beacon (.lkAcq i) (.core core) tag →
      (l.st = 0 ∨ l.st = 2 →
        ∃ t, exec (.beaconOpApply n) s = .next t
          ∧ t.comp.locks.get k = ⟨1, l.epoch + 1, 0, part, o.1, o.2.1, core, false, false⟩
          ∧ (∀ j, j ≠ k → t.comp.locks.get j = s.comp.locks.get j)
          ∧ t.queued n.toNat p.src 0 (.beaconAns (.value (BitVec.ofNat 64 ((l.epoch + 1).toNat * 2 ^ 32
              + if l.st = 2 then l.cause * 2 ^ 13 + l.core * 2 ^ 4 + 2 else 0))) (.core core) tag))
      ∧ (l.st = 1 →
        ∃ t, exec (.beaconOpApply n) s = .next t ∧ t.comp.locks.get k = good
          ∧ (∀ j, j ≠ k → t.comp.locks.get j = s.comp.locks.get j)
          ∧ t.queued n.toNat p.src 0 (.beaconAns (.value (BitVec.ofNat 64 (l.epoch.toNat * 2 ^ 32 + 1))) (.core core) tag)))
    ∧ (p.payload = .beacon (.lkRel i e) (.core core) tag →
        ∃ t, exec (.beaconOpApply n) s = .next t
          ∧ (let mine := l.st = 1 ∧ l.part = part ∧ l.core = core ∧ l.epoch = e
             (mine → t.comp.locks.get k = { good with st := 0 }
                ∧ t.queued n.toNat p.src 0 (.beaconAns (.value 0) (.core core) tag))
             ∧ (¬mine → t.comp.locks.get k = good ∧ t.queued n.toNat p.src 0 (.beaconAns (.value 1) (.core core) tag)))
          ∧ (∀ j, j ≠ k → t.comp.locks.get j = s.comp.locks.get j))
    ∧ (p.payload = .beacon (.lkInfo i) (.core core) tag →
        ∃ t, exec (.beaconOpApply n) s = .next t ∧ t.comp.locks.get k = good
          ∧ (∀ j, j ≠ k → t.comp.locks.get j = s.comp.locks.get j)
          ∧ t.queued n.toNat p.src 0 (.beaconAns (.value (BitVec.ofNat 64 l.record)) (.core core) tag)))
    ∧ (s.lockAssigned (nodeDie n.toNat) i part = false → ∀ op, op ∈ [BOp.lkAcq i, .lkRel i e, .lkInfo i] →
      p.payload = .beacon op (.core core) tag →
        ∃ t, exec (.beaconOpApply n) s = .next t ∧ t.comp.locks.get k = good
          ∧ (∀ j, j ≠ k → t.comp.locks.get j = s.comp.locks.get j)
          ∧ t.queued n.toNat p.src 0 (.beaconAns .targetTrap (.core core) tag))

/-- WATCH_ANSWER: in a router cycle that has come the next satisfied watch is answered with its value and its entry is free. WATCH_CANCEL: the
watch that a cancel names is freed where its condition has not been met (R184, R311). WAIT_POLL: in a later tick a core whose wait was
answered NOWATCH asks its home again, under a new tag (R183). WAIT_TIMEOUT: LIMIT ticks after the issue the core traps with mcause 25 and the
operand in mtval, its request ends, and a cancel is on its way (R180, R184); an interrupt that the core may take ends the wait with a cancel
too, mcause the interrupt's, and the request goes on (R184). mepc is the address of the wait. -/
def Obligations.WaitsAndWatches : Prop :=
  (∀ (s : State) (n : NodeId) (i : Nat) (is : List Nat) (w : Watch) (v : Word), nodeOk n = true →
    s.net.answersDue.get n.toNat = i :: is → s.cycleCome n.toNat (s.net.watchNext.get n.toNat) = true →
    s.net.watches.get (n.toNat, i) = some w → w.answer = some v → w.agent ≠ .none →
    ∃ t, exec (.watchAnswer n) s = .next t ∧ t.net.watches = s.net.watches.set (n.toNat, i) none
      ∧ t.net.answersDue.get n.toNat = is
      ∧ t.queued n.toNat w.src 0 (.beaconAns (.value v) w.agent w.tag) ∧ t.net.cells = s.net.cells ∧ t.comp = s.comp)
  ∧ (∀ (s : State) (n : NodeId) (p : Packet) (ps : List Packet) (a : Agent) (tag x : Nat), nodeOk n = true →
    s.net.home.get n.toNat = p :: ps → p.payload = .beacon (.cancel tag) a x → s.cycleCome n.toNat (s.opCycle n.toNat) = true →
    ∃ t, exec (.watchCancel n) s = .next t ∧ t.net.home.get n.toNat = ps
      ∧ (∀ i, i < 32 → t.net.watches.get (n.toNat, i)
          = if (s.net.watches.get (n.toNat, i)).any (fun w => w.tag == tag && w.answer.isNone) then none
            else s.net.watches.get (n.toNat, i))
      ∧ t.net.cells = s.net.cells ∧ t.net.counters = s.net.counters ∧ t.comp = s.comp)
  ∧ (∀ (s : State) (c : CoreId) (r : Request) (n x rd issued old last : Nat) (cond : WaitCond) (g : Half) (v pc : Word) (bar aq : Bool),
    let k := s.comp.cores.get c.val
    k.req = some r.id → s.findReq r.id = some r → k.wait = .watch n x bar cond rd v issued old (some last) aq pc →
    last ≠ s.tickOf (nodeDie (coreNode c.val)) →
    ∃ t, exec (.waitPoll c) s = .next t
      ∧ (t.comp.cores.get c.val).wait = .watch n x bar cond rd v issued s.net.nextId none aq pc
      ∧ (bar = false → t.queued (coreNode c.val) n 0 (.beacon (.wait x cond) (.core c.val) s.net.nextId))
      ∧ (bar = true → cond = .gen g → t.queued (coreNode c.val) n 0 (.beacon (.barWait x g) (.core c.val) s.net.nextId)))
  ∧ (∀ (s : State) (c : CoreId) (r : Request) (n x rd issued old : Nat) (no : Option Nat) (cond : WaitCond) (v pc : Word) (bar aq : Bool) (i : Fin 64),
    let k := s.comp.cores.get c.val
    let at_ : Word := if aq then k.pc else pc
    k.req = some r.id → s.findReq r.id = some r → k.wait = .watch n x bar cond rd v issued old no aq pc → (∀ l ∈ k.loads, l.tag ≠ old) →
    (k.zwaitlim ≠ 0 → k.zwaitlim.toNat ≤ s.since (nodeDie (coreNode c.val)) issued → r.step = .run →
      ∃ t q, exec (.waitTimeout ⟨c, none⟩) s = .next t
        ∧ (let k1 := t.comp.cores.get c.val
           k1.mcause = 25 ∧ k1.mtval = v ∧ k1.mepc = at_ ∧ k1.mode = .m ∧ k1.wait = .none)
        ∧ t.findReq r.id = some q ∧ q.step = .ending
        ∧ t.queued (coreNode c.val) n 0 (.beacon (.cancel old) .none 0))
    ∧ (k.mode = .u ∨ bitOf k.mstatus.toNat 3 = true →
      ∃ t, exec (.waitTimeout ⟨c, some i⟩) s = .next t
        ∧ (let k1 := t.comp.cores.get c.val
           k1.mcause = BitVec.ofNat 64 (2 ^ 63 + i.val) ∧ k1.mepc = at_ ∧ k1.mode = .m ∧ k1.wait = .none)
        ∧ t.req = s.req ∧ t.mem = s.mem
        ∧ t.queued (coreNode c.val) n 0 (.beacon (.cancel old) .none 0)))

/-- A core that issues a Beacon-class operation awaits its answer, and the operation is on its way on VC0 to the operand's home: BF.GET,
BF.SET, BF.WAIT.EQ, BF.WAIT.NE, BF.WAIT.GEU, BAR.ARRIVE, BAR.WAIT (R181, R182, R186, R187). With aq, and for BAR.WAIT, the core stays at it;
without, and for BAR.ARRIVE, its pc goes on (R200). Its registers and the other cores are as they were. LK.ACQ, LK.REL and LK.INFO go on VC0
to the lock table of the operand's die; BF.SET with rl, BAR.ARRIVE and LK.REL only after its earlier stores are performed (R200, R204, R207,
R209). CMD.TE, CMD.SUA, CMD.RLU, COPY and STEER: an issue that traps for no reason of R180, R190 and R191 leaves the core with one more
command outstanding, the command on its way on VC1 to its target, and the core goes on; an ECALL leaves 0 in a0 (R189, R281, R433). An
operand with a bit set outside its fields traps with mcause 24, a BAR.ARRIVE of count 0 with mcause 26, and a command for a reason of R180,
R190 and R191 with its own; mtval holds the operand, and the request ends with CORE_TRAP (R180). The core of each clause has no load under
way and no interrupt due. -/
def Obligations.OperationsIssue : Prop :=
  (∀ (s : State) (c : CoreId) (r : Request) (rd rs1 rs2 : RegNo) (aq rl : Bool) (n x : Nat),
    s.coreReq c.val = some r → s.beaconNode r.part n = true →
    let k := s.comp.cores.get c.val
    let tag := s.net.nextId
    let now := s.tickOf (nodeDie (coreNode c.val))
    k.irq = none → k.loads = [] →
    let issues (i : Instr) (op : BOp) (k1 : Core) : Prop :=
      ∃ t, exec i s = .next t ∧ t.comp = { s.comp with cores := s.comp.cores.set c.val k1 }
        ∧ t.queued (coreNode c.val) n 0 (.beacon op (.core c.val) tag) ∧ t.mem = s.mem ∧ t.sys = s.sys ∧ t.req = s.req
    let op (aq : Bool) : Core := { k with wait := .op tag rd.val aq k.pc, pc := if aq then k.pc else k.pc + 4 }
    let waits (cond : WaitCond) : Core :=
      { k with
        wait := .watch n x false cond rd.val (k.reg rs1) now tag none aq k.pc
        pc := if aq then k.pc else k.pc + 4
        ckpt := if aq then k.ckpt else k.x }
    (flagOperand (k.reg rs1).toNat = some (n, x) →
      issues (.bfGet c rd rs1 aq) (.get x) (op aq)
      ∧ (rl = false ∨ k.stores = 0 → issues (.bfSet c rd rs1 rs2 aq rl) (.set x (low32 (k.reg rs2))) (op aq))
      ∧ issues (.bfWaitEq c rd rs1 rs2 aq) (.wait x (.eq (low32 (k.reg rs2)))) (waits (.eq (low32 (k.reg rs2))))
      ∧ issues (.bfWaitNe c rd rs1 rs2 aq) (.wait x (.ne (low32 (k.reg rs2)))) (waits (.ne (low32 (k.reg rs2))))
      ∧ issues (.bfWaitGeu c rd rs1 rs2 aq) (.wait x (.geu (low32 (k.reg rs2)))) (waits (.geu (low32 (k.reg rs2)))))
    ∧ (barrierOperand (k.reg rs1).toNat = some (n, x) →
      (∀ m, countOperand (k.reg rs2).toNat = some m → m ≠ 0 → k.stores = 0 →
        issues (.barArrive c rd rs1 rs2) (.arrive x m) (op false))
      ∧ (let g : Half := BitVec.ofNat 16 (k.reg rs2).toNat
         issues (.barWait c rd rs1 rs2) (.barWait x g)
           { k with wait := .watch n x true (.gen g) rd.val (k.reg rs1) now tag none true k.pc })))
  ∧ (∀ (s : State) (c : CoreId) (r : Request) (rd rs1 rs2 : RegNo) (d i : Nat),
    s.coreReq c.val = some r →
    let k := s.comp.cores.get c.val
    let tag := s.net.nextId
    k.irq = none → k.loads = [] →
    let held (aq : Bool) : Core := { k with wait := .op tag rd.val aq k.pc, pc := if aq then k.pc else k.pc + 4 }
    let issues (j : Instr) (op : BOp) (aq : Bool) : Prop :=
      ∃ t, exec j s = .next t ∧ t.comp = { s.comp with cores := s.comp.cores.set c.val (held aq) }
        ∧ t.queued (coreNode c.val) (ctlNode d) 0 (.beacon op (.core c.val) tag) ∧ t.mem = s.mem ∧ t.sys = s.sys ∧ t.req = s.req
    lockOperand (k.reg rs1).toNat = some (d, i) →
      issues (.lkAcq c rd rs1) (.lkAcq i) true ∧ issues (.lkInfo c rd rs1) (.lkInfo i) false
        ∧ (k.stores = 0 → issues (.lkRel c rd rs1 rs2) (.lkRel i (low32 (k.reg rs2))) false))
  ∧ (∀ (s : State) (c : CoreId) (r : Request) (rs1 rs2 : RegNo) (n : Nat) (f : Option Nat),
    s.coreReq c.val = some r →
    let k := s.comp.cores.get c.val
    k.irq = none → k.loads = [] → k.cmds < 8 → k.stores = 0 → k.hostStores = 0 →
    let posts (i : Instr) (kind : CmdKind) (a b : Word) (rd : Nat) : Prop :=
      s.issueTrap r kind a.toNat b.toNat = none → targetOperand a.toNat = some (n, f) →
      let k1 : Core := { k.setReg rd 0 with cmds := k.cmds + 1, pc := k.pc + 4, wait := .none }
      ∃ t, exec i s = .next t ∧ t.comp = { s.comp with cores := s.comp.cores.set c.val k1 }
        ∧ t.handed (coreNode c.val) n 1 (.cmd kind ⟨c.val, r.id, b.toNat, f, false⟩) ∧ t.mem = s.mem ∧ t.sys = s.sys
    posts (.cmdTe c rs1 rs2) .te (k.reg rs1) (k.reg rs2) 0
    ∧ posts (.cmdSua c rs1 rs2) .sua (k.reg rs1) (k.reg rs2) 0
    ∧ posts (.cmdRlu c rs1 rs2) .rlu (k.reg rs1) (k.reg rs2) 0
    ∧ (k.reg 17 = 0x0100 → posts (.copyEcall c) .copy (k.reg 10) (k.reg 11) 10)
    ∧ (k.reg 17 = 0x0101 → posts (.steerEcall c) .steer (k.reg 10) (k.reg 11) 10))
  ∧ (∀ (s : State) (c : CoreId) (r : Request) (rd rs1 rs2 : RegNo) (aq rl : Bool) (m n x : Nat),
    s.coreReq c.val = some r → s.findReq r.id = some r →
    let k := s.comp.cores.get c.val
    k.irq = none → k.loads = [] →
    let traps (i : Instr) (cause : Nat) (tval : Word) : Prop :=
      ∃ t, exec i s = .next t ∧ t.trapped c.val k r cause (fun v => v = tval) ∧ t.mem = s.mem
    (flagOperand (k.reg rs1).toNat = none → ∀ i ∈ [Instr.bfGet c rd rs1 aq, .bfSet c rd rs1 rs2 aq rl, .bfWaitEq c rd rs1 rs2 aq,
      .bfWaitNe c rd rs1 rs2 aq, .bfWaitGeu c rd rs1 rs2 aq], traps i 24 (k.reg rs1))
    ∧ (barrierOperand (k.reg rs1).toNat = none → traps (.barArrive c rd rs1 rs2) 24 (k.reg rs1) ∧ traps (.barWait c rd rs1 rs2) 24 (k.reg rs1))
    ∧ (barrierOperand (k.reg rs1).toNat = some (n, x) → s.beaconNode r.part n = true → countOperand (k.reg rs2).toNat = some 0 →
        traps (.barArrive c rd rs1 rs2) 26 (k.reg rs1))
    ∧ (lockOperand (k.reg rs1).toNat = none → ∀ i ∈ [Instr.lkAcq c rd rs1, .lkRel c rd rs1 rs2, .lkInfo c rd rs1], traps i 24 (k.reg rs1))
    ∧ (s.issueTrap r .te (k.reg rs1).toNat (k.reg rs2).toNat = some m → traps (.cmdTe c rs1 rs2) m (k.reg rs1))
    ∧ (s.issueTrap r .sua (k.reg rs1).toNat (k.reg rs2).toNat = some m → traps (.cmdSua c rs1 rs2) m (k.reg rs1))
    ∧ (s.issueTrap r .rlu (k.reg rs1).toNat (k.reg rs2).toNat = some m → traps (.cmdRlu c rs1 rs2) m (k.reg rs1)))

/-- ZT.TICK writes TICK of the core's die to rd; ZF.ALL, ZF.CMD and ZF.HOST go on once what they wait for is done (R194 to R197). No other
register of the core and no other core changes. CORE_ACCESS that passes the Gatehouse, to memory of another node or of the host: it leaves the
node on VC1; a load or fetch is under way, and after a load or a store, which is posted, the core goes on behind the instruction; an LR, SC or
AMO holds the core (R173, R177). To memory of the core's own CMEM a store,
LR, SC or AMO is performed once its banks serve it (R177, R299). A load that hits the D-cache writes rd, and a fetch that hits the I-cache takes parcels, without an access to
memory (R176, R177). FENCE goes on once the accesses that it orders are performed (R198). A misaligned load, store, SC or AMO traps with
mcause 4 or 6 and the DVA in mtval (R174), one that fails a check of the Gatehouse with its page fault (R173). ILLEGAL_INSTRUCTION: an encoding
that the core does not implement traps with mcause 2 (R171); mtval is free (assumption log 30); any other is performed: computations, jumps
and branches, CSR instructions and MRET (R171, as assumption log 9 takes the RISC-V base). An exception leaves the core in M-mode with
mepc the pc of the instruction, and its request ends with CORE_TRAP (R180). The core of each clause has no load under way and no interrupt
due. -/
def Obligations.CoresReadAccessAndTrap : Prop :=
  (∀ (s : State) (c : CoreId) (r : Request) (rd : RegNo), s.coreReq c.val = some r →
    let k := s.comp.cores.get c.val
    k.irq = none → k.loads = [] →
    let done (k1 : Core) : Host.Outcome State Fault Refusal :=
      .next { s with comp := { s.comp with cores := s.comp.cores.set c.val { k1 with wait := .none, pc := k1.pc + 4 } } }
    exec (.ztTick c rd) s = done (if rd = 0 then k else
        { k with x := k.x.set rd.val (s.sys.clk.get (nodeDie (coreNode c.val))).tick })
    ∧ (k.stores = 0 → k.hostStores = 0 → s.cmdUnderWay c.val = false → exec (.zfAll c) s = done k)
    ∧ (k.cmds = 0 → exec (.zfCmd c) s = done k)
    ∧ (k.hostStores = 0 → exec (.zfHost c) s = done k))
  ∧ (∀ (s s1 : State) (c : CoreId) (r : Request) (f : AccessForm) (signed : Bool) (log2 : Fin 4) (rd rs1 rs2 : RegNo) (imm : BitVec 12)
      (node a : Nat) (host : Option (Nat × Nat × Nat × Bool × Bool)) (tgt : Target),
    s.coreReq c.val = some r →
    let k := s.comp.cores.get c.val
    let k1 := s1.comp.cores.get c.val
    let va := k.reg rs1 + (if accessAtomic f.op then 0 else imm.signExtend 64)
    let len : Word := if f.short then 2 else 4
    k.irq = none → k.loads = [] → f.op ≠ .fetch → f.op ≠ .fence → (accessAtomic f.op = true → 2 ≤ log2.val ∧ (f.rl = true → k.stores = 0)) →
    va.toNat % 2 ^ log2.val = 0 → s.translates c.val r f.op va.toNat (.ok tgt, s1) →
    k1.loads = [] → (∀ l ∈ k1.icache ++ k1.dcache, l.bad = false) →
    ((tgt = .dev a ∧ node = homeNode a ∧ node ≠ coreNode c.val ∧ host = none)
      ∨ ∃ p g ns ro, tgt = .host p g a ns ro ∧ node = hpNode p ∧ host = some (p, g, a, ns, ro)) →
    ∃ t, exec (.coreAccess c f log2 signed rd rs1 rs2 imm) s = .next t
      ∧ t.handed (coreNode c.val) node 1
          (.mem ⟨f.op, a, log2.val, signed || accessAtomic f.op, k.reg rs2, va, host⟩ c.val s1.net.nextId)
      ∧ (let k2 := t.comp.cores.get c.val
         (f.op = .load → k2.pc = k1.pc + len ∧ k2.loads = [⟨s1.net.nextId, rd.val, log2.val, signed, va, .load, k1.pc⟩])
          ∧ (f.op = .store → k2.pc = k1.pc + len
              ∧ (if host.isSome then k2.hostStores = k1.hostStores + 1 else k2.stores = k1.stores + 1))
          ∧ (accessAtomic f.op = true → k2.pc = k1.pc
              ∧ k2.wait = .mem s1.net.nextId rd.val log2.val (signed || accessAtomic f.op) va f.op)))
  ∧ (∀ (s s1 s2 : State) (c : CoreId) (r : Request) (f : AccessForm) (signed : Bool) (log2 : Fin 4) (rd rs1 rs2 : RegNo) (imm : BitVec 12)
      (a sc off : Nat) (v : Word),
    s.coreReq c.val = some r →
    let k := s.comp.cores.get c.val
    let k1 := s1.comp.cores.get c.val
    let va := k.reg rs1 + (if accessAtomic f.op then 0 else imm.signExtend 64)
    let g := s1.askBanks (c.val / 8) (c.val % 8) k1.pc.toNat (cmemBanks off (2 ^ log2.val))
    k.irq = none → k.loads = [] → f.op ∉ [MemOp.load, .fetch, .fence] →
    (accessAtomic f.op = true → 2 ≤ log2.val ∧ (f.rl = true → k.stores = 0)) →
    va.toNat % 2 ^ log2.val = 0 → s.translates c.val r f.op va.toNat (.ok (.dev a), s1) →
    (∀ l ∈ k1.icache ++ k1.dcache, l.bad = false) → homeNode a = coreNode c.val → placeOf a = .cmem sc off →
    (g.1 = true →
      g.2.performMem (some r.part) ⟨f.op, a, log2.val, signed || accessAtomic f.op, k.reg rs2, va, none⟩ c.val = (.value v, s2) →
      exec (.coreAccess c f log2 signed rd rs1 rs2 imm) s = .next { s2 with comp := { s2.comp with
        cores := s2.comp.cores.modify c.val
          (fun k => (k.setReg (if f.op = .store then 0 else rd.val) v).advance (if f.short then 2 else 4)) } })
    ∧ (g.1 = false → exec (.coreAccess c f log2 signed rd rs1 rs2 imm) s = .next g.2))
  ∧ (∀ (s s1 : State) (c : CoreId) (r : Request) (aq rl short signed : Bool) (log2 : Fin 4) (rd rs1 rs2 : RegNo) (imm : BitVec 12)
      (a : Nat) (l : CacheLine),
    s.coreReq c.val = some r →
    let k := s.comp.cores.get c.val
    let k1 := s1.comp.cores.get c.val
    let va := k.reg rs1 + imm.signExtend 64
    k.irq = none → k.loads = [] → (∀ l ∈ k1.icache ++ k1.dcache, l.bad = false) →
    (va.toNat % 2 ^ log2.val = 0 → s.translates c.val r .load va.toNat (.ok (.dev a), s1) → homeNode a = coreNode c.val →
      (∃ sc off, placeOf a = .cmem sc off) → k1.dcache.find? (fun l => l.addr == a / 64 * 64) = some l →
      exec (.coreAccess c ⟨.load, short, aq, rl⟩ log2 signed rd rs1 rs2 imm) s = .next { s1 with comp := { s1.comp with
        cores := s1.comp.cores.set c.val ((k1.setReg rd.val
          (extendTo log2.val signed (leVal ((l.bytes.drop (a % 64)).take (2 ^ log2.val))))).advance (if short then 2 else 4)) } })
    ∧ (k.pc.toNat % 2 = 0 → k.fetched = none → k1.fetched = none → k1.pc = k.pc → s.translates c.val r .fetch k.pc.toNat (.ok (.dev a), s1) →
      k1.icache.find? (fun l => l.addr == a / 64 * 64) = some l →
      exec (.coreAccess c ⟨.fetch, short, aq, rl⟩ log2 signed rd rs1 rs2 imm) s = .next { s1 with comp := { s1.comp with
        cores := s1.comp.cores.set c.val { k1 with fetched := some (k.pc, takeParcels l.bytes (a % 64) false) } } })
    ∧ (k.fenceOk imm.toNat = true →
      exec (.coreAccess c ⟨.fence, short, aq, rl⟩ log2 signed rd rs1 rs2 imm) s = .next { s with comp := { s.comp with
        cores := s.comp.cores.set c.val { k with pc := k.pc + 4 } } }))
  ∧ (∀ (s s1 : State) (c : CoreId) (r : Request) (f : AccessForm) (signed : Bool) (log2 : Fin 4) (rd rs1 rs2 : RegNo) (imm : BitVec 12)
      (w : Word32) (code : Code),
    s.coreReq c.val = some r → s.findReq r.id = some r →
    let k := s.comp.cores.get c.val
    let va := k.reg rs1 + (if accessAtomic f.op then 0 else imm.signExtend 64)
    k.irq = none → k.loads = [] →
    let traps (i : Instr) (cause : Nat) (tval : Word → Prop) : Prop :=
      ∃ t, exec i s = .next t ∧ t.trapped c.val k r cause tval ∧ t.mem.mem = s.mem.mem
    (f.op ≠ .fetch → f.op ≠ .fence → (accessAtomic f.op = true → 2 ≤ log2.val) →
      (va.toNat % 2 ^ log2.val ≠ 0 →
        traps (.coreAccess c f log2 signed rd rs1 rs2 imm) (if f.op = .load ∨ f.op = .lr then 4 else 6) (fun v => v = va))
      ∧ (va.toNat % 2 ^ log2.val = 0 → (f.rl = true → k.stores = 0) → s.translates c.val r f.op va.toNat (.error code, s1) →
        code ∈ [Code.ghNotPinned, .ghTableFormat, .ghNotMapped, .ghPerm] → s1.findReq r.id = some r → s1.mem.mem = s.mem.mem →
        s1.comp.cores.get c.val = { k with xlat := none } →
        traps (.coreAccess c f log2 signed rd rs1 rs2 imm) (accessCauses f.op).2 (fun v => v = va)))
    ∧ (k.holds w = true → encodingLegal k.mode w = false → traps (.illegalInstruction c w) 2 (fun _ => True)))
  ∧ (∀ (s : State) (c : CoreId) (r : Request) (w : Word32), s.coreReq c.val = some r →
    let k := s.comp.cores.get c.val
    let after (k1 : Core) : Host.Outcome State Fault Refusal :=
      .next { s with comp := { s.comp with cores := s.comp.cores.set c.val k1 } }
    let comp (v : Nat) : Prop := bitsOf v 6 0 ∈ [0x37, 0x17, 0x6F, 0x67, 0x63, 0x13, 0x1B, 0x33, 0x3B]
    k.irq = none → k.loads = [] → k.holds w = true → encodingLegal k.mode w = true →
    (w.toNat % 4 = 3 → comp w.toNat → exec (.illegalInstruction c w) s = after (k.compute w.toNat 4))
    ∧ (w.toNat % 4 ≠ 3 → comp (expandC (w.toNat % 65536)) →
      exec (.illegalInstruction c w) s = after (k.compute (expandC (w.toNat % 65536)) 2))
    ∧ (bitsOf w.toNat 6 0 = 0x73 → bitsOf w.toNat 14 12 ≠ 0 → exec (.illegalInstruction c w) s = after (k.csrInstr c.val r.part w.toNat))
    ∧ (w = 0x30200073 → exec (.illegalInstruction c w) s = after k.mret))

/-! ### Tensor engines (R119 to R167) -/

/-- TE_COMMAND_ARRIVE: a command that arrives at a queue of fewer than 16 is queued behind the others (R127). MATMUL: the checked head of an
idle engine's queue is its command, with no tile begun (R121, R128). COMBINE: the checked head of an idle engine's queue is performed:
its sums, in tile order, are written where its output descriptor places them, its tiles are done, and the vector engine is busy for its time
(R126, R147, R277). No row command holds a bank meanwhile (R253). -/
def Obligations.TensorCommandsBegin : Prop :=
  (∀ (s s1 : State) (te : TeId) (p : Packet) (x : CmdRef), s.takeInbox (teNode te.val) (Packet.isCmd .te) = some (p, s1) →
    p.payload = .cmd .te x → s.rowsRun = false → (s.comp.tes.get te.val).queue.length < 16 →
    ∃ t, exec (.teCommandArrive te) s = .next t
      ∧ (t.comp.tes.get te.val).queue = (s.comp.tes.get te.val).queue ++ [x]
      ∧ (∀ j, j ≠ te.val → t.comp.tes.get j = s.comp.tes.get j)
      ∧ t = { s with net := { s.net with inbox := t.net.inbox }, comp := { s.comp with tes := t.comp.tes } })
  ∧ (∀ (s s1 s2 : State) (te : TeId) (x : CmdRef) (xs : List CmdRef) (b : List Byte) (r : TeRun),
    s.rowsRun = false → (s.comp.tes.get te.val).cur = none → (s.comp.tes.get te.val).queue = x :: xs → s.cmdHeld x = false →
    s.readRecord (s.teAcc te.val x) x 128 64 = (.ok b, s1) → byteAt b 0 = 1 → s1.loadMatmul te.val x b = (.ok r, s2) →
    ∃ t, exec (.matmul te) s = .next t ∧ (t.comp.tes.get te.val).cur = some r
      ∧ (t.comp.tes.get te.val).queue = (s2.comp.tes.get te.val).queue
      ∧ r.cmd = x ∧ r.record = b ∧ r.next = 0 ∧ r.inFlight = [] ∧ r.tilesDone = 0 ∧ r.code = none
      ∧ t = { s2 with comp := { s2.comp with tes := t.comp.tes } })
  ∧ (∀ (s s1 s2 s3 s4 s5 : State) (te : TeId) (x : CmdRef) (xs : List CmdRef) (b : List Byte) (a o : Td) (vs : List (Acc × TeFlags))
    (ow ow1 : List OwnerEnt) (l : List ByteW) (run : TeRun),
    s.rowsRun = false → (s.comp.tes.get te.val).cur = none → (s.comp.tes.get te.val).queue = x :: xs → s.cmdHeld x = false →
    s.readRecord (s.teAcc te.val x) x 128 64 = (.ok b, s1) → byteAt b 0 = 2 →
    let c := parseTe b
    s1.loadCombine te.val x c = (.ok (a, o), s2) →
    run = { cmd := x, record := b, aTd := some a, bTd := none, outTd := some o, preTd := none, resTds := [], chain := none
            table := [], stats := [], targets := [], owners := [], next := c.tileCount, inFlight := [], tilesDone := 0
            flags := .none, denseDrop := false, rowSums := .const RowSum.empty, quantBuf := [], lastWrite := 0, code := none } →
    s3 = (s2.tePop te.val).modTe te.val (fun t => { t with cur := some run }) →
    let cells := c.cells
    let acc := s2.teAcc te.val x
    s3.combineCells acc a c cells [] = (.ok vs, ow, s4) →
    s4.placeAll acc o ((cells.map (fun y => [y.2, y.1])).zip (vs.map (fun v => leVal (accOut c.float c.outFmt v.1).1))) ow []
      = (.ok l, ow1, s5) →
    ∀ s6, s5.flushBytes acc l = (none, s6) → (s6.comp.tes.get te.val).cur = some run →
    ∃ t r, exec (.combine te) s = .next t ∧ (t.comp.tes.get te.val).cur = some r ∧ r.tilesDone = c.tileCount ∧ r.code = none
      ∧ (t.comp.tes.get te.val).lastDrain = s3.teCycle te.val 0 + c.veCycles
      ∧ t = { s6 with comp := { s6.comp with tes := t.comp.tes } })

/-- TILE_STREAM_START: the next tile of a MATMUL begins once both accumulators' times allow; every accumulator is that of its preload, its row
of A and its column of B, and the parameters of the stages are read (R121, R139, R166). TILE_COMPLETE: the oldest tile that has not completed
does so at start + L + 11 (R121, R130). TILE_DRAIN_START: a completed tile drains after the tile before it: its elements and plain arrays are
written where the output descriptor and the chain place them, or its dense values are sent, and it is done; QUANT_TILE_WRITE writes a held tile
and its scale (R130, R143, R165). TE_COMMAND_END: after the last write of its last tile, or once it has failed, a command ends: the engine is
idle, and the status record, with its code, the flags, the tiles done and the tick of the last drain cycle (the present tick where no tile
was done: the model's choice), stands at STATUS_VA (R129); then its notify increment is sent, or it no longer counts at its core (R190, R192).
No row command holds a bank meanwhile (R253). -/
def Obligations.TensorTilesRun : Prop :=
  (∀ (s : State) (te : TeId) (cy : Fin 5) (r : TeRun),
    let k := s.comp.tes.get te.val
    let c := parseTe r.record
    let now := s.teCycle te.val cy.val
    k.cur = some r → s.rowsRun = false →
    (∀ (s1 s2 s3 : State) (a b : Td) (as_ bs : List (List XVal)) (fl : TeFlags) (ow ow1 ow2 : List OwnerEnt) (ps : List (Acc × TeFlags))
        (params : List (List XVal)),
      r.code = none → c.op = 1 → r.next < c.tileCount →
      (r.inFlight = [] ∧ k.prevDrain < now ∨ ∃ u, r.inFlight = [u] ∧ k.lastDrain < now) → k.lastStream < now →
      r.aTd = some a → r.bTd = some b →
      let rows := tileSpan (r.next / c.tileCols) c.m
      let cols := tileSpan (r.next % c.tileCols) c.n
      let acc := s.teAcc te.val r.cmd
      s.tileOperands acc r c a b rows cols = (.ok (as_, bs, fl), ow, s1) →
      s1.tilePreloads acc ow r c rows cols = (.ok ps, ow1, s2) →
      s2.allParams acc r rows cols ((r.chain.map (·.stages)).getD []) ow1 = (.ok params, ow2, s3) →
      (s3.comp.tes.get te.val).cur = some r →
      ∃ t r1 tile, exec (.tileStreamStart te cy) s = .next t ∧ (t.comp.tes.get te.val).cur = some r1
        ∧ r1.next = r.next + 1 ∧ r1.inFlight = r.inFlight ++ [tile] ∧ tile.tm = r.next / c.tileCols ∧ tile.tn = r.next % c.tileCols
        ∧ tile.start = now ∧ tile.complete = none ∧ tile.params = params
        ∧ tile.accs = (ps.zip (as_.flatMap (fun x => bs.map (fun y => x.zip y)))).map (fun z => (accumulate c.ty z.1.1 z.2).1)
        ∧ (t.comp.tes.get te.val).lastStream = now + c.streamLen - 1
        ∧ t = { s3 with comp := { s3.comp with tes := t.comp.tes } })
    ∧ (∀ (tile : Tile) (rest : List Tile), r.inFlight = tile :: rest → tile.complete = none → tile.start + c.streamLen + 11 ≤ now →
      (∀ u ∈ rest, u.tm ≠ tile.tm ∨ u.tn ≠ tile.tn) →
      let r1 : TeRun := { r with inFlight := { tile with complete := some now } :: rest }
      let k1 : Te := { k with cur := some r1 }
      exec (.tileComplete te cy) s = .next { s with comp := { s.comp with tes := s.comp.tes.set te.val k1 } }))
  ∧ (∀ (s : State) (te : TeId) (cy : Fin 5) (r : TeRun),
    let k := s.comp.tes.get te.val
    let c := parseTe r.record
    let acc := s.teAcc te.val r.cmd
    let now := s.teCycle te.val cy.val
    k.cur = some r → r.code = none → s.rowsRun = false →
    (∀ (tile : Tile) (rest : List Tile) (e : Nat) (o : Td) (l l1 : List ByteW) (ow : List OwnerEnt) (s1 s2 s3 : State),
      r.inFlight = tile :: rest → tile.complete = some e → e < now → k.lastDrain < now → r.quantBuf.length < 2 →
      let rows := tileSpan tile.tm c.m
      let cols := tileSpan tile.tn c.n
      let last := now + c.drainLen - 1
      let out : Drained := match r.chain with
        | some k => if k.stages.isEmpty then drainPlain c rows cols tile r.rowSums
          else drainChain c k r.table rows cols tile tile.params r.rowSums last
        | none => drainPlain c rows cols tile r.rowSums
      (c.outFmt ≠ 5 → r.outTd = some o →
        s.placeAll acc o out.elems r.owners [] = (.ok l, ow, s1) → s1.placePlains acc out.plain l = (.ok l1, s2) →
        s2.flushBytes acc l1 = (none, s3) → (s3.comp.tes.get te.val).cur = some r →
        ∃ t r1, exec (.tileDrainStart te cy) s = .next t ∧ (t.comp.tes.get te.val).cur = some r1 ∧ r1.inFlight = rest
          ∧ r1.tilesDone = r.tilesDone + 1 ∧ r1.code = none ∧ r1.rowSums = out.sums ∧ r1.quantBuf = r.quantBuf ++ out.quant.toList
          ∧ (t.comp.tes.get te.val).lastDrain = last
          ∧ t = { s3 with comp := { s3.comp with tes := t.comp.tes } })
      ∧ (c.outFmt = 5 →
        ∃ t r1, exec (.tileDrainStart te cy) s = .next t ∧ (t.comp.tes.get te.val).cur = some r1 ∧ r1.inFlight = rest
          ∧ r1.tilesDone = r.tilesDone + 1 ∧ r1.code = none ∧ (t.comp.tes.get te.val).lastDrain = last ∧ t.mem = s.mem))
    ∧ (∀ (q : QuantTile) (qs : List QuantTile) (o : Td) (l l1 : List ByteW) (ow : List OwnerEnt) (s1 s2 s3 : State),
      r.quantBuf = q :: qs → r.outTd = some o → q.due ≤ now →
      (let fmt := ((r.chain.bind (fun k => k.stages.getLast?)).map (·.fmt)).getD 6
       let cells := (tileSpan q.tm c.m).flatMap (fun i => (tileSpan q.tn c.n).map (fun j => [j, i]))
       s.placeAll acc o (cells.zip (q.vals.map (fun v => leVal (stageBytes fmt v)))) r.owners [] = (.ok l, ow, s1)) →
      s1.placePlain acc q.scaleVa (leBytes 4 q.scale) l = (.ok l1, s2) → s2.flushBytes acc l1 = (none, s3) →
      (s3.comp.tes.get te.val).cur = some r →
      ∃ t r1, exec (.quantTileWrite te cy) s = .next t ∧ (t.comp.tes.get te.val).cur = some r1 ∧ r1.quantBuf = qs
        ∧ r1.tilesDone = r.tilesDone ∧ t = { s3 with comp := { s3.comp with tes := t.comp.tes } }))
  ∧ (∀ (s s1 : State) (te : TeId) (cy : Fin 5) (r : TeRun),
    let k := s.comp.tes.get te.val
    let c := parseTe r.record
    let k1 : Te := { k with
      cur := none
      satCmds := if r.flags.sat then satTo 65535 (k.satCmds + 1) else k.satCmds
      queue := if r.next = 0 then k.queue.drop 1 else k.queue }
    let idle := { s with comp := { s.comp with tes := s.comp.tes.set te.val k1 } }
    k.cur = some r → s.rowsRun = false →
    (r.code.isSome = true ∨ c.tileCount ≤ r.next ∧ r.inFlight = [] ∧ r.quantBuf = [] ∧ r.lastWrite < s.teCycle te.val cy.val) →
    c.statusVa % 16 = 0 →
    idle.agWriteCode (s.teAcc te.val r.cmd) c.statusVa
      (teStatus (r.code.getD Code.ok.val) r.flags r.denseDrop r.tilesDone
        (if r.tilesDone = 0 then s.tickOf (te.val / 4) else k.lastDrain / 5 % 2 ^ 64)) = (none, s1) →
    exec (.teCommandEnd te cy) s = .next (s1.endCmd (teNode te.val) r.cmd))
  ∧ (∀ (s : State) (node : Nat) (x : CmdRef),
    (x.notify = none → s.endCmd node x
      = s.modCore x.core (fun k => if k.req = some x.req then { k with cmds := k.cmds - 1 } else k))
    ∧ (∀ f, x.notify = some f → (s.endCmd node x).queued node (bitsOf f 13 6) 0
        (.beacon (.notify (bitsOf f 5 0)) (.notify x.core x.req) s.net.nextId)))

/-- In Exact mode the result does not depend on the order of the products (R139, R140). Without saturation, integer Fast results equal Exact
results (R135). -/
def Obligations.ExactSums : Prop :=
  (∀ (ty : ElemTy) (v : Int) (st : ExState) (ts us : List (XVal × XVal)), ts.Perm us →
    accumulate ty (.exact v st) ts = accumulate ty (.exact v st) us)
  ∧ (∀ (ts : List (Int × Int)) (v : Int) (fl : TeFlags),
    accumulate .int16 (.i48 0) (ts.map (fun t => (XVal.ofInt t.1, XVal.ofInt t.2))) = (.i48 v, fl) → fl.sat = false →
    accumulate .int16 (.exact 0 .finite) (ts.map (fun t => (XVal.ofInt t.1, XVal.ofInt t.2))) = (.exact (v * 2 ^ 272) .finite, .none))

/-! ### Stochastic unit arrays and sampling programs (R52 to R91) -/

/-- DENSE_CONTRIBUTION: the next contribution changes the field of its slot by its difference from the shadow, and becomes the shadow; no
other slot changes, one without a slot is dropped, and with none waiting nothing changes (R57). FLIP_RECORD_RECEIVE: the halo copy of the SC
takes the new state (R65); in synchronous order, before the SC's own updates, its upkeep is owed instead (R68); where the sender's sweep is
not sequential one record of it fewer is in flight (R64). A poisoned record ends the request with MEM_POISON (R315), and an uncorrectable
error in the stores of the SUA ends it too (R502). -/
def Obligations.FieldsFollowMessages : Prop :=
  (∀ (s : State) (sc : ScId) (d : DenseMsg) (ds : List DenseMsg), s.comp.denseIn.get sc.val = d :: ds →
    let a := s.comp.suas.get sc.val
    (∀ slot, s.denseSlot d.part sc.val d.model d.unit d.rep = some slot →
      ∃ t, exec (.denseContribution sc) s = .next t
        ∧ (t.comp.suas.get sc.val).fields.get slot = a.fields.get slot + (d.value - a.shadows.get slot)
        ∧ (t.comp.suas.get sc.val).shadows.get slot = d.value
        ∧ (∀ j, j ≠ slot → (t.comp.suas.get sc.val).fields.get j = a.fields.get j
            ∧ (t.comp.suas.get sc.val).shadows.get j = a.shadows.get j)
        ∧ t.comp.denseIn.get sc.val = ds
        ∧ t = { s with comp := { s.comp with denseIn := t.comp.denseIn, suas := t.comp.suas } })
    ∧ (s.denseSlot d.part sc.val d.model d.unit d.rep = none →
      exec (.denseContribution sc) s = .next { s with comp := { s.comp with denseIn := s.comp.denseIn.set sc.val ds } }))
  ∧ (∀ (s : State) (sc : ScId), s.comp.denseIn.get sc.val = [] → exec (.denseContribution sc) s = .next s)
  ∧ (∀ (s s1 : State) (sc : ScId) (p : Packet) (r : Request) (g : Program) (m : Model) (site : Site) (rec : Nat),
    s.takeInbox (scNode sc.val) Packet.isFlip = some (p, s1) → p.payload = .flip m.id r.id rec → s.findReq r.id = some r → r.prog = some g →
    s.findModel r.part r.model = some m → r.step = .run → g.finished = false → g.stopped = false →
    s.modelOn m sc.val = some site →
    let a := s.comp.suas.get sc.val
    let src := (scAt p.src).getD 0
    let halo := bitsOf rec 14 0
    let rep := bitsOf rec 27 22
    let new := bitsOf rec 31 28
    let before := site.h.order = 2 ∧ g.clsDone.get sc.val = 0
    (p.poison = true → exec (.flipRecordReceive sc) s = .next (s1.endReq r.id .memPoison 0 0))
    ∧ (p.poison = false → ¬before → a.ue = false → s.mem.mem.marks.entries = [] →
      ∃ t q h k, exec (.flipRecordReceive sc) s = .next t ∧ t.findReq r.id = some q ∧ q.prog = some h ∧ h.n = g.n
        ∧ t.findModel r.part r.model = some k ∧ k.halo.get (sc.val, halo, rep) = new
        ∧ ((∀ x, s.modelOn m src = some x → x.h.order ≠ 1) → h.sent.get src = g.sent.get src - 1)
        ∧ t.mem = s.mem)
    ∧ (p.poison = false → before → (∀ x, s.modelOn m src = some x → x.h.order ≠ 1) →
      ∃ t q h, exec (.flipRecordReceive sc) s = .next t ∧ t.findReq r.id = some q ∧ q.prog = some h
        ∧ h.owed = g.owed ++ [⟨sc.val, halo, rep, new⟩] ∧ h.sent.get src = g.sent.get src - 1 ∧ t.comp = s.comp ∧ t.mem = s.mem)
    ∧ (p.poison = false → ¬before → a.ue = true →
      ∃ t q, exec (.flipRecordReceive sc) s = .next t ∧ t.findReq r.id = some q ∧ q.step = .ending ∧ q.err.isSome = true ∧ t.mem = s.mem))
  ∧ (∀ (s : State) (sc : ScId), s.takeInbox (scNode sc.val) Packet.isFlip = none → exec (.flipRecordReceive sc) s = .next s)

/-- SWEEP_START within a segment: the next sweep begins on every SC, no class done (R69). A segment's first sweep evaluates in full, replica r
holds position r, and in a model on one SC every unit that is not clamped takes the state of its ZCG word (R55, R75). A REPLAY of step 0 stops
instead (R398). SWEEP_END of a sweep in which every SC has done every class, every exchange is complete and no flip record is in flight: the
sweep has ended; at an energy point the doubled energies of the replicas are kept, a counted sweep counts, a round is due where the period of
exchanges says so, and the last sweep else finishes the program (R69, R78, R80, R89, R395). A REPLAY that stops at this step stops (R398). Of
SWEEP_END, no memory word has an error, no HBM access a parity error, and no row-logic command holds a bank. -/
def Obligations.SweepsStartAndEnd : Prop :=
  (∀ (s : State) (r : Request) (g : Program) (m : Model), s.findReq r.id = some r → r.prog = some g →
    s.findModel r.part r.model = some m → r.step = .run → g.finished = false → g.stopped = false →
    g.sweeping = false → g.roundDue = false → g.n + 1 ≤ (parseSpr g.spr).sweeps → s.sitesReady r.id m = true →
    s.mapArrived r.id = true → (r.live = true → g.liveKey.isSome = true) →
    ((r.reproducible || r.srid.isSome) = true → g.n = 0 ∨ g.endTick < s.extTick (nodeDie r.lead)) →
    let begun (f : Bool) : Program := { g with
      n := g.n + 1, sweeping := true, full := f, clsDone := .const 0, sent := .const 0, exch := .const .idle, seqPos := .const 0
      repSent := .const 0, owed := [] }
    ((parseSpr g.spr).segStart (g.n + 1) ≠ g.n + 1 → g.stopAt ≠ some 0 →
      ∃ t q, exec (.sweepStart r.id) s = .next t ∧ t.findReq r.id = some q ∧ q.prog = some (begun m.fullNext)
        ∧ t.comp.suas = s.comp.suas ∧ t.mem = s.mem ∧ t.net = s.net)
    ∧ ((parseSpr g.spr).segStart (g.n + 1) = g.n + 1 → g.stopAt ≠ some 0 →
      ∃ t q, exec (.sweepStart r.id) s = .next t ∧ t.findReq r.id = some q
        ∧ q.prog = some { begun true with pos := List.range g.replicas, restarts := if g.n = 0 then 0 else g.restarts + 1 }
        ∧ (∀ x u rep, m.sites = [x] → let site := s.siteOf x
            u < site.h.nLocal → rep < g.replicas → (s.unitHdr site u).clamp = false →
            t.unitState site u rep = initState site.h (zcgUnitWord .init (g.key r) (s.gidx site u) (g.n + 1) rep) % 16)
        ∧ t.mem = s.mem ∧ t.net = s.net)
    ∧ (g.stopAt = some 0 →
      ∃ t q h, exec (.sweepStart r.id) s = .next t ∧ t.findReq r.id = some q ∧ q.prog = some h ∧ h.stopped = true ∧ h.n = g.n
        ∧ h.sweeping = false ∧ t.mem = s.mem))
  ∧ (∀ (s : State) (r : Request) (g : Program) (m : Model), s.findReq r.id = some r → r.prog = some g →
    s.findModel r.part r.model = some m → r.step = .run → g.finished = false → g.stopped = false →
    s.rowsRun = false → s.mem.mem.marks.entries = [] → s.mem.hbmParity = .const 0 →
    g.sweeping = true → g.owed = [] → s.seqDone g m = true →
    (∀ x ∈ m.sites, (s.siteOf x).h.classes ≤ g.clsDone.get x.sc ∧ s.exchanged g m x.sc = true ∧ g.sent.get x.sc = 0) →
    let p := parseSpr g.spr
    let round := p.exchEvery ≠ 0 ∧ g.n % p.exchEvery = 0
    (g.stopAt ≠ some g.n →
      ∃ t q h, exec (.sweepEnd r.id) s = .next t ∧ t.findReq r.id = some q ∧ q.prog = some h ∧ h.n = g.n ∧ h.sweeping = false
        ∧ h.endTick = s.extTick (nodeDie r.lead) ∧ h.pos = g.pos
        ∧ (p.energyPoint g.n = true → h.energies = (List.range g.replicas).map (s.energy m) ∧ h.energyAt = some g.n)
        ∧ (p.energyPoint g.n = false → h.energies = g.energies ∧ h.energyAt = g.energyAt)
        ∧ h.counted = g.counted + (if p.counted g.n then 1 else 0)
        ∧ (round → h.roundDue = true ∧ h.finished = false)
        ∧ (¬round → h.roundDue = g.roundDue ∧ (h.finished = true ↔ p.sweeps ≤ g.n)))
    ∧ (g.stopAt = some g.n →
      ∃ t q h, exec (.sweepEnd r.id) s = .next t ∧ t.findReq r.id = some q ∧ q.prog = some h ∧ h.stopped = true ∧ h.sweeping = false
        ∧ h.energies = g.energies ∧ h.counted = g.counted ∧ t.mem = s.mem))
  ∧ (∀ (s : State) (r : Request) (g : Program) (m : Model), s.findReq r.id = some r → r.prog = some g →
    s.findModel r.part r.model = some m → r.step = .run → g.finished = false → g.stopped = false →
    (s.rowsRun = false ∨ s.mem.waitHeld = false) → g.sweeping = true → g.owed = [] → s.seqDone g m = true →
    (∀ x ∈ m.sites, (s.siteOf x).h.classes ≤ g.clsDone.get x.sc ∧ s.exchanged g m x.sc = true ∧ g.sent.get x.sc = 0) →
    g.stopAt ≠ some g.n →
    (let p := parseSpr g.spr
     p.energyPoint g.n = false ∧ p.counted g.n = false ∧ p.sampled g.n = false ∧ ¬(p.exchEvery ≠ 0 ∧ g.n % p.exchEvery = 0)
      ∧ g.n < p.sweeps ∧ p.segStart (g.n + 1) ≠ g.n + 1) →
    ∃ t q, exec (.sweepEnd r.id) s = .next t ∧ t.findReq r.id = some q
      ∧ q.prog = some { g with sweeping := false, endTick := s.extTick (nodeDie r.lead) } ∧ t.comp = s.comp ∧ t.mem = s.mem)

/-- CLASS_PHASE_START: in chromatic order, once the exchange of the class before is complete, every unit of the class that is not clamped, and
in synchronous order every unit that is not clamped, holds in every replica the state drawn from the fields and states at the start of the
phase; every other unit keeps its state; the SC has begun the class, and in chromatic order its exchange is under way (R60, R63, R64, R68). A
synchronous sweep is marked as not a Gibbs sweep (R68). In sequential order the SC takes up its part of the sweep, and in a model on one SC
without exports every replica passes every unit (R67). An uncorrectable error in the stores of the SUA ends the request (R502). -/
def Obligations.ClassPhaseDraws : Prop :=
  (∀ (s s1 : State) (sc : ScId) (cls : Fin 64) (r : Request) (g : Program) (m : Model) (site : Site),
    (s.comp.suas.get sc.val).running = some r.id → s.findReq r.id = some r → r.prog = some g →
    s.findModel r.part r.model = some m → r.step = .run → g.finished = false → g.stopped = false →
    s.modelOn m sc.val = some site → s.phaseDue g m site cls.val = true → s.mem.mem.marks.entries = [] →
    (s.comp.suas.get sc.val).ue = false →
    s1 = (if g.full then s.evalFields m site (List.range g.replicas) (s.classUnits site cls.val) else s) →
    (site.h.order = 0 ∨ site.h.order = 2 →
      ∃ t q h, exec (.classPhaseStart sc cls) s = .next t ∧ t.findReq r.id = some q ∧ q.prog = some h ∧ h.n = g.n
        ∧ h.clsDone.get sc.val = (if site.h.order = 2 then 64 else cls.val + 1)
        ∧ h.nonGibbs = (g.nonGibbs || decide (site.h.order = 2))
        ∧ (h.exch.get sc.val = .records ∨ h.exch.get sc.val = .arriving)
        ∧ (∀ u rep, rep < g.replicas → u ∈ s.classUnits site cls.val → (s.unitHdr site u).clamp = false →
            t.unitState site u rep = s1.drawUnit r g m site u rep % 16)
        ∧ (∀ u rep, u < site.h.nLocal → (u ∉ s.classUnits site cls.val ∨ (s.unitHdr site u).clamp = true) →
            rep < g.replicas → t.unitState site u rep = s.unitState site u rep)
        ∧ t.mem = s.mem)
    ∧ (site.h.order = 1 →
      ∃ t q h, exec (.classPhaseStart sc cls) s = .next t ∧ t.findReq r.id = some q ∧ q.prog = some h ∧ h.n = g.n
        ∧ h.clsDone.get sc.val = 64
        ∧ ((∃ x, m.sites = [x]) → (∀ u, u < site.h.nLocal → (s.unitHdr site u).exportCount = 0) →
            (∀ rep, rep < g.replicas → g.repSent.get rep = 0) → ∀ rep, rep < g.replicas → site.h.nLocal ≤ h.seqPos.get rep)
        ∧ t.mem = s.mem))
  ∧ (∀ (s : State) (sc : ScId) (cls : Fin 64) (r : Request) (g : Program) (m : Model) (site : Site),
    (s.comp.suas.get sc.val).running = some r.id → s.findReq r.id = some r → r.prog = some g →
    s.findModel r.part r.model = some m → r.step = .run → g.finished = false → g.stopped = false →
    s.modelOn m sc.val = some site → s.phaseDue g m site cls.val = true → (s.comp.suas.get sc.val).ue = true →
    ∃ t q, exec (.classPhaseStart sc cls) s = .next t ∧ t.findReq r.id = some q ∧ q.step = .ending ∧ q.err.isSome = true ∧ t.mem = s.mem)

/-- EXCHANGE_ROUND: the pairs of the round's parity are decided, the accepted swaps are applied together, the attempts of every pair of the
round and the accepts of the swapped ones count, and the round is done; after the last sweep the program has finished (R80 to R82). An
exchange round permutes the ladder: every position still belongs to exactly one replica (R80, R82). -/
def Obligations.ExchangeRounds : Prop :=
  (∀ (s : State) (r : Request) (g : Program) (m : Model), s.findReq r.id = some r → r.prog = some g →
    s.findModel r.part r.model = some m → r.step = .run → g.finished = false → g.stopped = false → g.roundDue = true →
    let p := parseSpr g.spr
    let pairs := exchangePairs (g.n / p.exchEvery) g.replicas
    let e := (m.sites.head?.map (fun x => (s.siteOf x).h.scale)).getD 0
    let d (k : Nat) : Int := g.energies.getD (holder g.pos k) 0
    ∃ t q h swaps, exec (.exchangeRound r.id) s = .next t ∧ t.findReq r.id = some q ∧ q.prog = some h
      ∧ (∀ a, a ∈ swaps ↔ a ∈ pairs ∧ exchangeAccept (d a) (d (a + 1)) (p.betaAt g.betas g.n a) (p.betaAt g.betas g.n (a + 1)) e
          (zcgExchangeWord (g.key r) a g.n) = true)
      ∧ h.pos = swapPos g.pos swaps ∧ h.roundDue = false ∧ h.exchRounds = g.exchRounds + 1
      ∧ (∀ a, a + 1 < g.replicas → h.attempts.getD a 0 = g.attempts.getD a 0 + (if a ∈ pairs then 1 else 0)
          ∧ h.accepts.getD a 0 = g.accepts.getD a 0 + (if a ∈ swaps then 1 else 0))
      ∧ (h.finished = true ↔ p.sweeps ≤ g.n) ∧ (g.n < p.sweeps → t.comp = s.comp) ∧ t.mem = s.mem)
  ∧ (∀ (n k : Nat) (pos swaps : List Nat), pos.Perm (List.range n) → (∀ a ∈ swaps, a ∈ exchangePairs k n) →
    (swapPos pos swaps).Perm (List.range n))

/-! ### Memories, row logic and copies (R211 to R285, R502 to R513) -/

/-- HBM_REFRESH, with the HC in service: in a quiet tick the next bank of the pseudo channel follows, or bank 0 after a REFab; in any other
tick a REFpb does the same, a REFab only where its postponement is exhausted, and RFM moves no refresh on (R213, R215).
HBM_TEMPERATURE_READOUT: the stack's temperature is kept, and the sensor of the die is the hottest of its four stacks (R213, R568).
EDRAM_REFRESH, with no error and no correction waiting: at its due cycle the bank's next refresh runs for 8 cycles, or is postponed while a
row-logic command holds the bank; before it nothing happens (R218, R219, R259). CORRECTION_WRITE: the oldest entry queued for a bank acts, in
HBM in a quiet tick, while eDRAM is corrected by its refreshes: a correction clears the correctable errors of its words, a poisoning gives its
words the poison syndrome; no byte changes (R505, R506). SCRUB_VISIT of a coupling store: a correctable error is corrected and counted in its
unit; a word without error is left alone; an uncorrectable one, with no limit on them set, poisons the line of a model, and gives a free line
zeros (R507, R512). TABLE_WALK: a walk that has read its entries serves the core that waits for it; a page found enters the node's cache
(R235). -/
def Obligations.RefreshesScrubsAndWalks : Prop :=
  (∀ (s : State) (hc : HcId) (pc : Fin 32) (bank : Nat) (b : Bool), s.unitUp (hc.val / 4) (28 + hc.val % 4) = true →
    let k := 32 * hc.val + pc.val
    let next (n : Nat) : State := { s with mem := { s.mem with hbmNext := s.mem.hbmNext.set k n } }
    (s.quiet hc.val = true → exec (.hbmRefresh hc pc .perBank bank) s = .next (next (bank + 1))
      ∧ exec (.hbmRefresh hc pc (.allBank b) bank) s = .next (next 0))
    ∧ (∃ t, exec (.hbmRefresh hc pc .perBank bank) s = .next t ∧ t.mem = (next (bank + 1)).mem ∧ t.comp = s.comp ∧ t.net = s.net)
    ∧ (∃ t, exec (.hbmRefresh hc pc (.allBank true) bank) s = .next t ∧ t.mem = (next 0).mem ∧ t.comp = s.comp ∧ t.net = s.net)
    ∧ (s.quiet hc.val = false → exec (.hbmRefresh hc pc (.allBank false) bank) s = .next s)
    ∧ (∃ t, exec (.hbmRefresh hc pc .management bank) s = .next t ∧ (∀ j, t.mem.hbmNext.get j = s.mem.hbmNext.get j)
        ∧ t.mem.mem = s.mem.mem ∧ t.comp = s.comp ∧ t.net = s.net))
  ∧ (∀ (s : State) (hc : HcId) (temp : Nat),
    ∃ t top, exec (.hbmTemperatureReadout hc temp) s = .next t ∧ t.mem = { s.mem with hbmTemp := s.mem.hbmTemp.set hc.val temp }
      ∧ (t.sys.warden.sensors.get (18 + 8 * (hc.val / 4))).1 = top
      ∧ (∀ i, i < 4 → t.mem.hbmTemp.get (4 * (hc.val / 4) + i) ≤ top)
      ∧ (∃ i, i < 4 ∧ t.mem.hbmTemp.get (4 * (hc.val / 4) + i) = top)
      ∧ (∀ j, j ≠ 18 + 8 * (hc.val / 4) → t.sys.warden.sensors.get j = s.sys.warden.sensors.get j)
      ∧ t = { s with mem := t.mem, sys := { s.sys with warden := { s.sys.warden with sensors := t.sys.warden.sensors } } })
  ∧ (∀ (s : State) (ms : MsId) (bank : Fin 32) (cy : Fin 4),
    let k := 32 * ms.val + bank.val
    let n := s.mem.edramNext.get k
    let now := 4 * s.tickOf (ms.val / 8) + cy.val
    let next := s.mem.edramNext.set k (n + 1)
    (now < refreshCycle n bank.val → exec (.edramRefresh ms bank cy) s = .next s)
    ∧ (refreshCycle n bank.val ≤ now → s.mem.mem.marks.entries = [] → s.ras.corrections = [] →
    (s.bankHeld ms.val bank.val = false → exec (.edramRefresh ms bank cy) s
        = .next { s with mem := { s.mem with edramNext := next, edramBusy := s.mem.edramBusy.set k (now + 8) } })
      ∧ (s.bankHeld ms.val bank.val = true → ∃ t, exec (.edramRefresh ms bank cy) s = .next t
          ∧ (t.comp.rlus.get ms.val).postponed.get bank.val = (s.comp.rlus.get ms.val).postponed.get bank.val + 1
          ∧ t = { s with mem := { s.mem with edramNext := next }, comp := { s.comp with rlus := t.comp.rlus } })))
  ∧ (∀ (s : State) (x : StoreRef), (∃ ms off, placeOf (refAddr x) = .edram ms off) → exec (.correctionWrite x) s = .next s)
  ∧ (∀ (s : State) (ref : StoreRef) (c : Corr), let w := refAddr ref
    s.ras.corrections.find? (fun x => x.bank == corrBank w) = some c →
    (∀ hc off, placeOf w = .hbm hc off → s.quiet hc = true) → (∀ ms off, placeOf w ≠ .edram ms off) →
    ∃ t, exec (.correctionWrite ref) s = .next t ∧ t.ras.corrections = s.ras.corrections.erase c
      ∧ t.mem.mem.cells = s.mem.mem.cells
      ∧ (∀ x ∈ c.words, c.toPoison = true → t.mem.mem.marks.get? x = some .poison)
      ∧ (∀ x ∈ c.words, c.toPoison = false → t.mem.mem.marks.get? x ≠ some .ce)
      ∧ (∀ x, x ∉ c.words → t.mem.mem.marks.get? x = s.mem.mem.marks.get? x)
      ∧ t = { s with ras := { s.ras with corrections := t.ras.corrections }
                     mem := { s.mem with mem := { s.mem.mem with marks := t.mem.mem.marks } } })
  ∧ (∀ (s : State) (sc : ScId) (off : Nat), off < 0x400000 → let w := wordAt (cstAddr sc.val off)
    s.unitUp (sc.val / 16) (sc.val % 16) = true →
    let line (x : Nat) : Prop := x / 64 = w / 64
    (s.mem.mem.marks.get? w = some .ue → s.appF .rasScrubctl (sc.val / 16) 0 0 63 56 = 0 →
      (∀ p, s.lineOwner w = .part p → ∃ t, exec (.scrubVisit (.cst sc off)) s = .next t ∧ t.mem.mem.cells = s.mem.mem.cells
        ∧ (∀ x, line x → x % 8 = 0 → t.mem.mem.marks.get? x = some .poison)
        ∧ (∀ x, ¬line x → t.mem.mem.marks.get? x = s.mem.mem.marks.get? x) ∧ t.comp = s.comp ∧ t.req = s.req)
      ∧ (s.lineOwner w = .free → s.mem.mem.wf = true → ∃ t, exec (.scrubVisit (.cst sc off)) s = .next t
        ∧ (∀ x, line x → readCell t.mem.mem.cells x = 0 ∧ t.mem.mem.marks.get? x = none)
        ∧ (∀ x, ¬line x → readCell t.mem.mem.cells x = readCell s.mem.mem.cells x
            ∧ t.mem.mem.marks.get? x = s.mem.mem.marks.get? x) ∧ t.comp = s.comp ∧ t.req = s.req))
    ∧ (s.mem.mem.marks.get? w = some .ce → ∃ t, exec (.scrubVisit (.cst sc off)) s = .next t ∧ t.mem.mem.marks.get? w = none
      ∧ (∀ x, x ≠ w → t.mem.mem.marks.get? x = s.mem.mem.marks.get? x) ∧ t.mem.mem.cells = s.mem.mem.cells
      ∧ (t.ras.units.get (unitKey (sc.val / 16) (sc.val % 16))).ce = satTo (2 ^ 20 - 1) ((s.unitRec (sc.val / 16) (sc.val % 16)).ce + 1)
      ∧ t.comp = s.comp ∧ t.sys = s.sys ∧ t.req = s.req)
    ∧ (s.mem.mem.marks.get? w = none → ∃ t, exec (.scrubVisit (.cst sc off)) s = .next t ∧ t.mem = s.mem ∧ t.comp = s.comp
      ∧ t.sys = s.sys ∧ t.req = s.req ∧ t.net = s.net ∧ t.ras.units = s.ras.units))
  ∧ (∀ (s : State) (n : NodeId), nodeOk n = true → (s.mem.nodes.get n.toNat).walks.find? s.walkDone = none →
    exec (.tableWalk n) s = .next s)
  ∧ (∀ (s : State) (n : NodeId) (w : WalkReq) (res : WalkRes), nodeOk n = true →
    (s.mem.nodes.get n.toNat).walks.find? s.walkDone = some w → s.walk (nodeDie n.toNat) w.part w.va = res → (∀ a, res ≠ .ue a) →
    ∃ t, exec (.tableWalk n) s = .next t
      ∧ (t.comp.cores.get w.core).xlat = some (res.forCore w.part w.va)
      ∧ (t.comp.cores.get w.core).wait ≠ .walk
      ∧ (t.comp.cores.get w.core).pc = (s.comp.cores.get w.core).pc
      ∧ (∀ e big, res = .page e big → (s.mem.nodes.get n.toNat).cache.length < 128 →
          ∃ c ∈ (t.mem.nodes.get n.toNat).cache, c.tag = ⟨w.part, pageBase w.va big, big⟩ ∧ c.entry = e)
      ∧ ((s.mem.nodes.get n.toNat).waiting = [] →
          t = { s with mem := { s.mem with nodes := t.mem.nodes }, comp := { s.comp with cores := t.comp.cores } }))

/-- RLU_COMMAND_ARRIVE and COPY_ARRIVE: a command that arrives at a queue of fewer than 16 is queued behind the others; one that finds 16 is
refused, with RLU_QUEUE_FULL or COPY_QUEUE_FULL in its status record (R251, R281). RLU_COMMAND_START: the checked head of a slice's queue takes
its bank once no command holds it, in the present cycle, or after a refresh that is under way, with its 16 counts 0; a head that fails a check
is refused with the code of the check; one whose bank is held waits (R250, R252, R253, R259). RLU_COMMAND_END: after the last operation, with
no refresh to repay and no access waiting, the bank is free, the count slots are written, and then the status record with the operations done
and the cycle of the last; a poisoned source ends the request (R250, R263, R514). -/
def Obligations.RowCommandsQueueAndRun : Prop :=
  (∀ (s s1 : State) (ms : MsId) (p : Packet) (x : CmdRef), (s.rowsRun = false ∨ s.mem.waitHeld = false) →
    (s.takeInbox (msNode ms.val) (Packet.isCmd .rlu) = some (p, s1) → p.payload = .cmd .rlu x →
      (s.comp.rlus.get ms.val).queue.length < 16 →
      ∃ t, exec (.rluCommandArrive ms) s = .next t
        ∧ t.comp.rlus.get ms.val = { s.comp.rlus.get ms.val with queue := (s.comp.rlus.get ms.val).queue ++ [x] }
        ∧ (∀ j, j ≠ ms.val → t.comp.rlus.get j = s.comp.rlus.get j)
        ∧ t = { s with net := { s.net with inbox := t.net.inbox }, comp := { s.comp with rlus := t.comp.rlus } })
    ∧ (s.takeInbox (msNode ms.val) (Packet.isCmd .copy) = some (p, s1) → p.payload = .cmd .copy x →
      (s.comp.copies.get ms.val).queue.length < 16 →
      ∃ t, exec (.copyArrive ms) s = .next t
        ∧ t.comp.copies.get ms.val = { s.comp.copies.get ms.val with queue := (s.comp.copies.get ms.val).queue ++ [x] }
        ∧ (∀ j, j ≠ ms.val → t.comp.copies.get j = s.comp.copies.get j)
        ∧ t = { s with net := { s.net with inbox := t.net.inbox }, comp := { s.comp with copies := t.comp.copies } }))
  ∧ (∀ (s s1 s2 : State) (ms : MsId) (p : Packet) (x : CmdRef) (b : List Byte), s.rowsRun = false →
    (s.takeInbox (msNode ms.val) (Packet.isCmd .rlu) = some (p, s1) → p.payload = .cmd .rlu x →
      16 ≤ (s.comp.rlus.get ms.val).queue.length →
      s1.agReadClean { s1.rluAcc ms.val x with logVa := some x.va } (x.va + 8) 8 = (.ok b, s2) →
      exec (.rluCommandArrive ms) s = .next (s2.writeStatus (s1.rluAcc ms.val x) x (leVal b)
        (rluStatus Code.rluQueueFull.val false false 0 0 (s.tickOf (ms.val / 8))) .rluFormat))
    ∧ (s.takeInbox (msNode ms.val) (Packet.isCmd .copy) = some (p, s1) → p.payload = .cmd .copy x →
      16 ≤ (s.comp.copies.get ms.val).queue.length →
      s1.agReadClean { s1.copyAcc ms.val x with logVa := some x.va } (x.va + 16) 8 = (.ok b, s2) →
      exec (.copyArrive ms) s = .next (s2.writeStatus (s1.copyAcc ms.val x) x (leVal b)
        (copyStatus Code.copyQueueFull.val false 0 (s.tickOf (ms.val / 8))) .copyFormat)))
  ∧ (∀ (s s1 s2 s3 : State) (ms : MsId) (cy : Fin 4) (x : CmdRef) (xs : List CmdRef) (h b : List Byte) (rows : List Nat) (bank : Nat)
      (c : Code), (s.comp.rlus.get ms.val).queue = x :: xs → s.cmdHeld x = false →
    s.readRecord (s.rluAcc ms.val x) x 64 8 = (.ok h, s1) →
    s1.agReadClean { s.rluAcc ms.val x with logVa := some x.va } x.va (64 + 8 * (byteAt h 1 + byteAt h 0)) = (.ok b, s2) →
    (s.rowsRun = false ∨ s3.mem.waitHeld = false) →
    (s.rowsRun = false → s2.loadRlu ms.val x b = (.error c, s3) →
      exec (.rluCommandStart ms cy) s = .next (s3.rluRefuse ms.val x (parseRlu b).statusVa c))
    ∧ (s2.loadRlu ms.val x b = (.ok (rows, bank), s3) → s3.bankHeld ms.val bank = true →
      exec (.rluCommandStart ms cy) s = .next s)
    ∧ (s2.loadRlu ms.val x b = (.ok (rows, bank), s3) → s3.bankHeld ms.val bank = false → (s3.comp.rlus.get ms.val).queue = x :: xs →
      let now := 4 * s.tickOf (ms.val / 8) + cy.val
      let busy := s3.mem.edramBusy.get (32 * ms.val + bank)
      now < refreshCycle (s3.mem.edramNext.get (32 * ms.val + bank)) bank →
      ∃ t run, exec (.rluCommandStart ms cy) s = .next t ∧ (t.comp.rlus.get ms.val).queue = xs
        ∧ (t.comp.rlus.get ms.val).running = (s3.comp.rlus.get ms.val).running ++ [run]
        ∧ run.cmd = x ∧ run.record = b ∧ run.rows = rows ∧ run.bank = bank ∧ run.next = 0 ∧ run.ready = max now busy
        ∧ run.counts = List.replicate 16 (some 0) ∧ run.poisonVa = none ∧ t.mem = s3.mem ∧ t.net = s3.net
        ∧ (busy ≤ now → t = { s3 with comp := { s3.comp with rlus := t.comp.rlus } })))
  ∧ (∀ (s : State) (ms : MsId) (cy : Fin 4), (s.comp.rlus.get ms.val).queue = [] →
    exec (.rluCommandStart ms cy) s = .next s)
  ∧ (∀ (s s2 s3 : State) (ms : MsId) (bank : Fin 32) (r : RluRun), s.rluRunOf ms.val bank.val = some r →
    let k := s.comp.rlus.get ms.val
    let h := parseRlu r.record
    let k1 : Rlu := { k with running := k.running.filter (fun x => !(x.bank == bank.val)) }
    let s1 : State := { s with comp := { s.comp with rlus := s.comp.rlus.set ms.val k1 } }
    let acc := s1.rluAcc ms.val r.cmd
    let bad := r.poisonVa.isSome
    h.ops ≤ r.next → r.ready ≤ 4 * s.tickOf (ms.val / 8) + 3 → k.postponed.get bank.val = 0 → s.mem.parked = [] →
    (∀ x ∈ k.ending, x.bank ≠ bank.val) →
    r.ready < refreshCycle (s.mem.edramNext.get (32 * ms.val + bank.val)) bank.val →
    (h.countVa = 0 → s2 = s1) →
    (h.countVa ≠ 0 → s1.agWriteCode acc h.countVa (r.counts.flatMap (fun c => leBytes 4 (c.getD 0xFFFFFFFF))) = (none, s2)) →
    h.statusVa % 16 = 0 → s3.mem.waitHeld = false →
    ((match r.poisonVa with | some va => s2.poisonReq acc.node r.cmd.req va | none => s2).agWriteCode acc h.statusVa
      (rluStatus (if bad then Code.memPoison.val else Code.ok.val) r.corr bad r.next r.inserted ((r.ready - 1) / 4)) = (none, s3)) →
    exec (.rluCommandEnd ms bank) s = .next (s3.endCmd (msNode ms.val) r.cmd))

/-- The row operations RLU_COPY, RLU_CLEAR, RLU_NOT, RLU_AND, RLU_OR, RLU_XOR, RLU_XNOR and RLU_MAJ: the destination row takes the bitwise
result of the sources, which also stays in the sense amplifiers; a word that is poisoned in a source is poisoned in the result, and no other
is (R243, R245, R258). RLU_POPCOUNT: the count slot takes the number of 1 bits of its source, added to its count where the operation says so,
and no row changes. An operation takes the cycles of R254. No refresh of the bank is due or has to be repaid first, and memory holds no error
but poison. -/
def Obligations.RowOperationsWrite : Prop :=
  ∀ (s : State) (ms : MsId) (bank : Fin 32) (r : RluRun) (o : RowOp) (c : Instr),
    s.rluRunOf ms.val bank.val = some r → (rluOps r.record)[r.next]? = some o → r.ready ≤ 4 * s.tickOf (ms.val / 8) + 3 →
    r.ready < refreshCycle (s.mem.edramNext.get (32 * ms.val + bank.val)) bank.val →
    ((s.comp.rlus.get ms.val).postponed.get bank.val < 7 ∨ (r.next ≠ 0 ∧ ((rluOps r.record).getD (r.next - 1) o).hold = true)) →
    (∀ w e, s.mem.mem.marks.get? w = some e → e = .poison) → s.ras.corrections = [] →
    s.mem.mem.wf = true → (∀ x ∈ r.rows, ∃ n, n < 1024 ∧ x = rowAddr ms.val bank.val n) → r.sa.length = 1024 →
    let row (i : Nat) : List Byte := if i = 0x3F then r.sa else s.mem.mem.bytes (r.rows.getD i 0) 1024
    let bad (i : Nat) : Prop := ∃ j ∈ o.srcs, if j = 0x3F then i ∈ r.saBad else s.mem.mem.marks.get? (r.rows.getD j 0 + 8 * i) = some .poison
    ((o.op, c) ∈ [(1, Instr.rluCopy ms bank), (2, Instr.rluClear ms bank), (3, Instr.rluNot ms bank), (4, Instr.rluAnd ms bank),
        (5, Instr.rluOr ms bank), (6, Instr.rluXor ms bank), (7, Instr.rluXnor ms bank), (8, Instr.rluMaj ms bank)] →
      o.dst < r.rows.length →
      let out := (List.range 1024).map (fun i => rowByte o.op ((row o.a).getD i 0) ((row o.b).getD i 0) ((row o.c).getD i 0))
      let dst := r.rows.getD o.dst 0
      ∃ t sb pv, exec c s = .next t ∧ t.mem.mem.bytes dst 1024 = out
        ∧ (∀ a, (a < dst ∨ dst + 1024 ≤ a) → readCell t.mem.mem.cells a = readCell s.mem.mem.cells a
            ∧ t.mem.mem.marks.get? a = s.mem.mem.marks.get? a)
        ∧ (∀ i, i < 128 → (t.mem.mem.marks.get? (dst + 8 * i) = some .poison ↔ bad i) ∧ (i ∈ sb ↔ bad i))
        ∧ t.rluRunOf ms.val bank.val = some { r with
            next := r.next + 1, ready := r.ready + o.cost, sa := out, saBad := sb, poisonVa := pv }
        ∧ ((∀ i, i < 128 → ¬bad i) → pv = r.poisonVa)
        ∧ t.net = s.net ∧ t.sys = s.sys ∧ t.req = s.req ∧ t.io = s.io)
    ∧ (o.op = 9 → o.dst < r.counts.length → (∀ i, i < 128 → ¬bad i) → ∀ n, r.counts.getD o.dst none = some n →
      ∃ t sa, exec (.rluPopcount ms bank) s = .next t ∧ t.mem = s.mem
        ∧ t.rluRunOf ms.val bank.val = some { r with
            next := r.next + 1, ready := r.ready + o.cost, sa := sa, saBad := []
            counts := r.counts.set o.dst (some ((if o.cadd then n else 0) + onesOf (row o.a))) }
        ∧ t.net = s.net ∧ t.sys = s.sys ∧ t.req = s.req ∧ t.io = s.io)
    ∧ (o.op = 9 → o.dst < r.counts.length → (∃ i, i < 128 ∧ bad i) →
      ∃ t q, exec (.rluPopcount ms bank) s = .next t ∧ t.mem = s.mem ∧ t.rluRunOf ms.val bank.val = some q ∧ q.next = r.next + 1
        ∧ q.counts = r.counts.set o.dst none ∧ q.poisonVa.isSome = true)

/-- COPY_START: the head of an idle engine's queue, whose descriptors may be copied between, is its copy; one whose descriptors may not is
refused with COPY_FORMAT; a busy engine goes on with its copy (R282). COPY_BATCH: every element of the next 256 is read, then written where
the destination places it; the next batch follows after a tick for each 256 bytes, and after the longest wait of a read; a failed read ends
the copy and the batch writes nothing (R283 to R285). COPY_END: after the last batch or a failure the engine is idle and the status record
stands at its address with the code and the number of dropped writes; poison ends the request (R285, R514). -/
def Obligations.CopiesRun : Prop :=
  ∀ (s : State) (ms : MsId),
    let e := s.comp.copies.get ms.val
    (∀ (s1 s2 : State) (x : CmdRef) (xs : List CmdRef) (b : List Byte) (a d : Td), e.cur = none → e.queue = x :: xs → s.cmdHeld x = false →
      s.readRecord (s.copyAcc ms.val x) x 64 16 = (.ok b, s1) →
      s1.readTds (s.copyAcc ms.val x) [fieldLe b 0 8, fieldLe b 8 8] = (.ok [a, d], s2) →
      (copyOk a d = true → (s.rowsRun = false ∨ s2.mem.waitHeld = false) → (s2.comp.copies.get ms.val).queue = x :: xs →
        ∃ t, exec (.copyStart ms) s = .next t
          ∧ t.comp.copies.get ms.val = ⟨xs, some ⟨x, b, a, d, [], 0, 0, false, s2.extTick (ms.val / 8), none⟩⟩
          ∧ t = { s2 with comp := { s2.comp with copies := t.comp.copies } })
      ∧ (copyOk a d = false → s.rowsRun = false →
        exec (.copyStart ms) s = .next (s2.copyRefuse ms.val x (fieldLe b 16 8) .copyFormat)))
    ∧ (e.cur.isSome = true ∨ e.queue = [] → exec (.copyStart ms) s = .next s)
    ∧ (∀ (r : CopyRun), e.cur = some r →
      let total := r.src.windowSize
      let now := s.extTick (ms.val / 8)
      let is := (upFrom (256 * r.batch) (min 256 (total - 256 * r.batch))).map r.src.indexOf
      let acc := s.copyAcc ms.val r.cmd
      (∀ (vs : List (Nat × Bool)) (b : ReadBuf) (ow1 : List OwnerEnt) (l : List ByteW) (n : Nat) (s1 s2 s3 : State),
        r.code = none → 256 * r.batch < total → r.ready ≤ now → s.copyReads acc r.src is ⟨r.owners, []⟩ = (.ok vs, b, s1) →
        s1.copyPlaces acc r.dst (is.zip vs) b.owners [] 0 = (.ok (l, n), ow1, s2) → s2.flushBytes acc l = (none, s3) →
        (s.rowsRun = false ∨ s3.mem.waitHeld = false) → (s3.comp.copies.get ms.val).cur = some r →
        ∃ t, exec (.copyBatch ms) s = .next t
          ∧ (t.comp.copies.get ms.val).cur = some { r with
              batch := r.batch + 1, owners := ow1, dropped := r.dropped + n, poison := r.poison || vs.any (fun v => v.2)
              ready := now + b.wait + max 1 ((l.length + 255) / 256) }
          ∧ (t.comp.copies.get ms.val).queue = (s3.comp.copies.get ms.val).queue
          ∧ t = { s3 with comp := { s3.comp with copies := t.comp.copies } })
      ∧ (∀ (c : Code) (b : ReadBuf) (s1 : State), r.code = none → 256 * r.batch < total → r.ready ≤ now →
        s.copyReads acc r.src is ⟨r.owners, []⟩ = (.error c, b, s1) → (s.rowsRun = false ∨ s1.mem.waitHeld = false) →
        (s1.comp.copies.get ms.val).cur = some r →
        ∃ t, exec (.copyBatch ms) s = .next t ∧ (t.comp.copies.get ms.val).cur = some { r with code := some c.val } ∧ t.mem = s1.mem)
      ∧ (∀ s1 : State, (r.code.isSome = true ∨ total ≤ 256 * r.batch ∧ r.ready ≤ now) → fieldLe r.record 16 8 % 16 = 0 →
        let code := match r.code with | some c => c | none => if r.poison then Code.memPoison.val else Code.ok.val
        let s0 := if r.poison then s.poisonReq (msNode ms.val) r.cmd.req r.src.base else s
        (s0.modCopy ms.val (fun k => { k with cur := none })).agWriteCode acc (fieldLe r.record 16 8)
          (copyStatus code r.poison r.dropped (s.tickOf (ms.val / 8))) = (none, s1) →
        (s.rowsRun = false ∨ s1.mem.waitHeld = false) →
        exec (.copyEnd ms) s = .next (s1.endCmd (msNode ms.val) r.cmd)))

/-! ### Links, launch and the ends of requests (R350 to R372, R389 to R398) -/

/-- LINK_REPLAY: a flit that fails its check is resent with every later flit of the direction, 6 ticks later; the replay is counted at both
ends and for the flit, and the words that would be handed over after it are delayed with them (R356, R365). The 9th failure of one flit
degrades a link at full width, which trains, and takes one at half width down (R357, R358). RETRAIN: the link trains in both directions
(R372). LINK_RETRAIN_END, 2,048 ticks after a retrain began: the link comes up at full width where it does not degrade, HALF_ONLY is clear and
every lane trains; else at half width on the half with the fewer lane errors of those that trained; else it is down. RETRAIN reads 0 at both
ends, and a link that comes up resends its flits (R357, R372). Each does nothing where the link is not in such a state. -/
def Obligations.LinksReplayAndTrain : Prop :=
  (∀ (s : State) (a b : DieId) (i : Nat) (f : LinkFlit), a ≠ b → s.linkUp a.val b.val = true →
    let x := s.link.dirs.get (dirKey a.val b.val)
    let l := s.link.links.get (linkKey a.val b.val)
    x.flight[i]? = some f →
    (f.replays < 8 → ∃ t y k, exec (.linkReplay a ⟨b, i⟩) s = .next t ∧ t.link.dirs.get (dirKey a.val b.val) = y
      ∧ y.flight.length = x.flight.length
      ∧ (∀ j, j < i → y.flight[j]? = x.flight[j]?)
      ∧ (∀ j g, i ≤ j → x.flight[j]? = some g → ∃ h, y.flight[j]? = some h ∧ h.due = (g.due + 48) % 2 ^ 67 ∧ h.seq = g.seq
          ∧ h.replays = g.replays + (if j = i then 1 else 0))
      ∧ (∀ w ∈ x.words, s.reached a.val w.due.toNat = false → f.due / 8 ≤ w.due.toNat → { w with due := w.due + 6, delayed := true } ∈ y.words)
      ∧ t.link.links.get (linkKey a.val b.val) = k ∧ k.replays = l.replays + 1 ∧ k.replaysHi = l.replaysHi + 1 ∧ k.st = l.st
      ∧ k.errLo + k.errHi = l.errLo + l.errHi + 1
      ∧ (∀ j, j ≠ dirKey a.val b.val → t.link.dirs.get j = s.link.dirs.get j)
      ∧ t.mem = s.mem ∧ t.comp = s.comp ∧ t.net = s.net)
    ∧ (8 ≤ f.replays → l.st = .up32 → ∃ t y, exec (.linkReplay a ⟨b, i⟩) s = .next t ∧ t.link.links.get (linkKey a.val b.val) = y
      ∧ y.st = .training ∧ y.degrades = l.degrades + 1 ∧ y.degradesHi = l.degradesHi + 1 ∧ y.degrading = true
      ∧ y.retrainStart = some (s.tickOf (min a.val b.val))
      ∧ (t.link.dirs.get (dirKey a.val b.val)).flight = x.flight.map (fun g => { g with replays := 0 })
      ∧ t.mem = s.mem ∧ t.comp = s.comp ∧ t.net = s.net)
    ∧ (8 ≤ f.replays → l.st = .up16 → ∃ t, exec (.linkReplay a ⟨b, i⟩) s = .next t
      ∧ (t.link.links.get (linkKey a.val b.val)).st = .down ∧ (t.link.dirs.get (dirKey a.val b.val)).flight = []
      ∧ (t.link.dirs.get (dirKey b.val a.val)).flight = [] ∧ t.mem = s.mem))
  ∧ (∀ (s : State) (a b : DieId) (i : Nat),
    a = b ∨ s.linkUp a.val b.val = false ∨ (s.link.dirs.get (dirKey a.val b.val)).flight[i]? = none →
    exec (.linkReplay a ⟨b, i⟩) s = .next s)
  ∧ (∀ (s : State) (d : DieId) (k : Fin 3), let e := d.val ^^^ (k.val + 1)
    let l := s.link.links.get (linkKey d.val e)
    (s.appF .netLinkctl d.val (k.val + 1) 0 0 0 = 1 → l.st ≠ .off → l.st ≠ .training →
      s.dieFencedB d.val = false → s.dieFencedB e = false →
      ∃ t y, exec (.retrain d k) s = .next t ∧ t.link.links.get (linkKey d.val e) = y ∧ y.st = .training ∧ y.degrading = false
        ∧ y.retrainStart = some (s.tickOf (min d.val e)) ∧ y.degrades = l.degrades ∧ y.degradesHi = l.degradesHi
        ∧ (∀ j, j ≠ linkKey d.val e → t.link.links.get j = s.link.links.get j)
        ∧ t.appF .netLinkctl e (k.val + 1) 0 0 0 = 1
        ∧ t.mem = s.mem ∧ t.comp = s.comp ∧ t.net = s.net ∧ t.req = s.req)
    ∧ (s.appF .netLinkctl d.val (k.val + 1) 0 0 0 ≠ 1 ∨ l.st = .off ∨ l.st = .training ∨ s.dieFencedB d.val = true ∨ s.dieFencedB e = true →
      exec (.retrain d k) s = .next s))
  ∧ (∀ (s : State) (a b : DieId) (full lo hi : Bool) (since : Nat), a ≠ b →
    let l := s.link.links.get (linkKey a.val b.val)
    let x := s.link.dirs.get (dirKey a.val b.val)
    l.st = .training → l.retrainStart = some since →
    (2048 ≤ s.since (min a.val b.val) since →
      let halves : LinkSt × Bool :=
        if full = true ∧ l.degrading = false ∧ s.halfOnly a.val b.val = false then (.up32, false)
        else if lo = true ∧ hi = true then (.up16, decide (l.errHi < l.errLo))
        else if lo = true then (.up16, false)
        else if hi = true then (.up16, true)
        else (.down, l.half)
      ∃ t y, exec (.linkRetrainEnd a b full lo hi) s = .next t ∧ t.link.links.get (linkKey a.val b.val) = y
        ∧ y.st = halves.1 ∧ y.half = halves.2 ∧ y.retrainStart = none ∧ y.degrading = false
        ∧ t.appF .netLinkctl a.val (linkIndex a.val b.val) 0 0 0 = 0 ∧ t.appF .netLinkctl b.val (linkIndex a.val b.val) 0 0 0 = 0
        ∧ (y.st ≠ .down → (t.link.dirs.get (dirKey a.val b.val)).flight.map (fun f => f.seq) = x.flight.map (fun f => f.seq)
            ∧ t.mem.mem = s.mem.mem ∧ t.comp = s.comp ∧ t.req = s.req))
    ∧ (s.since (min a.val b.val) since < 2048 → exec (.linkRetrainEnd a b full lo hi) s = .next s))

/-- Agreed-TICK launch (R367, R368). LAUNCH_NOTICE: a die answers ARMED to the admitting die, or, for a barrier launch, is armed. LAUNCH_GO:
at T less 16 the admitting die sends GO to every die where every die has answered, else the request begins to end with LAUNCH_LATE.
LAUNCH_LATE: a die that has received GO at T or later ends the request with LAUNCH_LATE. LAUNCH_START: a die that holds GO starts its units in
tick T (R366, R367). LAUNCH_READY: a die whose units are armed puts READY on its link to each other die, to be handed over after the delay of
the link, and notes when its own would have crossed the link of the widest delay. LAUNCH_FIRE: with READY from every other die a die starts its
units in the present tick (R369). Each core of the request on the die starts at ENTRY in U-mode with ARG in a1, the DVA of its stream input in
a0, and an empty I-cache; no other core changes (R176, R397, R480). -/
def Obligations.LaunchesStartUnits : Prop :=
  (∀ (s s1 : State) (d : DieId) (p : Packet) (id tick : Nat) (r : Request),
    s.takeInbox (ctlNode d.val) Packet.isLaunch = some (p, s1) → p.payload = .launch id tick → s.findReq id = some r → r.step = .launch →
    (r.launch.barrier = false → ∀ ad, s.admitDie r.part = some ad →
      ∃ t, exec (.launchNotice d) s = .next t ∧ t.handed (ctlNode d.val) (ctlNode ad) 0 (.launchArmed id d.val)
        ∧ t.req = s.req ∧ t.comp = s.comp ∧ t.mem = s.mem)
    ∧ (r.launch.barrier = true → ∃ t q, exec (.launchNotice d) s = .next t ∧ t.findReq id = some q
        ∧ q = { r with launch := { r.launch with armed := r.launch.armed ++ [d.val] } } ∧ t.comp = s.comp ∧ t.mem = s.mem))
  ∧ (∀ (s : State) (r : Request) (ad : Nat), s.findReq r.id = some r → r.step = .launch → r.launch.barrier = false →
    r.launch.goSent = false → s.admitDie r.part = some ad →
    let due := s.reached ad ((r.launch.tick + 2 ^ 64 - 16) % 2 ^ 64)
    (due = true → (∀ d ∈ r.dies, d ∈ r.launch.armed) → ∃ t q, exec (.launchGo r.id) s = .next t ∧ t.findReq r.id = some q
      ∧ q.launch.goSent = true ∧ q.step = .launch ∧ (∀ d ∈ r.dies, t.handed (ctlNode ad) (ctlNode d) 0 (.launchGo r.id r.launch.tick))
      ∧ t.comp = s.comp ∧ t.mem = s.mem)
    ∧ (due = true → ∀ d ∈ r.dies, d ∉ r.launch.armed → r.err = none → ∃ t q, exec (.launchGo r.id) s = .next t ∧ t.findReq r.id = some q
      ∧ q.step = .ending ∧ q.err = some (s.tickOf (nodeDie r.lead), Code.launchLate.val, 0, 0))
    ∧ (due = false → exec (.launchGo r.id) s = .next s))
  ∧ (∀ (s s1 : State) (d : DieId) (p : Packet) (r : Request), s.takeInbox (ctlNode d.val) (Packet.isGo r.id) = some (p, s1) →
    s.findReq r.id = some r → (r.step = .launch ∨ r.step = .run) → r.err = none →
    ∃ t q, exec (.launchLate r.id d) s = .next t ∧ t.findReq r.id = some q ∧ q.step = .ending
      ∧ q.err = some (s.tickOf (nodeDie r.lead), Code.launchLate.val, 0, 0))
  ∧ (∀ (s : State) (r : Request) (d : DieId), s.findReq r.id = some r → (r.step = .launch ∨ r.step = .run) →
    (∀ x ∈ r.launch.started, x.1 ≠ d.val) →
    let a0 := match r.replay.bind (fun p => p.copyVa) with
      | some va => va
      | none => (r.event.map (fun e => e.2.2.2.2)).getD 0
    let starts (c : Instr) (tick : Nat) : Prop :=
      ∃ t q, exec c s = .next t ∧ t.findReq r.id = some q ∧ q.step = .run ∧ q.launch.started = r.launch.started ++ [(d.val, tick)]
        ∧ (∀ c ∈ r.cores, nodeDie (coreNode c) = d.val →
            let k := t.comp.cores.get c
            k.pc = BitVec.ofNat 64 r.entry ∧ k.mode = .u ∧ k.req = some r.id ∧ k.wait = .none ∧ k.zwaitlim = 262144
              ∧ k.x.get 10 = BitVec.ofNat 64 a0 ∧ k.x.get 11 = BitVec.ofNat 64 r.arg ∧ k.cmds = 0 ∧ k.resv = none ∧ k.icache = [])
        ∧ (∀ c, (c ∉ r.cores ∨ nodeDie (coreNode c) ≠ d.val) → t.comp.cores.get c = s.comp.cores.get c)
        ∧ t.mem = s.mem ∧ t.sys = s.sys
    (d.val ∈ r.launch.goHeld → s.reached d.val r.launch.tick = true → starts (.launchStart r.id d) r.launch.tick)
    ∧ (d.val ∈ r.launch.goHeld → s.reached d.val r.launch.tick = false → exec (.launchStart r.id d) s = .next s)
    ∧ (r.launch.barrier = true → s.mayFire r d.val = true → starts (.launchFire r.id d) (s.tickOf d.val))
    ∧ (r.launch.barrier = true → s.mayFire r d.val = false → exec (.launchFire r.id d) s = .next s)
    ∧ (r.launch.barrier = true → d.val ∈ r.launch.armed → (∀ x ∈ r.launch.selfReady, x.1 ≠ d.val) →
      ∃ t q lag, exec (.launchReady r.id d) s = .next t ∧ t.findReq r.id = some q
        ∧ q = { r with launch := { r.launch with selfReady := r.launch.selfReady ++ [(d.val, s.tickAfter d.val lag)] } }
        ∧ (∀ e ∈ r.dies, e ≠ d.val → s.linkLag d.val e ≤ lag)
        ∧ ((∀ e ∈ r.dies, e = d.val) ∧ lag = 0 ∨ ∃ e ∈ r.dies, e ≠ d.val ∧ lag = s.linkLag d.val e)
        ∧ (∀ e ∈ r.dies, e ≠ d.val → (t.link.dirs.get (dirKey d.val e)).words = (s.link.dirs.get (dirKey d.val e)).words
            ++ [⟨.ready r.id, (s.sys.clk.get d.val).tick, BitVec.ofNat 64 (s.tickAfter d.val (s.linkLag d.val e)), !s.linkUp d.val e⟩])
        ∧ t = { s with req := { s.req with requests := t.req.requests }, link := { s.link with dirs := t.link.dirs } }))

/-- REQUEST_END and REPLAY_STOP: once nothing of a request is under way it is done: no core runs it, its held locks are BROKEN, and where
its completion ring is ACTIVE its entry is formed, with its first error's code (R398, R461, R491, R494); requests of a scheduled region that
has gone end in the order of their numbers (R346). TRAIL_WRITE: after its entry has been written the request is gone, and its trail record
stands in the partition's ring, whose WRITE has advanced; in a full ring with WRAP the oldest record makes room, so READ has advanced too; a
full ring without WRAP counts the record as dropped, and a record whose write fails is lost (R389, R394). -/
def Obligations.RequestsEndAndAreRecorded : Prop :=
  (∀ (s u : State) (r : Request) (d : Desc) (c : Instr), s.findReq r.id = some r →
    let halted := r.cores.foldl State.haltCore (s.dropCmds r.id)
    ((c = .requestEnd r.id ∧ r.step = .ending ∧ u = s.dropCmds r.id ∧ u.reqBusy r.id = false
        ∧ (∀ e, r.err = some e → e.2.1 = Code.schedAbsent.val →
            ∀ q ∈ s.req.requests, q.id < r.id → q.step = .ending → q.part = r.part → q.srid ≠ r.srid))
      ∨ (c = .requestEnd r.id ∧ r.step = .run ∧ s.reqBusy r.id = false ∧ s.reqOver r = true
        ∧ ((r.prog = none ∧ u = s)
          ∨ ∃ g m, r.prog = some g ∧ s.findModel r.part r.model = some m ∧ u = s.writeReadout r g m r.outVa g.steps))
      ∨ (c = .replayStop r.id ∧ r.step = .run ∧ r.halted = true ∧ halted.reqBusy r.id = false
        ∧ ∃ g m y, r.prog = some g ∧ halted.findModel r.part r.model = some m ∧ r.replay = some y
          ∧ u = (halted.replayPieces r g m).1.foldl (fun s w => s.suaWrite (m.writer r) r.id (y.outVa + w.1)
              (List.take (y.outBytes - w.1) w.2)) (halted.replayPieces r g m).2)) →
    (s.rowsRun = false ∨ u.mem.waitHeld = false) →
    u.findReq r.id = some r → u.req.descs.find? (fun x => x.id == r.desc) = some d → d.orphan = false →
    (u.ring d.part true d.cq).st = 1 →
    ∃ t q, exec c s = .next t ∧ t.findReq r.id = some q ∧ q.step = .done ∧ q.err = r.err ∧ q.endedAt.isSome = true
      ∧ (∀ k ∈ r.cores, (t.comp.cores.get k).req ≠ some r.id)
      ∧ (∀ l, l < 1024 → r.launchedAt.isSome = true → (u.comp.locks.get l).st = 1 → r.ownsLock (u.comp.locks.get l) = true →
          (t.comp.locks.get l).st = 2)
      ∧ (∃ e ∈ t.req.due, e.desc = d.id ∧ e.part = d.part ∧ e.cq = d.cq
          ∧ fieldLe e.bytes 8 2 = ((r.err.map (fun x : Nat × Half × Word × Nat => x.2.1)).getD 0).toNat ∧ fieldLe e.bytes 0 8 = d.tag.toNat)
      ∧ t.mem.mem = u.mem.mem)
  ∧ (∀ (s s1 : State) (r : Request) (d : Nat), s.findReq r.id = some r → r.step = .done → (∀ e ∈ s.req.due, e.desc ≠ r.desc) →
    s.admitDie r.part = some d →
    let w := s.appWord ⟨.detTrailctl, d, r.part, 0⟩
    let idx : RegKey := ⟨.detTrailidx, d, r.part, 0⟩
    let n := 2 ^ bitsOf w 4 0
    let rd := bitsOf (s.appWord idx) 31 0
    let wr := bitsOf (s.appWord idx) 63 32
    let full := (wr + 2 ^ 32 - rd) % 2 ^ 32 = n
    let room := if full then s.hwSet idx 31 0 ((rd + 1) % 2 ^ 32) else s
    let write := room.agWriteCode (accessor r.part (ctlNode d) .dma none) (s.appF .detTrailbase d r.part 0 56 10 * 1024 + 1024 * (wr % n))
      (trailRecord r)
    (r.trailDue = true → bitOf w 63 = true → (¬full ∨ bitOf w 8 = true) → (s.rowsRun = false ∨ s1.mem.waitHeld = false) →
      (write = (none, s1) → ∃ t, exec (.trailWrite r.id) s = .next t ∧ bitsOf (t.appWord idx) 63 32 = (wr + 1) % 2 ^ 32
        ∧ bitsOf (t.appWord idx) 31 0 = bitsOf (s1.appWord idx) 31 0 ∧ t.findReq r.id = none
        ∧ t.mem = s1.mem ∧ t.comp = s1.comp ∧ t.net = s1.net)
      ∧ (∀ c, write = (some c, s1) → ∃ t, exec (.trailWrite r.id) s = .next t ∧ t.sys = s1.sys ∧ t.findReq r.id = none
        ∧ t.mem = s1.mem ∧ t.comp = s1.comp ∧ t.net = s1.net))
    ∧ (r.trailDue = true → bitOf w 63 = true → full → bitOf w 8 = false → (s.rowsRun = false ∨ s.mem.waitHeld = false) →
      ∃ t, exec (.trailWrite r.id) s = .next t ∧ bitsOf (t.appWord idx) 63 32 = wr ∧ t.findReq r.id = none
        ∧ bitsOf (t.visWord ⟨.detTrailctl, d, r.part, 0⟩) 47 16
            = satTo (2 ^ 32 - 1) (bitsOf (s.visWord ⟨.detTrailctl, d, r.part, 0⟩) 47 16 + 1)
        ∧ t.mem = s.mem ∧ t.comp = s.comp)
    ∧ (r.trailDue = false ∨ bitOf w 63 = false → (s.rowsRun = false ∨ s.mem.waitHeld = false) →
      ∃ t, exec (.trailWrite r.id) s = .next t ∧ t.findReq r.id = none ∧ t = { s with req := { s.req with requests := t.req.requests } }))

/-! ### Streams (R399 to R438) -/

/-- FRAME_RECEIVE at an enabled port whose link is up, of a die that takes frames: the first check of R410 that fails counts the frame in its
register, and changes nothing else; a PTP frame is counted in STR_RXPTP. A frame of a stream beyond its quota, a heartbeat, a fragment of a
wrong length, and one whose event refuses it, has another count, holds it already, or is not newer than the last is counted in the binding; a
fragment that an open event lacks is written to its storage and taken, and one of a newer event opens it (R410, R411, R420). EVENT_DEADLINE
closes an open event as INCOMPLETE, or COMPLETE where every fragment is held; EVENT_CLOSE closes a complete event as COMPLETE once its data
lines are performed (R422). EVENT_RECORD_WRITE writes the record of a closed event to its slot; EVENT_NOTICE announces the next closed event
in slot order: the notify increment, and the offer to the admitting die (R427, R428). STR_GAP marks a silent stream STALLED and counts it
(R424). -/
def Obligations.FramesAndEvents : Prop :=
  (∀ (s : State) (sp : SpId) (f : List Byte) (ok : Bool) (ts : Word),
    let d := sp.val / 2
    let i := sp.val % 2
    let ctl := s.appWord ⟨.strPortctl, d, i, 0⟩
    let mac := s.appF .strMac d i 0 47 0
    let ptp := bitOf ctl 8 && decide (be16 f 12 = 0x88F7)
    let long : Prop := f.length < 64 ∨ 9600 < f.length
    let counts (n : RegName) : Prop :=
      exec (.frameReceive sp f ok ts) s = .next (s.hwCount ⟨n, d, i, 0⟩ 63 0)
    bitOf ctl 63 = true → (s.io.sps.get sp.val).linkUp = true → s.dieServes d = true →
    (long → counts .strRxlen)
    ∧ (¬long → ok = true → be16 f 12 ≠ 0x8808 → addressed mac ctl (fieldBe f 0 6) ptp = true → ptp = true → counts .strRxptp)
    ∧ (¬long → ok = false → counts .strRxfcs)
    ∧ (¬long → ok = true → be16 f 12 = 0x8808 → counts .strRxpause)
    ∧ (¬long → ok = true → be16 f 12 ≠ 0x8808 → addressed mac ctl (fieldBe f 0 6) ptp = false → counts .strRxnotmine)
    ∧ (¬long → ok = true → be16 f 12 ≠ 0x8808 → addressed mac ctl (fieldBe f 0 6) ptp = true → ptp = false →
      (frameHeader ctl f = none → counts .strRxparse)
      ∧ (∀ o, frameHeader ctl f = some o → let h := parseDet (f.drop o)
          let room := h.inRange (f.length - 4 - o - 32)
          (room = false → counts .strRxhdr)
          ∧ (room = true → s.binding sp.val h.stream = none → counts .strRxunbound)
          ∧ (∀ b : Binding, room = true → s.binding sp.val h.stream = some b →
              let taken := s.hwCount ⟨.strRxframes, d, i, 0⟩ 63 0
              let fits : Prop := (s.io.sps.get sp.val).held.get b.part + f.length ≤ s.rxQuota sp.val b.part
              let held := taken.modSp sp.val (fun k => { k with held := k.held.modify b.part (· + f.length) })
              let s0 := (held.modBinding b (·.sequence h.seq)).modBinding b (fun k => { k with lastRx := ts, stalled := false })
              let inEvent (n : Nat) : Prop := exec (.frameReceive sp f ok ts) s = .next (s0.modBinding b (fun k => k.count n 1))
              let whole : Prop := h.len ≤ b.h.fragBytes ∧ (h.frag + 1 = h.count ∨ h.len = b.h.fragBytes)
              (¬fits → exec (.frameReceive sp f ok ts) s = .next (taken.modBinding b (fun k => k.count 13 1)))
              ∧ (fits → h.heartbeat = true → inEvent 0)
              ∧ (fits → h.heartbeat = false → ¬whole → inEvent 10)
              ∧ (fits → h.heartbeat = false → whole → (∀ x ∈ b.open_, atOrAfter ts.toNat x.deadline = false) →
                (∀ e : Event, b.openEv h.event = some e →
                  (e.refused = true → inEvent 12)
                  ∧ (e.refused = false → h.count ≠ e.fragCount → inEvent 11)
                  ∧ (e.refused = false → h.count = e.fragCount → h.frag ∈ e.got → inEvent 9)
                  ∧ (∀ s1 : State, e.refused = false → h.count = e.fragCount → h.frag ∉ e.got →
                    s0.streamWrite (s0.bindAgent b) (b.storage e + h.frag * b.h.fragBytes) ((f.drop (o + 32)).take h.len) = (0, s1) →
                    ∃ t c x, exec (.frameReceive sp f ok ts) s = .next t ∧ t.binding sp.val h.stream = some c
                      ∧ c.openEv h.event = some x ∧ x.got = e.got ++ [h.frag] ∧ x.lastTs = ts ∧ x.num = e.num
                      ∧ c.lastRx = ts ∧ c.stalled = false ∧ c.nextSeq = (h.seq + 1) % 2 ^ 32
                      ∧ t.mem = s1.mem ∧ t.comp = s1.comp ∧ t.req = s1.req))
                ∧ (b.openEv h.event = none → b.haveEvent = true → h.event ≤ b.lastEvent → inEvent 8)
                ∧ (b.openEv h.event = none → (b.haveEvent = false ∨ b.lastEvent < h.event) →
                  s.mem.mem.marks.entries = [] → s.mem.hbmParity = .const 0 →
                  ∃ t c x, exec (.frameReceive sp f ok ts) s = .next t ∧ t.binding sp.val h.stream = some c
                    ∧ c.haveEvent = true ∧ c.lastEvent = h.event ∧ c.openEv h.event = some x ∧ x.fragCount = h.count ∧ x.firstTs = ts))))))
  ∧ (∀ (s : State) (sp : SpId) (stream : Word32) (b : Binding),
    (∀ (e : Event) (c : Instr), s.binding sp.val stream.toNat = some b → b.openEv e.num = some e → e.refused = false →
      ((c = .eventDeadline sp stream e.num ∧ s.reached (sp.val / 2) e.deadline = true)
        ∨ (c = .eventClose sp stream e.num ∧ e.complete = true ∧ s.dataParked b e = false)) →
      ∃ t k x, exec c s = .next t ∧ t.binding sp.val stream.toNat = some k ∧ k.open_ = b.open_.erase e
        ∧ k.closed = b.closed ++ [x] ∧ x.ev = e ∧ bitsOf x.status 2 1 = (if e.complete then 0 else 1)
        ∧ x.written = false ∧ x.noticed = false)
    ∧ (∀ e : Event, s.binding sp.val stream.toNat = some b → b.openEv e.num = some e →
      (s.reached (sp.val / 2) e.deadline = false → exec (.eventDeadline sp stream e.num) s = .next s)
      ∧ (e.complete = false ∨ e.refused = true ∨ s.dataParked b e = true → exec (.eventClose sp stream e.num) s = .next s))
    ∧ (∀ (c : ClosedEvent) (s1 : State),
      s.closedBinding sp.val stream.toNat (fun _ x => x.ev.num == c.ev.num && !x.written) = some b →
      b.closed.find? (fun x => x.ev.num == c.ev.num && !x.written) = some c →
      s.streamWrite (s.streamAgent sp.val b.part) (b.recordVa c.ev.slot) (b.record c) = (0, s1) →
      ∃ t, exec (.eventRecordWrite sp stream c.ev.num) s = .next t
        ∧ (∃ k ∈ t.io.bindings, b.same k = true ∧ k.open_ = b.open_
          ∧ k.closed = mapWhere (fun x => x.ev.slot == c.ev.slot) (fun x => { x with written := true }) b.closed)
        ∧ t.mem = s1.mem ∧ t.req = s1.req)
    ∧ (∀ (c : ClosedEvent) (d : Nat), s.closedBinding sp.val stream.toNat Binding.announces = some b →
      b.closed.find? b.announces = some c → s.admitDie b.part = some d →
      ∃ t, exec (.eventNotice sp stream) s = .next t
        ∧ (∃ k ∈ t.io.bindings, b.same k = true ∧ k.open_ = b.open_
          ∧ k.closed = mapWhere (fun x => x.ev.slot == c.ev.slot) (fun x => { x with noticed := true }) b.closed)
        ∧ t.handed (spNode sp.val) (ctlNode d) 0 (.eventNotice sp.val stream.toNat c.ev.num.toNat c.ev.slot)
        ∧ (bitOf b.h.notify 15 = true →
            t.handed (spNode sp.val) (bitsOf b.h.notify 13 6) 0 (.beacon (.notify (bitsOf b.h.notify 5 0)) .none 0))
        ∧ t.mem = s.mem ∧ t.req = s.req ∧ t.comp = s.comp)
    ∧ (s.binding sp.val stream.toNat = some b → b.h.gap ≠ 0 → b.stalled = false → b.h.gap ≤ s.since (sp.val / 2) b.lastRx.toNat →
      b.h.gap ≤ s.since (sp.val / 2) b.boundAt →
      ∃ t, exec (.strGap sp stream) s = .next t ∧ t.binding sp.val stream.toNat = some { (b.count 15 1) with stalled := true }
        ∧ t.mem = s.mem ∧ t.comp = s.comp ∧ t.req = s.req))

/-- STEER_ARRIVE: a steering request in form joins a queue of fewer than 64 while the link is up; one that is not in form, or finds 64, is
refused, and one that comes while the link is down is dropped and counted (R434). STEER_TRANSMIT: the oldest frame is sent with the port's
sequence number, which advances (R436). STR_LINK_DOWN and STR_LINK_UP: the state of the link; as it goes down queued steering frames are
discarded, and a frame in reception at an enabled port is counted in STR_RXFCS (R403). DIGEST_FINAL: the digest of the event's bytes is kept as
an input of its request (R430); a failed read ends the request. PTP_MESSAGE at a port that takes PTP frames: it is counted (R410), and where
the instance runs and the message is of its domain, an Announce replaces its sender's last, and a change of the selected grandmaster restarts
the servo; a one-step Sync, or the Follow_Up of a two-step one, moves the mapping's tick to the Sync's timestamp and advances GEN, its offset,
base and step being the servo's, which the manual leaves open; a Delay_Resp ends the measurement that Delay_Req began (R413 to R415). The order
of Announces is the model's (assumption log 137). PTP_HOLDOVER: 2^28 ticks without Sync (R415). DELAY_REQ_TRANSMIT: its timestamp is kept
(R413). -/
def Obligations.SteeringDigestsAndTime : Prop :=
  (∀ (s : State) (sp : SpId),
    let k := s.io.sps.get sp.val
    (∀ (s1 s2 : State) (p : Packet) (x : CmdRef) (b : List Byte), s.takeInbox (spNode sp.val) Packet.isSteer = some (p, s1) →
      p.payload = .cmd .steer x →
      let part := s1.cmdPartition x
      let va := fieldLe b 40 8
      s1.readRecord (s1.streamAgent sp.val part) x 64 40 = (.ok b, s2) →
      let k2 := s2.io.sps.get sp.val
      (s2.steerOk sp.val part b = true → k2.steer.length < 64 → k2.linkUp = true → (s.rowsRun = false ∨ s2.mem.waitHeld = false) →
        ∃ t, exec (.steerArrive sp) s = .next t ∧ (t.io.sps.get sp.val).steer = k2.steer ++ [⟨x, b⟩]
          ∧ (∀ j, j ≠ sp.val → t.io.sps.get j = s2.io.sps.get j) ∧ t = { s2 with io := { s2.io with sps := t.io.sps } })
      ∧ (s2.steerOk sp.val part b = false → s.rowsRun = false →
        exec (.steerArrive sp) s = .next (s2.steerEnds sp.val x part va .strSteerFormat 0))
      ∧ (s2.steerOk sp.val part b = true → 64 ≤ k2.steer.length → s.rowsRun = false →
        exec (.steerArrive sp) s = .next (s2.steerEnds sp.val x part va .strSteerFull 0))
      ∧ (s2.steerOk sp.val part b = true → k2.steer.length < 64 → k2.linkUp = false → s.rowsRun = false →
        exec (.steerArrive sp) s = .next ((s2.hwCount ⟨.strTxdrop, sp.val / 2, sp.val % 2, 0⟩ 63 0).steerEnds sp.val x part va .strTxDown 0)))
    ∧ (∀ (q : SteerReq) (qs : List SteerReq) (data : List Byte) (s2 : State), k.steer = q :: qs → k.linkUp = true →
      s.cmdHeld q.cmd = false → s.rowsRun = false →
      let dst : RegKey := ⟨.strSteerdst, sp.val / 2, sp.val % 2, 0⟩
      let u := (if s.settled dst then s.applyBoundary dst (fun _ => true) else s).modSp sp.val (fun k => { k with steer := qs })
      u.agReadClean (u.streamAgent sp.val (u.cmdPartition q.cmd)) (fieldLe q.bytes 24 8) (fieldLe q.bytes 32 4) = (.ok data, s2) →
      ∃ t rest, exec (.steerTransmit sp) s = .next t ∧ (t.io.sps.get sp.val).steer = qs
        ∧ (t.io.sps.get sp.val).steerSeq = k.steerSeq + 1
        ∧ t.io.outputs = s2.io.outputs ++ [.frame sp.val (s2.steerFrame sp.val q.bytes data)] ++ rest)
    ∧ (∀ lost : Bool, k.linkUp = true →
      (∃ t, exec (.strLinkDown ⟨sp, lost⟩) s = .next t ∧ (t.io.sps.get sp.val).linkUp = false ∧ (t.io.sps.get sp.val).steer = [])
      ∧ (k.steer = [] → ∃ t, exec (.strLinkDown ⟨sp, lost⟩) s = .next t
        ∧ t.sys = (if lost && bitOf (s.appWord ⟨.strPortctl, sp.val / 2, sp.val % 2, 0⟩) 63
            then s.hwCount ⟨.strRxfcs, sp.val / 2, sp.val % 2, 0⟩ 63 0 else s).sys
        ∧ t.mem = s.mem ∧ t.comp = s.comp ∧ t.net = s.net ∧ t.req = s.req))
    ∧ (k.linkUp = false → (s.sys.clk.get (sp.val / 2)).supplied = true → ∃ t, exec (.strLinkUp sp) s = .next t
      ∧ t.io.sps = s.io.sps.set sp.val { k with linkUp := true } ∧ t.mem = s.mem ∧ t.comp = s.comp ∧ t.net = s.net ∧ t.req = s.req)
    ∧ (∀ (g : DigestDue) (data : List Byte) (s1 : State) (ev : Word) (stream : Word32) (c : Code),
      ((s.io.digests.filter (fun x => x.sp == sp.val)).take 4).find? (fun x => x.stream == stream.toNat && x.event == ev) = some g →
      s.rowsRun = false →
      let s0 : State := { s with io := { s.io with digests := s.io.digests.filter (fun y => !(y == g)) } }
      let acc := { s.streamAgent g.sp g.part with req := some g.req }
      let read := s0.agReadClean acc g.dataVa g.dataLen
      (∀ r : Request, read = (.ok data, s1) → s1.findReq g.req = some r →
        ∃ t q, exec (.digestFinal sp stream ev) s = .next t ∧ t.findReq g.req = some q
          ∧ q.inputs = r.inputs ++ [⟨1, r.armIndex.getD 0, (g.state ++ data).length, sha256 (g.state ++ data)⟩]
          ∧ t.io.digests = s1.io.digests ∧ t = { s1 with req := { s1.req with requests := t.req.requests } })
      ∧ (read = (.error .memPoison, s1) → exec (.digestFinal sp stream ev) s = .next (s1.poisonReq acc.node g.req g.dataVa))
      ∧ (read = (.error c, s1) → c ≠ .memPoison →
        exec (.digestFinal sp stream ev) s = .next (s1.endReq g.req c (BitVec.ofNat 64 g.dataVa) acc.node))))
  ∧ (∀ (s : State) (d : DieId),
    let w := s.appWord ⟨.strPtpctl, d.val, 0, 0⟩
    let i := bitsOf w 8 8
    let ctl := s.appWord ⟨.strPortctl, d.val, i, 0⟩
    let p := s.io.ptp.get d.val
    let up := (s.io.sps.get (2 * d.val + i)).linkUp
    let s1 := s.hwCount ⟨.strRxptp, d.val, i, 0⟩ 63 0
    let becomes (c : Instr) (q : Ptp) : Prop := exec c s = .next { s1 with io := { s1.io with ptp := s1.io.ptp.set d.val q } }
    (∀ m : PtpMsg, bitOf ctl 63 = true → bitOf ctl 8 = true → up = true →
      (bitOf w 63 = false ∨ m.domain.toNat ≠ bitsOf w 7 0 → exec (.ptpMessage d m) s = .next s1)
      ∧ (bitOf w 63 = true → m.domain.toNat = bitsOf w 7 0 →
        (∀ a, m.body = .announce a →
          let l := p.announces.filter (fun x => x.sender != a.sender) ++ [a]
          let gm := ((selectAnnounce l).map (fun x => x.grandmaster.toNat)).getD 0
          (gm = p.grandmaster → becomes (.ptpMessage d m) { p with announces := l })
          ∧ (gm ≠ p.grandmaster → ∃ t, exec (.ptpMessage d m) s = .next t
            ∧ t.io.ptp.get d.val = { p with announces := l, grandmaster := gm, state := 1, inLock := 0, syncTs := none }
            ∧ (∀ j, j ≠ d.val → t.io.ptp.get j = s.io.ptp.get j) ∧ t.mem = s.mem ∧ t.comp = s.comp ∧ t.sys = s1.sys))
        ∧ (∀ ts f ns, m.body = .sync ts f ns false ∨ (m.body = .followUp ns ∧ p.syncTs = some (ts, f)) →
          ∃ t q, exec (.ptpMessage d m) s = .next t ∧ t.io.ptp.get d.val = q ∧ q.mapTick = ts ∧ q.gen = (p.gen + 1) % 65536
            ∧ q.lastSync = s.tickOf d.val ∧ q.syncTs = none ∧ q.grandmaster = p.grandmaster ∧ (q.state = 1 ∨ q.state = 2)
            ∧ t = { s1 with free := s.free + 1, io := { s1.io with ptp := s1.io.ptp.set d.val q } })
        ∧ (∀ ts f ns, m.body = .sync ts f ns true →
          becomes (.ptpMessage d m) { p with syncTs := some (ts, f), lastSync := s.tickOf d.val })
        ∧ (∀ ns ts f, m.body = .delayResp ns → p.delayReq = some (ts, f) →
          becomes (.ptpMessage d m) { p with delayReq := none, delay := some (ts, f, ns) })
        ∧ (m.body = .other ∨ (∃ ns, m.body = .followUp ns ∧ p.syncTs = none) ∨ (∃ ns, m.body = .delayResp ns ∧ p.delayReq = none) →
          exec (.ptpMessage d m) s = .next s1)))
    ∧ (∀ m : PtpMsg, bitOf ctl 63 = false ∨ bitOf ctl 8 = false ∨ up = false → exec (.ptpMessage d m) s = .next s)
    ∧ (∀ ts frac, bitOf w 63 = true → up = true →
      exec (.delayReqTransmit d ts frac) s = .next { s with io := { s.io with
        ptp := s.io.ptp.set d.val { p with delayReq := some (ts, frac) }, outputs := s.io.outputs ++ [Output.delayReq d.val] } })
    ∧ (bitOf w 63 = true → p.state ≠ 3 → 2 ^ 28 ≤ s.since d.val p.lastSync →
      exec (.ptpHoldover d) s = .next { s with io := { s.io with ptp := s.io.ptp.set d.val { p with state := 3 } } }))
  ∧ (∀ (l : List Announce) (a : Announce), selectAnnounce l = some a → a ∈ l ∧ ∀ b ∈ l, announceRank a ≤ announceRank b)

/-! ### Host ports (R439 to R469) -/

/-- Lantern. LANTERN_SNOOP: SnpData and SnpCur leave a line shared, and have one with an uncorrectable error read again (R502); SnpInv gives it
up and starts a re-read; a line that is being re-read is not held, and one that Lantern does not hold has been released (R450, R459).
LANTERN_REREAD_DATA, and the data of a poll: what Lantern holds of the line follows, and each armed word that changed is announced to
Steward of its partition's admitting die, where no posted write waits for a bank (R450, R453). LANTERN_POLL: a line that is due is read
(R451). PAGE_DOORBELL_WRITE: a write to the word of a PAGE ring of the function's partition makes a notice, which waits behind posted
writes that wait (R454) and is dropped and counted where a link of its path is down (R448); any other of an enabled function is dropped
and counted (R446, R452). On a port of another kind, or whose link is down, and for a function that is not enabled, nothing happens. -/
def Obligations.LanternAnnouncesChanges : Prop :=
  ∀ (s : State) (port : Fin 4),
    let h := s.io.hps.get port.val
    let after (k : Hp) (o : List Output) : State :=
      { s with io := { s.io with hps := s.io.hps.set port.val k, outputs := s.io.outputs ++ o } }
    let out (o : List Output) : State := { s with io := { s.io with outputs := s.io.outputs ++ o } }
    let again (line : Nat) : Hp :=
      { h with lantern := mapWhere (fun e => e.line == line) (fun e => { e with rereading := true }) h.lantern }
    (∀ line, h.cxl = true → h.linkUp = true →
      ((∃ e ∈ h.lantern, e.line = line ∧ e.rereading = false) →
        exec (.lanternSnoop port line .inv) s
            = .next (after (again line) [.cxlRsp port.val "RspIHitSE" line, .cxlReq port.val "RdShared" line])
        ∧ ∀ sn, sn ≠ .inv →
          ((∀ e ∈ h.lantern, e.line = line → e.ue = false) →
            exec (.lanternSnoop port line sn) s = .next (out [.cxlRsp port.val "RspSHitSE" line]))
          ∧ ((∃ e ∈ h.lantern, e.line = line ∧ e.ue = true) →
            exec (.lanternSnoop port line sn) s
              = .next (after (again line) [.cxlRsp port.val "RspSHitSE" line, .cxlReq port.val "RdShared" line])))
      ∧ ((∃ e ∈ h.lantern, e.line = line) → (∀ e ∈ h.lantern, e.line = line → e.rereading = true) → ∀ sn,
        exec (.lanternSnoop port line sn) s = .next (out [.cxlRsp port.val "RspIHitI" line]))
      ∧ ((∀ e ∈ h.lantern, e.line ≠ line) → ∀ sn,
        exec (.lanternSnoop port line sn) s = .next (out [.cxlRsp port.val "RspIHitSE" line])))
    ∧ (h.cxl = false ∨ h.linkUp = false → ∀ line sn bytes, exec (.lanternSnoop port line sn) s = .next s
        ∧ exec (.lanternRereadData port line bytes) s = .next s)
    ∧ (∀ line bytes c (m : LanternEnt → Bool), s.mem.parked = [] →
      ((c = .lanternRereadData port line bytes ∧ h.cxl = true ∧ h.linkUp = true ∧ m = (·.rereading))
        ∨ ∃ id r, c = .hostReadCompletion port id (.data bytes) ∧ h.reads.find? (fun x => x.id == id) = some r ∧ r.why = .poll line
            ∧ m = fun e => e.func == r.func) →
      ∃ t, exec c s = .next t ∧ t.mem = s.mem ∧ t.comp = s.comp ∧ t.req = s.req
        ∧ (t.io.hps.get port.val).lantern = mapWhere (fun e => e.line == line && m e) (fun e =>
            { e with words := e.words.map (fun w => { w with last := lineWord bytes w.word }), rereading := false, ue := false }) h.lantern
        ∧ ∀ e ∈ h.lantern, e.line = line → m e = true →
          ∀ w ∈ e.words, ∀ d, (e.ue = true ∨ lineWord bytes w.word ≠ w.last) → s.admitDie w.part = some d → s.pathUp port.val d = true →
            t.queued (hpNode port.val) (ctlNode d) 0
              (.doorbell ⟨w.part, port.val, e.func, w.ring, w.cq, lineWord bytes w.word, (s.sys.clk.get port.val).tick⟩))
    ∧ (∀ line,
      let due := h.lantern.find? (fun x => x.line == line && s.reached port.val x.pollDue)
      (∀ e, h.cxl = false → h.linkUp = true → h.lastPoll ≠ some (s.tickOf port.val) → due = some e →
        ∃ t, exec (.lanternPoll port line) s = .next t
          ∧ (t.io.hps.get port.val).reads = h.reads ++ [⟨h.nextRead, e.func, 64 * line, 64, .poll line, s.tickOf port.val⟩]
          ∧ (t.io.hps.get port.val).lastPoll = some (s.tickOf port.val)
          ∧ t.io.outputs = s.io.outputs ++ [.hostRead port.val e.func (64 * line) 64 h.nextRead]
          ∧ t = { s with io := { s.io with hps := t.io.hps, outputs := t.io.outputs } })
      ∧ (h.cxl = true ∨ h.linkUp = false ∨ h.lastPoll = some (s.tickOf port.val) ∨ due = none →
        exec (.lanternPoll port line) s = .next s))
    ∧ (∀ (fn : Fin 16) (off size : Nat) (v : Word),
      (∀ p : Nat, s.funcPart port.val fn.val = some p → s.dieServes port.val = true →
        let cq := decide (0x200 ≤ off)
        let q := off % 0x200 / 8
        let value := if size = 4 then BitVec.ofNat 64 (v.toNat % 2 ^ 32) else v
        let tick := (s.sys.clk.get port.val).tick
        let ok : Prop := off < 0x400 ∧ off % 8 = 0 ∧ (size = 8 ∨ size = 4) ∧ (s.req.rings.get (ringKey p cq q)).st ≠ 0
          ∧ bitOf (s.appWord ⟨if cq then .ringCqctl else .ringSqctl, p, q, 0⟩) 5 = true
        (ok → s.writesWait p = false → ∀ d, s.admitDie p = some d →
          (s.pathUp port.val d = true →
            ∃ t, exec (.pageDoorbellWrite ⟨port, fn⟩ off size v) s = .next t
              ∧ t.queued (hpNode port.val) (ctlNode d) 0 (.doorbell ⟨p, port.val, fn.val, q, cq, value, tick⟩)
              ∧ t.mem = s.mem ∧ t.req = s.req ∧ t.io = s.io)
          ∧ (s.pathUp port.val d = false → exec (.pageDoorbellWrite ⟨port, fn⟩ off size v) s = .next (after { h with nDrop := h.nDrop + 1 } [])))
        ∧ (ok → s.writesWait p = true → exec (.pageDoorbellWrite ⟨port, fn⟩ off size v) s
          = .next { s with mem := { s.mem with parked := s.mem.parked ++ [.notice p port.val fn.val q cq value tick] } })
        ∧ (¬ok → exec (.pageDoorbellWrite ⟨port, fn⟩ off size v) s = .next (after { h with dbDrop := h.dbDrop + 1 } [])))
      ∧ (s.funcPart port.val fn.val = none ∨ s.dieServes port.val = false → exec (.pageDoorbellWrite ⟨port, fn⟩ off size v) s = .next s))

/-- Completion lines. CACHE_LINE_SNOOP: a modified line answers with its data and, but for SnpCur, is given up and asked for again; an
exclusive one is asked for again, or, for SnpCur, kept; a shared one is answered RspIHitSE; one not held misses (R457).
EVICT_CROSSING_SNOOP: a line in the evict buffer answers with its data (R458). GO_WRITEPULL: the data goes, Bogus where a snoop has taken
it, or is dropped, and the line is released; where its ring is still ACTIVE the line of the ring's next entry is asked for (R456, R458).
RDOWN_GRANT: the line is held in E; that of a deleted ring is evicted (R456, R501). CC_HOLD_EXPIRY: a line whose hold has run out is
evicted (R456). Data of a line with an uncorrectable error goes as Poison and puts its ACTIVE ring into ERROR with MEM_UE (R502). A
command that names no such line does nothing. -/
def Obligations.CompletionLinesFollowTheHost : Prop :=
  (∀ (s : State) (port : Fin 4) (line : Nat) (c : CcLine),
    let h := s.io.hps.get port.val
    let r := s.ring c.part true c.cq
    let change (f : CcLine → CcLine) : Hp := { h with lines := mapWhere (fun l => decide (l = c)) f h.lines }
    let after (k : Hp) (o : List Output) : State :=
      { s with io := { s.io with hps := s.io.hps.set port.val k, outputs := s.io.outputs ++ o } }
    let asks := change (fun l => { l with st := .i, asking := true })
    let released : Hp := { h with lines := h.lines.erase c }
    let data (bogus : Bool) : Output := .cxlData port.val c.line c.data c.ue bogus
    let failing : Prop := c.ue = true ∧ r.st = 1 ∧ c.orphan = false
    let out (o : List Output) : State := { s with io := { s.io with outputs := s.io.outputs ++ o } }
    let sends (i : Instr) (z : State) : Prop :=
      (¬failing → exec i s = .next z)
      ∧ (failing → ∃ t rest, exec i s = .next t ∧ t.io.hps = z.io.hps ∧ t.io.outputs = z.io.outputs ++ rest
          ∧ (t.ring c.part true c.cq).st = 2 ∧ (t.ring c.part true c.cq).code = Code.memUe.val ∧ t.mem = s.mem ∧ t.comp = s.comp)
    (s.lineAt port.val line (fun x => !x.evicting) = some c →
      (c.st = .m → (∀ sn, sn ≠ .cur → sends (.cacheLineSnoop port line sn) (after asks
          [.cxlReq port.val "RdOwn" c.line, .cxlRsp port.val "RspIFwdM" line, data false]))
        ∧ sends (.cacheLineSnoop port line .cur) (out [.cxlRsp port.val "RspVFwdV" line, data false]))
      ∧ (c.st = .e → (∀ sn, sn ≠ .cur → exec (.cacheLineSnoop port line sn) s
          = .next (after asks [.cxlReq port.val "RdOwn" c.line, .cxlRsp port.val "RspIHitSE" line]))
        ∧ exec (.cacheLineSnoop port line .cur) s
          = .next (out [.cxlRsp port.val "RspVFwdV" line]))
      ∧ (c.st = .s → ∀ sn, exec (.cacheLineSnoop port line sn) s
        = .next (out [.cxlRsp port.val "RspIHitSE" line]))
      ∧ (c.st = .i → ∀ sn, exec (.cacheLineSnoop port line sn) s
        = .next (out [.cxlRsp port.val "RspIHitI" line])))
    ∧ (s.lineAt port.val line (fun x => x.evicting) = some c →
      (∀ sn, sn ≠ .cur → sends (.evictCrossingSnoop port line sn) (after (change (fun l => { l with snooped := true }))
        [.cxlRsp port.val "RspIFwdM" line, data false]))
      ∧ sends (.evictCrossingSnoop port line .cur) (out [.cxlRsp port.val "RspVFwdV" line, data false])
      ∧ (c.orphan = true ∨ r.st ≠ 1 →
        exec (.goWritepull port line false) s = .next (after released [data c.snooped])
        ∧ exec (.goWritepull port line true) s = .next (after released []))
      ∧ (failing → sends (.goWritepull port line false) (after released [data c.snooped]))
      ∧ (∀ drop, c.orphan = false → r.st = 1 → c.ue = false ∨ drop = true →
        let s0 := after released (if drop then [] else [data c.snooped])
        ∀ p f a ns ro s1, s0.gate (s0.ringAgent c.part r.port) .write false (s0.slotVa c.part true c.cq r.write.toNat)
            = (.ok (.host p f a ns ro), s1) →
          let k := s1.io.hps.get r.port
          let next : CcLine := ⟨r.func, c.part, c.cq, a / 64, .i, zeros 64, none, true, false, false, false, false⟩
          exec (.goWritepull port line drop) s = .next { s1 with io := { s1.io with
            hps := s1.io.hps.set r.port
              { k with lines := k.lines.filter (fun x => !(x.part == c.part && x.cq == c.cq && !x.orphan)) ++ [next] }
            outputs := s1.io.outputs ++ [.cxlReq r.port "RdOwn" (a / 64)] } }))
    ∧ (∀ bytes, s.lineAt port.val line (fun x => x.asking) = some c →
      let c1 := { c with st := Mesi.e, asking := false, data := bytes }
      let held := change (fun _ => c1)
      (c.orphan = false → exec (.rdownGrant port line bytes) s = .next (after held []))
      ∧ (c.orphan = true → exec (.rdownGrant port line bytes) s = .next (after
          { held with lines := mapWhere (fun l => decide (l = c1)) (fun l => { l with evicting := true, holdDue := none }) held.lines }
          [.cxlReq port.val "DirtyEvict" c.line])))
    ∧ (s.lineAt port.val line (fun x => !x.evicting && !x.asking && x.holdDue.any (fun t => s.reached port.val t)) = some c →
      exec (.ccHoldExpiry port line) s
        = .next (after (change (fun l => { l with evicting := true, holdDue := none })) [.cxlReq port.val "DirtyEvict" c.line])))
  ∧ (∀ (s : State) (port : Fin 4) (line : Nat) sn bytes drop,
    (s.lineAt port.val line (fun x => !x.evicting) = none → exec (.cacheLineSnoop port line sn) s = .next s)
    ∧ (s.lineAt port.val line (fun x => x.evicting) = none →
      exec (.evictCrossingSnoop port line sn) s = .next s ∧ exec (.goWritepull port line drop) s = .next s)
    ∧ (s.lineAt port.val line (fun x => x.asking) = none → exec (.rdownGrant port line bytes) s = .next s)
    ∧ (s.lineAt port.val line (fun x => !x.evicting && !x.asking && x.holdDue.any (fun t => s.reached port.val t)) = none →
      exec (.ccHoldExpiry port line) s = .next s))

/-- BAR4_ACCESS, once accesses that waited for a bank have had their turn (R253): a read reaches its lines for the function's partition under
agent class HOST and is answered with their data, line by line, or with a Completer Abort where a check fails; one that meets a bank that
a row command holds waits; a write reaches the lines that pass their checks; until the function is enabled and its die takes accesses, a
read is Unsupported Request and a write is dropped (R443, R445). MEMWIN_ACCESS: a line of an enabled window is read and written, with its
poison; while its stack is fenced a read returns Poison and a write is dropped (R463, R465). HDM_DECODER_COMMIT: the decoder of a port
that runs CXL (R463). HOST_READ_COMPLETION gives a core's load its value, and lets the entry that waits for a flush be written;
HP_CPL_TIMEOUT, after 50,000 ticks, and an answer other than data give a core's load an access fault, put the ring that waits for a flush
into ERROR, and end a poll (R451, R461, R466). A FUNCTION reset (FLR, PERST for every function of the port, HP_LINK_UP for every enabled
one): running requests of the function begin to end, its HELD locks are BROKEN with cause 5, its rings are OFF, its vectors' masks as at
reset (R467, R468, R602). HP_LINK_DOWN: no host read stays outstanding (R467). Where nothing is named, nothing happens. -/
def Obligations.HostAccesses : Prop :=
  (∀ (s0 : State) (port : Fin 4) (f : Fin 16) (off : Nat),
    let s := s0.unpark
    let out (s : State) (o : List Output) : State := { s with io := { s.io with outputs := s.io.outputs ++ o } }
    ((s.funcPart port.val f.val = none ∨ s.dieServes port.val = false) →
        (∀ n, exec (.bar4Access ⟨port, f⟩ off (.read n)) s0 = .next (out s [.hostUr port.val f.val]))
          ∧ ∀ bs, exec (.bar4Access ⟨port, f⟩ off (.write bs)) s0 = .next s)
      ∧ (∀ p, s.funcPart port.val f.val = some p → s.dieServes port.val = true →
        let x : Accessor := { (s.ringAgent p port.val) with cls := .host }
        let va := s.appF .hpAperture port.val f.val 0 56 30 * 2 ^ 30 + off
        (∀ n, 0 < n → va % 64 + n ≤ 64 →
          (∀ r s1, s.readLine x va n = (.ok r, s1) → s1.mem.waitHeld = false →
            exec (.bar4Access ⟨port, f⟩ off (.read n)) s0 = .next (out s1 [.hostData port.val f.val r.bytes r.poison]))
          ∧ (∀ c s1, s.readLine x va n = (.error c, s1) → s1.mem.waitHeld = false →
            exec (.bar4Access ⟨port, f⟩ off (.read n)) s0 = .next (out s1 [.hostCa port.val f.val])))
        ∧ (∀ n,
          let r := s.hostLines x (linePieces (n / 64 + 2) va n)
          (∀ ls, r.2.mem.waitHeld = false → r.1 = some ls → exec (.bar4Access ⟨port, f⟩ off (.read n)) s0
            = .next (out r.2 (ls.map (fun l => .hostData port.val f.val l.1 l.2))))
          ∧ (r.2.mem.waitHeld = false → r.1 = none →
            exec (.bar4Access ⟨port, f⟩ off (.read n)) s0 = .next (out r.2 [.hostCa port.val f.val]))
          ∧ (r.2.mem.waitHeld = true → exec (.bar4Access ⟨port, f⟩ off (.read n)) s0
            = .next { s with mem := { s.mem with parked := s.mem.parked ++ [.read p x.node port.val f.val va n] } }))
        ∧ (∀ bs, exec (.bar4Access ⟨port, f⟩ off (.write bs)) s0 = .next (s.streamWrite x va bs).2)
        ∧ (∀ bs, bs ≠ [] → va % 64 + bs.length ≤ 64 →
          exec (.bar4Access ⟨port, f⟩ off (.write bs)) s0 = .next (s.writeLine x va bs).2)))
  ∧ (∀ (s : State) (port : Fin 4),
    let h := s.io.hps.get port.val
    let out (s : State) (o : Output) : State := { s with io := { s.io with outputs := s.io.outputs ++ [o] } }
    (∀ (line a : Nat), s.windowLine port.val line = some a →
      ((addrUnit a).any (fun x => s.unitUp x.1 x.2) = true →
        exec (.memwinAccess port line .read) s = .next
          (out (s.readMem none a 64).2 (.hostData port.val 0 (s.readMem none a 64).1.bytes (s.readMem none a 64).1.poison))
        ∧ (∀ bs bad, ∃ t, exec (.memwinAccess port line (.write bs bad)) s = .next t)
        ∧ (s.mem.mem.marks.entries = [] → (∀ k, pseudoChannel a = some k → s.mem.hbmParity.get k = 0 ∧ s.mem.hbmSev.get k = 0) →
          a < 0x8000000000 →
          exec (.memwinAccess port line .read) s = .next (out s (.hostData port.val 0 (s.mem.mem.bytes a 64) false))
          ∧ ∀ bs bad, bs.length = 64 → s.mem.mem.wf = true → ∃ t, exec (.memwinAccess port line (.write bs bad)) s = .next t
            ∧ t.mem.mem.bytes a 64 = bs
            ∧ (∀ b, (b < a ∨ a + 64 ≤ b) → readCell t.mem.mem.cells b = readCell s.mem.mem.cells b)
            ∧ (bad = false → t.mem.mem.marks.entries = [])
            ∧ (bad = true → ∀ w, t.mem.mem.marks.get? w = if w = a ∨ w = a + 32 then some .poison else none)
            ∧ t.net = s.net ∧ t.sys = s.sys ∧ t.req = s.req ∧ t.io = s.io))
      ∧ ((addrUnit a).any (fun x => s.unitUp x.1 x.2) = false →
        (∃ t bs rest, exec (.memwinAccess port line .read) s = .next t
          ∧ t.io.outputs = s.io.outputs ++ [.hostData port.val 0 bs true] ++ rest ∧ t.mem = s.mem)
        ∧ ∀ bs bad, ∃ t, exec (.memwinAccess port line (.write bs bad)) s = .next t ∧ t.mem = s.mem))
    ∧ (∀ line a, s.windowLine port.val line = none → exec (.memwinAccess port line a) s = .next s)
    ∧ (h.cxl = false → ∀ base commit, exec (.hdmDecoderCommit port base commit) s = .next s)
    ∧ (h.cxl = true → ∀ base commit, let k : Hp := { h with decoder := if commit then some base else none }
      exec (.hdmDecoderCommit port base commit) s = .next { s with io := { s.io with hps := s.io.hps.set port.val k } }))
  ∧ (∀ (s : State) (port : Fin 4) (id : Nat),
    let found := (s.io.hps.get port.val).reads.find? (fun x => x.id == id)
    (found = none → exec (.hpCplTimeout port id) s = .next s ∧ ∀ a, exec (.hostReadCompletion port id a) s = .next s)
    ∧ (∀ r, found = some r → s.since port.val r.issued < 50000 → exec (.hpCplTimeout port id) s = .next s))
  ∧ (∀ (s : State) (port : Fin 4) (id : Nat) (r : HostRead) (c : Instr) (code : Half),
    let h := s.io.hps.get port.val
    h.reads.find? (fun x => x.id == id) = some r →
    let failing : Prop := (c = .hpCplTimeout port id ∧ 50000 ≤ s.since port.val r.issued ∧ code = Code.hpCplTimeout.val)
      ∨ (∃ a, c = .hostReadCompletion port id a ∧ (a = .unsupported ∨ a = .abort) ∧ code = Code.hpUr.val)
    (∀ core tag, r.why = .core core tag →
      (∀ bytes, ∃ t, exec (.hostReadCompletion port id (.data bytes)) s = .next t
        ∧ t.handed (hpNode port.val) (coreNode core) 2 (.memAns (.value (BitVec.ofNat 64 (leVal (bytes.take r.len)))) core tag)
        ∧ (t.io.hps.get port.val).reads = h.reads.filter (fun x => !(x.id == id)) ∧ t.mem = s.mem ∧ t.comp = s.comp ∧ t.req = s.req)
      ∧ (failing → ∃ t, exec c s = .next t ∧ t.handed (hpNode port.val) (coreNode core) 2 (.memAns (.fault code) core tag)
        ∧ (t.io.hps.get port.val).reads = h.reads.filter (fun x => !(x.id == r.id)) ∧ t.mem = s.mem ∧ t.comp = s.comp ∧ t.req = s.req))
    ∧ (∀ line, r.why = .poll line → failing → exec c s
        = .next { s with io := { s.io with hps := s.io.hps.set port.val { h with reads := h.reads.filter (fun x => !(x.id == r.id)) } } })
    ∧ (∀ p q, r.why = .flush p q →
      (∀ bytes, ∃ t, exec (.hostReadCompletion port id (.data bytes)) s = .next t
        ∧ (∀ e ∈ t.req.due, e.part = p → e.cq = q → e.flushId ≠ some id) ∧ t.req.due.length = s.req.due.length
        ∧ (t.io.hps.get port.val).reads = h.reads.filter (fun x => !(x.id == id)) ∧ t.mem = s.mem ∧ t.comp = s.comp)
      ∧ (failing → ∃ t, exec c s = .next t ∧ (t.ring p true q).st = 2 ∧ (t.ring p true q).code = code
        ∧ (∀ e ∈ t.req.due, ¬(e.part = p ∧ e.cq = q)) ∧ t.mem = s.mem ∧ t.comp = s.comp)))
  ∧ (∀ (s : State) (port : Fin 4),
    let h := s.io.hps.get port.val
    let clean (t : State) (f : Nat) : Prop :=
      (∀ r, s.findReq r.id = some r → r.running = true → r.port = port.val → r.func = f →
        ∃ q, t.findReq r.id = some q ∧ q.step = .ending)
      ∧ (∀ l, l < 1024 → (s.comp.locks.get l).st = 1 → (s.comp.locks.get l).port = port.val → (s.comp.locks.get l).func = f →
          (t.comp.locks.get l).st = 2 ∧ (t.comp.locks.get l).cause = 5)
      ∧ (∀ k, k < 2048 → (s.req.rings.get k).st ≠ 0 → (s.req.rings.get k).port = port.val → (s.req.rings.get k).func = f →
          (t.req.rings.get k).st = 0)
      ∧ (∀ v, (t.io.hps.get port.val).masked.get (f, v) = h.masked.rest)
    (∀ f : Fin 16, ∃ t, exec (.flr ⟨port, f⟩) s = .next t ∧ clean t f.val ∧ t.mem.mem = s.mem.mem)
    ∧ (∃ t, exec (.perst port) s = .next t ∧ (∀ f, f < 16 → clean t f) ∧ (t.io.hps.get port.val).perst = true ∧ t.mem.mem = s.mem.mem)
    ∧ (∀ cxl, h.linkUp = false → 4 ≤ (s.sys.clk.get port.val).step → ∃ t, exec (.hpLinkUp port cxl) s = .next t
      ∧ (t.io.hps.get port.val).linkUp = true ∧ (t.io.hps.get port.val).cxl = cxl
      ∧ (∀ f p, f < 16 → s.funcPart port.val f = some p → clean t f) ∧ t.mem.mem = s.mem.mem)
    ∧ (h.linkUp = true → ∃ t, exec (.hpLinkDown port) s = .next t ∧ (t.io.hps.get port.val).linkUp = false
      ∧ (t.io.hps.get port.val).reads = [] ∧ t.mem = s.mem)
    ∧ (h.linkUp = false → exec (.hpLinkDown port) s = .next s)
    ∧ (∀ cxl, h.linkUp = true ∨ (s.sys.clk.get port.val).step < 4 → exec (.hpLinkUp port cxl) s = .next s))

/-! ### Descriptors and rings (R470 to R501) -/

/-- DOORBELL_NOTICE: a notice of a completion ring sets HEAD (R472); a count beyond the ring puts it into ERROR with RING_OVERRUN (R473); a
notice of a submission ring has its new descriptors read and taken in ring order, each once its completion ring has a slot and no FENCE
of the ring waits (R474, R475, R487): HEAD advances, and a descriptor in form waits for its row, one not in form completes with
DESC_FORMAT (R477); a failed read, a short descriptor and a bad completion ring put the ring into ERROR (R473, R476). In NO_SERVICE, at
another die, and for a ring that is not ACTIVE the notice is dropped. FENCE completes with OK once every descriptor of its scope taken
before it has completed, those of armed RUNs aside (R487). A descriptor that Steward may not act on yet stays as it is (R475). -/
def Obligations.DescriptorsTakenAndFenced : Prop :=
  (∀ (s : State) (d : DieId) (n : Notice) (ns : List Notice), s.req.notices.get d.val = n :: ns → n.seen = false →
    let r := s.req.rings.get (ringKey n.part n.cq n.ring)
    let size := s.ringSize n.part n.cq n.ring
    let ring (k : Ring) (l : List Notice) : State :=
      { s with req := { s.req with rings := s.req.rings.set (ringKey n.part n.cq n.ring) k, notices := s.req.notices.set d.val l } }
    (s.admitDie n.part ≠ some d.val ∨ s.ras.noService = true ∨ r.st ≠ 1 → ∀ descs,
      exec (.doorbellNotice d descs) s = .next { s with req := { s.req with notices := s.req.notices.set d.val ns } })
    ∧ (s.admitDie n.part = some d.val → s.ras.noService = false → r.st = 1 →
      (n.cq = true → (r.write - n.value).toNat ≤ size → ∀ descs,
        exec (.doorbellNotice d descs) s = .next (ring { r with head := n.value } ns))
      ∧ (n.cq = true → size < (r.write - n.value).toNat → ∀ descs, ∃ t, exec (.doorbellNotice d descs) s = .next t
          ∧ (t.ring n.part true n.ring).st = 2 ∧ (t.ring n.part true n.ring).code = Code.ringOverrun.val ∧ t.mem = s.mem ∧ t.comp = s.comp)
      ∧ (n.cq = false → size < (n.value - r.head).toNat → ∀ descs, ∃ t, exec (.doorbellNotice d descs) s = .next t
          ∧ (t.ring n.part false n.ring).st = 2 ∧ (t.ring n.part false n.ring).code = Code.ringOverrun.val ∧ t.mem = s.mem ∧ t.comp = s.comp)
      ∧ (n.cq = false → (n.value - r.head).toNat ≤ size →
        let s0 := s.modRing (ringKey n.part false n.ring) (fun r => { r with tail := n.value })
        let waits := ring { r with tail := n.value } ({ n with seen := true } :: ns)
        (∀ descs, let z := State.takeAll n.part n.ring n.value descs s0
          exec (.doorbellNotice d descs) s = .next { z.1 with req := { z.1.req with
            notices := z.1.req.notices.set d.val (if z.2 then ns else { n with seen := true } :: ns) } })
        ∧ (n.value = r.head → ∀ descs, exec (.doorbellNotice d descs) s = .next (ring { r with tail := n.value } ns))
        ∧ (n.value ≠ r.head → exec (.doorbellNotice d []) s = .next waits)
        ∧ (n.value ≠ r.head → (∃ x ∈ s.req.descs, x.part = n.part ∧ x.sq = n.ring ∧ x.kind = 8) → ∀ descs,
          exec (.doorbellNotice d descs) s = .next waits)
        ∧ (∀ (raw : List Byte), n.value = r.head + 1 → (∀ x ∈ s.req.descs, ¬(x.part = n.part ∧ x.sq = n.ring ∧ x.kind = 8)) →
          let x := s0.ringAgent n.part r.port
          let va := s0.slotVa n.part false n.ring r.head.toNat
          let broken (t : State) (code : Half) : Prop := (t.ring n.part false n.ring).st = 2 ∧ (t.ring n.part false n.ring).code = code
            ∧ t.req.descs = s.req.descs ∧ t.req.notices.get d.val = ns
          (∀ c s1, s0.gate x .read false va = (.error c, s1) → s1.req = s0.req →
            ∃ t, exec (.doorbellNotice d [raw]) s = .next t ∧ broken t c.val)
          ∧ (∀ a s1, s0.gate x .read false va = (.ok (.dev a), s1) → s1.req = s0.req →
            ∃ t, exec (.doorbellNotice d [raw]) s = .next t ∧ broken t Code.ringFormat.val)
          ∧ (∀ (port f a : Nat) (ns' ro : Bool) (s1 : State), s0.gate x .read false va = (.ok (.host port f a ns' ro), s1) →
            s1.req = s0.req → s1.admitDie n.part = some d.val →
            let cq := byteAt raw 2
            let bad : Prop := 63 < cq ∨ (s.ring n.part true cq).st ≠ 1 ∨ bitOf (s.visWord (ringCtl n.part true cq)) 63 = false
            let up : Prop := s1.pathUp d.val port = true ∧ (s1.io.hps.get port).linkUp = true
            let taken (t : State) (k : Desc) : Prop :=
              k.id = s.req.nextDesc ∧ k.part = n.part ∧ k.sq = n.ring ∧ k.cq = cq ∧ k.kind = byteAt raw 0 ∧ k.bytes = raw
              ∧ k.port = port ∧ k.func = f ∧ k.started = false ∧ t.req.nextDesc = s.req.nextDesc + 1
              ∧ (t.ring n.part false n.ring).head = r.head + 1 ∧ t.req.notices.get d.val = ns
              ∧ t.io.outputs = s1.io.outputs ++ [.hostRead port f a 64 (s1.io.hps.get port).nextRead]
              ∧ t.mem = s1.mem ∧ t.comp = s1.comp
            (s1.pathUp d.val port = false → ∃ t, exec (.doorbellNotice d [raw]) s = .next t ∧ broken t Code.linkDown.val)
            ∧ (s1.pathUp d.val port = true → (s1.io.hps.get port).linkUp = false →
              ∃ t, exec (.doorbellNotice d [raw]) s = .next t ∧ broken t Code.hpLinkDown.val)
            ∧ (up → raw.length < 64 → ∃ t, exec (.doorbellNotice d [raw]) s = .next t ∧ broken t Code.hpUr.val)
            ∧ (up → raw.length = 64 → bad → ∃ t, exec (.doorbellNotice d [raw]) s = .next t ∧ broken t Code.ringFormat.val
              ∧ (t.ring n.part false n.ring).head = r.head + 1)
            ∧ (up → raw.length = 64 → ¬bad → s.ringSize n.part true cq ≤ s.cqReserved n.part cq →
              exec (.doorbellNotice d [raw]) s = .next waits)
            ∧ (up → raw.length = 64 → ¬bad → s.cqReserved n.part cq < s.ringSize n.part true cq →
              ∃ t k, exec (.doorbellNotice d [raw]) s = .next t ∧ taken t k
                ∧ (descOk raw = true → t.req.descs = s.req.descs ++ [k])
                ∧ (descOk raw = true → ¬(byteAt raw 0 = 9 ∧ byteAt raw 16 = 3) → t.net = s1.net)
                ∧ (descOk raw = true → byteAt raw 0 = 9 → byteAt raw 16 = 3 → ∀ c, s1.findSched (byteAt raw 17) = some c → c.part = n.part →
                  c.active = true → ∃ c', t.findSched (byteAt raw 17) = some c' ∧ c'.removal = true)
                ∧ (descOk raw = false → t.completed k Code.descFormat.val 0 0 0 false)))))))
  ∧ (∀ (s u : State) (d : Desc),
    let scope (x : Desc) : Prop := x.part = d.part ∧ (byteAt d.bytes 16 = 1 ∨ x.sq = d.sq) ∧ x.id < d.id
    let waiting : Prop := s.req.descs.find? (fun x => x.id == d.id) = some d ∧ d.kind = 8 ∧ d.started = true ∧ d.orphan = false
      ∧ (s.ring d.part true d.cq).st = 1 ∧ u = s
    s.mayAct d 8 u ∨ waiting →
    ((∀ x ∈ s.req.descs, scope x → s.armedDesc x = true) →
      ∃ t, exec (.fence d.id) s = .next t ∧ t.completed d Code.ok.val 0 0 0 false ∧ t.mem = s.mem ∧ t.comp = s.comp)
    ∧ ((∃ x ∈ s.req.descs, scope x ∧ s.armedDesc x = false) → exec (.fence d.id) s = .next u))
  ∧ (∀ (s : State) (i : Nat), (∀ x ∈ s.req.descs, x.id = i → x.started = false ∧ s.fresh x = false) →
    ∀ c ∈ [Instr.run i, .loadModel i, .unload i, .updateCouplings i, .bindStream i, .unbindStream i, .readState i, .replay i, .fence i,
      .ptUpdate i, .schedInstall i, .schedRemove i, .regWrite i, .nop i], exec c s = .next s)

/-- A NOP completes with OK and has no other effect (R489): its descriptor is no longer taken, its entry is due and on its way to the port,
and all else is as it was. -/
def Obligations.NopCompletes : Prop :=
  ∀ (s u : State) (d : Desc), s.mayAct d 10 u →
    ∃ t, exec (.nop d.id) s = .next t ∧ t.completed d Code.ok.val 0 0 0 false
      ∧ t.req.descs = s.req.descs.filter (fun x => !(x.id == d.id))
      ∧ t = { s with
          req := { s.req with descs := t.req.descs, due := t.req.due }
          net := { s.net with nextId := t.net.nextId, inject := t.net.inject, eject := t.net.eject, near := t.net.near } }

/-- RUN: a request whose program record, container header, admission (R94) and declared regions pass has the descriptor's form, mode, entry,
seed and argument, and the admitted model's replica count; one that asks for a seed waits for it (R108), and a reproducible one for its
islands (R573). REPLAY: the request has the seed, the mode and the replica count of the record; its argument is a free value (R396, R397).
Then its pins are walked (R237), and it takes its number (R390); one that arms waits for an event at its binding (R481); one whose region
or model is in use waits (R337, R483, R485); any other launches: with a tick of its barrier's, at the tick it names, or with LAUNCH_LATE
where that is below A + 64; at the multiple of 8 at least 64 ticks on where it names none; in the record's phase for a REPLAY (R367,
R369, R397); the CTL-N of each of its dies has the notice. A request that waited launches as RUN or REPLAY comes again and it need wait
no more. A step that fails completes the descriptor with its code, with DVA and node for a Gatehouse code (R490). -/
def Obligations.RequestsAdmitted : Prop :=
  let fails (i : Instr) (s z : State) (d : Desc) (e : Fail) : Prop := (z.ring d.part true d.cq).st = 1 →
    ∃ t, exec i s = .next t ∧ t.completed d e.code.val (if isGhCode e.code.val then BitVec.ofNat 64 e.va else 0)
      (if isGhCode e.code.val then e.node else 0) 0 false
  let launches (i : Instr) (s z : State) (q : Request) (agreed : Nat → Option Nat) : Prop :=
    let a := (z.admitDie q.part).getD 0
    (∀ e, q.srid = some e → ∃ k, z.findSched e = some k ∧ k.broken = false) →
      (z.mustWait q = true → ∃ t, exec i s = .next t ∧ t.findReq q.id = some { q with step := .waitRegion } ∧ t.mem = z.mem ∧ t.comp = z.comp)
      ∧ (z.mustWait q = false → ∀ T, (if q.launch.barrier then some 0 else agreed (z.tickOf a)) = some T →
        ∃ t, exec i s = .next t
          ∧ t.findReq q.id = some { q with step := .launch, launch := { q.launch with admitted := z.tickOf a, tick := T % 2 ^ 64 } }
          ∧ (∀ e ∈ q.dies, t.handed (ctlNode a) (ctlNode e) 0 (.launch q.id (T % 2 ^ 64))) ∧ t.mem = z.mem ∧ t.comp = z.comp)
      ∧ (z.mustWait q = false → q.launch.barrier = false → q.err = none → agreed (z.tickOf a) = none →
        ∃ t y, exec i s = .next t ∧ t.findReq q.id = some y ∧ y.step = .ending ∧ y.err.map (fun e => e.2.1) = some Code.launchLate.val)
  let goes (i : Instr) (s z : State) (q : Request) (agreed : Nat → Option Nat) : Prop :=
    ((q.seed.isEmpty && q.drawn) = true ∨ z.islandsReady q = false → exec i s = .next z)
    ∧ ((q.seed.isEmpty && q.drawn) = false → z.islandsReady q = true →
      let read := z.jobRead (z.steward q.part .dma) q.pinVa (16 * q.pinCount)
      (∀ f z7, q.pinCount ≠ 0 →
        (read = (.error f, z7) ∨ ∃ bs z6, read = (.ok bs, z6) ∧ z6.pinList q.part q.id q.timed bs = (some f, z7)) →
        z7.findReq q.id = some q → ∃ t y, exec i s = .next t ∧ t.findReq q.id = some y ∧ y.step = .ending
          ∧ y.err.map (fun e => e.2) = some (f.code.val, BitVec.ofNat 64 f.va, f.node))
      ∧ (∀ z7, (q.pinCount = 0 ∧ z7 = z
          ∨ q.pinCount ≠ 0 ∧ ∃ bs z6, read = (.ok bs, z6) ∧ z6.pinList q.part q.id q.timed bs = (none, z7)) →
        z7.findReq q.id = some q →
        let no := z7.req.seqs.get q.part
        let q1 := { q with seqNo := no, trailDue := true }
        let z8 := { z7 with req := { z7.req with seqs := z7.req.seqs.set q.part (no + 1)
                                                 requests := mapWhere (fun r => r.id == q.id) (fun _ => q1) z7.req.requests } }
        (∀ x ∈ z7.req.requests, x.id = q.id → x = q) →
        (q.armIndex = none → launches i s z8 q1 agreed)
        ∧ (∀ k b, q.armIndex = some k →
          z8.streamBinding q.part (((q.prog.map (fun g => (parseSpr g.spr).streamIds)).getD []).getD k 0) = some b →
          ∃ t, exec i s = .next t ∧ t.findReq q.id = some { q1 with step := .waitEvent }
            ∧ (∃ b' ∈ t.io.bindings, b'.stream = b.stream ∧ b'.part = b.part ∧ b'.armed = b.armed ++ [q.id])
            ∧ t.mem = z8.mem ∧ t.comp = z8.comp)))
  let added (z : State) (q : Request) : State :=
    { z with req := { z.req with requests := z.req.requests ++ [q], nextReq := z.req.nextReq + 1 } }
  (∀ (s u : State) (d : Desc), s.mayAct d 1 u → s.rowsRun = false →
    let b := d.bytes
    let f := byteAt b 17
    let mode : RMode := match byteAt b 16 with
      | 0 => .free
      | 1 => .fixed
      | _ => .any
    let arm := if bitOf f 2 then some (byteAt b 18) else none
    (∀ e z, u.readProgram d.part (fieldLe b 24 8) = (.error e, z) → fails (.run d.id) s z d e)
    ∧ (∀ p s2, u.readProgram d.part (fieldLe b 24 8) = (.ok p, s2) →
      let k := parseSpr p.1
      (∀ e z, s2.readContainer d.part (fieldLe b 32 8) = (.error e, z) → fails (.run d.id) s z d e)
      ∧ (∀ c s3, s2.readContainer d.part (fieldLe b 32 8) = (.ok c, s3) →
        let ask : Ask := ⟨d.part, d.port, mode, bitOf f 1, c, arm, bitOf f 0, none⟩
        (∀ e z, s3.admitRun ask k = (.error e, z) → fails (.run d.id) s z d e)
        ∧ (∀ x s4, s3.admitRun ask k = (.ok x, s4) →
          (∀ e z, s4.digestRegions d.part (Config.declaredResident x.1.progHash x.1.placeHash) = (.error e, z) → fails (.run d.id) s z d e)
          ∧ (∀ g s5, s4.digestRegions d.part (Config.declaredResident x.1.progHash x.1.placeHash) = (.ok g, s5) →
            s5.findReq s5.req.nextReq = none → ∃ q : Request,
              q.id = s5.req.nextReq ∧ q.desc = d.id ∧ q.part = d.part ∧ q.port = d.port ∧ q.func = d.func ∧ q.mode = mode ∧ q.step = .arm
              ∧ q.model = k.modelId ∧ q.sprVa = fieldLe b 24 8 ∧ q.outVa = k.outVa ∧ q.outBytes = k.outBytes ∧ q.arg = fieldLe b 20 4
              ∧ q.entry = x.1.entry ∧ q.nodes = x.2.1 ∧ q.pinVa = x.1.pinVa ∧ q.pinCount = x.1.pinCount ∧ q.srid = x.1.srid
              ∧ q.progHash = x.1.progHash ∧ q.placeHash = x.1.placeHash ∧ q.drawn = bitOf f 0
              ∧ q.seed = (if bitOf f 0 then [] else sliceB b 48 16) ∧ q.live = bitOf k.flags 0 ∧ q.replicas = x.2.2.replicas
              ∧ q.lowered = decide (x.2.2.replicas < k.want) ∧ q.takePartial = bitOf f 3 ∧ q.armIndex = arm ∧ q.event = none
              ∧ q.launch.barrier = bitOf f 1 ∧ q.launch.tick = fieldLe b 40 8 ∧ q.err = none ∧ q.inputs = [programInput p.1 p.2]
              ∧ q.replay = none ∧ q.declared = g
              ∧ q.prog = some (startProgram k p.1 p.2 x.2.2.replicas none)
              ∧ goes (.run d.id) s (added s5 q) q (fun A => if fieldLe b 40 8 = 0 then some (roundUp 8 (A + 64))
                else if fieldLe b 40 8 < A + 64 then none else some (fieldLe b 40 8)))))))
  ∧ (∀ (s u : State) (d : Desc), s.mayAct d 7 u → s.rowsRun = false →
    (∀ e z, u.checkReplay d = (.error e, z) → fails (.replay d.id) s z d e)
    ∧ (∀ rb va g copy p c nodes m s2, u.checkReplay d = (.ok (rb, (va, g), copy, p, (c, nodes, m)), s2) →
      let k := parseSpr p.1
      let r := parseRecord rb
      let phase := if byteAt d.bytes 44 = 1 then 48000 else 120
      let stop := if fieldLe d.bytes 40 4 < r.steps then some (fieldLe d.bytes 40 4) else none
      s2.findReq s2.req.nextReq = none → ∃ q : Request,
        q.id = s2.req.nextReq ∧ q.desc = d.id ∧ q.part = d.part ∧ q.port = d.port ∧ q.func = d.func ∧ q.step = .arm
        ∧ q.mode = (if r.mode = 1 then .fixed else .any) ∧ q.seed = r.seed ∧ q.drawn = false ∧ q.replicas = r.replicas ∧ q.nodes = nodes
        ∧ q.entry = c.entry ∧ q.pinVa = c.pinVa ∧ q.pinCount = c.pinCount ∧ q.srid = c.srid ∧ q.sprVa = va ∧ q.model = k.modelId
        ∧ q.arg = (Config.freeWord s2.free).toNat % 2 ^ 32 ∧ q.armIndex = none ∧ q.launch.barrier = false ∧ q.err = none
        ∧ q.declared = g ∧ q.prog = some (startProgram k p.1 p.2 r.replicas stop)
        ∧ q.inputs = programInput p.1 p.2 :: ((List.range (min 10 r.inputs)).map (recordInput rb)).filter (fun e => e.kind == 1)
        ∧ q.replay = some ⟨r.seqNo, r.tick, decide (byteAt d.bytes 44 = 1), fieldLe d.bytes 40 4, fieldLe d.bytes 48 8,
            fieldLe d.bytes 56 4, copy⟩
        ∧ goes (.replay d.id) s (added { s2 with free := s2.free + 1 } q) q
            (fun A => some (A + 64 + (r.tick % phase + phase - (A + 64) % phase) % phase))))
  ∧ (∀ (s : State) (d : Desc) (r : Request) (c : Instr), (c = .run d.id ∧ d.kind = 1 ∨ c = .replay d.id ∧ d.kind = 7) →
    s.rowsRun = false → s.req.descs.find? (fun x => x.id == d.id) = some d → d.started = true → r.part = d.part →
    s.req.requests.find? (fun q => q.desc == d.id && decide (q.step = .waitRegion)) = some r → s.findReq r.id = some r →
    launches c s s r r.agreedTick)

/-- LOAD_MODEL: a load table that passes its checks becomes a resident model with the admitted replica count, its images in the coupling
stores with that count in their headers (R51, R482). UNLOAD: a model that no request but armed ones has is removed, and those end with
MODEL_ABSENT (R482). UPDATE_COUPLINGS: once no request of the model runs, each coefficient takes its new value, and the next request
begins with a full sweep (R55, R483); an entry that may not be written completes it with CST_FORMAT before any is. READ_STATE: once no
request of the model runs, its output is written (R485). Each completes with OK, or with MODEL_ABSENT, DESC_FORMAT, or the code of the
check or access that fails, with DVA and node for a Gatehouse code (R490); while it must wait, nothing else happens. -/
def Obligations.ModelsLoadAndChange : Prop :=
  let fails (i : Instr) (s z : State) (d : Desc) (e : Fail) : Prop := (z.ring d.part true d.cq).st = 1 →
    ∃ t, exec i s = .next t ∧ t.completed d e.code.val (if isGhCode e.code.val then BitVec.ofNat 64 e.va else 0)
      (if isGhCode e.code.val then e.node else 0) 0 false
  let acts (s u : State) (d : Desc) (kind : Nat) : Prop := s.mayAct d kind u
    ∨ (s.req.descs.find? (fun x => x.id == d.id) = some d ∧ d.kind = kind ∧ d.started = true ∧ d.orphan = false
      ∧ (s.ring d.part true d.cq).st = 1 ∧ u = s)
  (∀ (s u : State) (d : Desc), s.mayAct d 2 u → byteAt d.bytes 16 = 0 → s.rowsRun = false →
    (∀ e z, u.loadChecks d = (.error e, z) → fails (.loadModel d.id) s z d e)
    ∧ (∀ (k : Spr) (imgs : List Image) (r : Nat) (s2 : State), u.loadChecks d = (.ok (k, imgs, r), s2) → (s2.ring d.part true d.cq).st = 1 →
      ∃ t, exec (.loadModel d.id) s = .next t ∧ t.completed d Code.ok.val 0 0 r (decide (r < k.want))
        ∧ t.comp.models.map (fun m => (m.part, m.id, m.replicas))
          = s2.comp.models.map (fun m => (m.part, m.id, m.replicas)) ++ [(d.part, k.modelId, r)]
        ∧ (∀ as i bs, imgs = as ++ i :: bs → (∀ j ∈ bs, j.sc < 64 ∧ j.sc ≠ i.sc ∧ 10 ≤ j.bytes.length ∧ j.off + j.bytes.length ≤ 0x400000) →
          i.off + i.bytes.length ≤ 0x400000 → 10 ≤ i.bytes.length → s2.mem.mem.wf = true → i.sc < 64 →
          t.mem.mem.bytes (cstAddr i.sc i.off) i.bytes.length = overlay i.bytes 8 (leBytes 2 r))))
  ∧ (∀ (s u : State) (d : Desc), acts s u d 2 → byteAt d.bytes 16 = 1 →
    let id := fieldLe d.bytes 18 2
    let mine (r : Request) : Prop := r.part = d.part ∧ r.model = id
    (s.findModel d.part id = none → ∃ t, exec (.unload d.id) s = .next t ∧ t.completed d Code.modelAbsent.val 0 0 0 false
      ∧ t.mem = s.mem ∧ t.comp = s.comp)
    ∧ ((∃ m, s.findModel d.part id = some m) →
      ((∃ r ∈ s.req.requests, mine r ∧ r.step ≠ .waitEvent ∧ r.step ≠ .done) → exec (.unload d.id) s = .next u)
      ∧ ((∀ r ∈ s.req.requests, mine r → r.step = .waitEvent ∨ r.step = .done) →
        ∃ t, exec (.unload d.id) s = .next t ∧ t.completed d Code.ok.val 0 0 0 false ∧ t.findModel d.part id = none ∧ t.mem = s.mem
          ∧ ∀ r, s.findReq r.id = some r → mine r → r.step = .waitEvent → r.err = none →
            ∃ q, t.findReq r.id = some q ∧ q.step = .ending ∧ q.err.map (fun e => e.2.1) = some Code.modelAbsent.val)))
  ∧ (∀ (s u : State) (d : Desc), s.mayAct d 3 u → s.rowsRun = false →
    let id := fieldLe d.bytes 16 2
    let n := fieldLe d.bytes 32 4
    let read := u.jobRead (u.steward d.part .sua) (fieldLe d.bytes 24 8) (16 * n)
    (u.findModel d.part id = none → ∃ t, exec (.updateCouplings d.id) s = .next t ∧ t.completed d Code.modelAbsent.val 0 0 0 false
      ∧ t.mem = s.mem ∧ t.comp = s.comp)
    ∧ (∀ m, u.findModel d.part id = some m →
      (∀ e z, read = (.error e, z) → fails (.updateCouplings d.id) s z d e)
      ∧ (∀ e s2, read = (.ok e, s2) → (s2.ring d.part true d.cq).st = 1 →
        ((∃ i, i < n ∧ updateOk (s2.residentImages m) e i = false) → ∃ t, exec (.updateCouplings d.id) s = .next t
          ∧ t.completed d Code.cstFormat.val 0 0 0 false ∧ t.mem = s2.mem ∧ t.comp = s2.comp)
        ∧ ((∀ i, i < n → updateOk (s2.residentImages m) e i = true) → s2.modelRuns d id = true →
          exec (.updateCouplings d.id) s = .next { s2 with req := { s2.req with
            descs := mapWhere (fun x => x.id == d.id) (fun x => { x with data := e }) s2.req.descs } })
        ∧ (∀ m2, (∀ i, i < n → updateOk (s2.residentImages m) e i = true) → s2.modelRuns d id = false → s2.findModel d.part id = some m2 →
          ∃ t, exec (.updateCouplings d.id) s = .next t ∧ t.completed d Code.ok.val 0 0 0 false
            ∧ (∃ k, t.findModel d.part id = some k ∧ k.fullNext = true)
            ∧ ∀ site, n = 1 → s2.modelOn m2 (updateEntry e 0).1 = some site → s2.mem.mem.wf = true → site.sc < 64 →
              let a := cstAddr site.sc (site.off + site.h.coefOff + site.h.coefBytes * (updateEntry e 0).2.1)
              site.off + site.h.coefOff + site.h.coefBytes * (updateEntry e 0).2.1 + site.h.coefBytes ≤ 0x400000 →
              t.mem.mem.bytes a site.h.coefBytes = leBytes site.h.coefBytes (ofSInt (8 * site.h.coefBytes) (updateEntry e 0).2.2)
              ∧ (∀ b, (b < a ∨ a + site.h.coefBytes ≤ b) → readCell t.mem.mem.cells b = readCell s2.mem.mem.cells b)))))
  ∧ (∀ (s : State) (d : Desc), acts s s d 3 → d.started = true → s.rowsRun = false →
    let id := fieldLe d.bytes 16 2
    (s.modelRuns d id = true → exec (.updateCouplings d.id) s = .next s)
    ∧ (∀ m, s.modelRuns d id = false → s.findModel d.part id = some m → ∃ t, exec (.updateCouplings d.id) s = .next t
      ∧ t.completed d Code.ok.val 0 0 0 false ∧ ∃ k, t.findModel d.part id = some k ∧ k.fullNext = true))
  ∧ (∀ (s u : State) (d : Desc), acts s u d 6 → s.rowsRun = false →
    let id := fieldLe d.bytes 16 2
    (u.findModel d.part id = none → u.modelRuns d id = false → ∃ t, exec (.readState d.id) s = .next t
      ∧ t.completed d Code.modelAbsent.val 0 0 0 false ∧ t.mem = s.mem ∧ t.comp = s.comp)
    ∧ (∀ m, u.findModel d.part id = some m →
      let short : Prop := fieldLe d.bytes 32 4 < 64 + m.replicas * recordBytes m.nGlobal (u.modelKind m).1
      (d.started = false → short → ∃ t, exec (.readState d.id) s = .next t ∧ t.completed d Code.descFormat.val 0 0 0 false
        ∧ t.mem = s.mem ∧ t.comp = s.comp)
      ∧ (¬short → u.modelRuns d id = true → exec (.readState d.id) s = .next u)
      ∧ (¬short → u.modelRuns d id = false →
        let f := u.openBytes 5
        let map := f.2.positionMap m.pos
        let out := map.1 ++ map.2.stateRecords m m.pos m.nGlobal (leVal (f.1.take 4)) m.replicas (bitOf (byteAt f.1 4) 0) false
        let x := map.2.steward d.part .sua
        let write := map.2.agWriteCode x (fieldLe d.bytes 24 8) out
        (∀ s1, write = (none, s1) → (s1.ring d.part true d.cq).st = 1 →
          ∃ t, exec (.readState d.id) s = .next t ∧ t.completed d Code.ok.val 0 0 0 false ∧ t.mem = s1.mem)
        ∧ (∀ c s1, write = (some c, s1) → fails (.readState d.id) s s1 d ⟨c, fieldLe d.bytes 24 8, x.node⟩))))

/-- BIND_STREAM: a context that passes the checks of R416 is bound, with no open event and counts of 0. UNBIND_STREAM of a context that is
not bound completes with STR_UNBOUND, of one that is, closes its binding to frames, and its armed RUNs end with STR_UNBOUND (R419).
REG_WRITE completes with the code of the write and with OFFSET as RESULT (R488, R620). SCHED_INSTALL: an image that passes its checks
is installed, takes effect in the first tick after them that is a multiple of 8, and the descriptor completes after that tick (R345,
R346). SCHED_REMOVE: an active region of the partition that no request runs is removed, and the RUNs that wait for it end with
SCHED_ABSENT; while one runs it waits (R346). PT_UPDATE: entries in form that no running request has pinned take effect; else they
are held, and HELD_PT_UPDATE_APPLY applies them once nothing holds them; the descriptor completes when no access still uses the old
entries (R239, R240, R488). A check or access that fails completes the descriptor with its code, with DVA and node for a Gatehouse
code (R490). -/
def Obligations.SetUpByDescriptor : Prop :=
  let fails (i : Instr) (s z : State) (d : Desc) (e : Fail) : Prop := (z.ring d.part true d.cq).st = 1 →
    ∃ t, exec i s = .next t ∧ t.completed d e.code.val (if isGhCode e.code.val then BitVec.ofNat 64 e.va else 0)
      (if isGhCode e.code.val then e.node else 0) 0 false
  let started (s : State) (d : Desc) (kind : Nat) : Prop := s.req.descs.find? (fun x => x.id == d.id) = some d ∧ d.kind = kind
    ∧ d.started = true ∧ d.orphan = false ∧ (s.ring d.part true d.cq).st = 1
  let ends (i : Instr) (s z : State) (d : Desc) (c : Half) : Prop := (z.ring d.part true d.cq).st = 1 →
    ∃ t, exec i s = .next t ∧ t.completed d c 0 0 0 false ∧ t.mem = z.mem ∧ t.comp = z.comp
  let applied (i : Instr) (s z : State) (h : HeldPt) : Prop :=
    let gone : State := { z with mem := { z.mem with held := z.mem.held.filter (fun x => !(x == h)) } }
    let of (j : Nat) (d : Desc) : Prop := h.desc = some j ∧ z.req.descs.find? (fun x => x.id == j) = some d ∧ d.orphan = false
    (∀ j d, of j d → gone.changeTables h.part h.entries = none → ends i s gone d Code.cfgNoSpace.val)
    ∧ (h.desc = none → gone.changeTables h.part h.entries = none → exec i s = .next gone)
    ∧ (∀ s1, gone.changeTables h.part h.entries = some s1 →
      (h.desc = none → exec i s = .next s1)
      ∧ (∀ j d, of j d →
        (s1.inFlight h.part h.entries = true → exec i s
          = .next { s1 with mem := { s1.mem with held := s1.mem.held ++ [{ h with applied := true }] } })
        ∧ (s1.inFlight h.part h.entries = false → ends i s s1 d Code.ok.val)))
  (∀ (s u : State) (d : Desc), s.mayAct d 4 u → s.rowsRun = false →
    (∀ e z, u.checkBind d = (.error e, z) → fails (.bindStream d.id) s z d e)
    ∧ (∀ b s2, u.checkBind d = (.ok b, s2) → (s2.ring d.part true d.cq).st = 1 →
      let h := parseHalf b
      ∃ t k, exec (.bindStream d.id) s = .next t ∧ t.completed d Code.ok.val 0 0 0 false ∧ t.io.bindings = s2.io.bindings ++ [k]
        ∧ k.sp = h.sp ∧ k.stream = h.stream ∧ k.part = d.part ∧ k.ctxVa = fieldLe d.bytes 16 8 ∧ k.half = b ∧ k.unbound = false
        ∧ k.open_ = [] ∧ k.closed = [] ∧ k.armed = [] ∧ k.counters = List.replicate 16 0 ∧ t.mem = s2.mem ∧ t.comp = s2.comp))
  ∧ (∀ (s u : State) (d : Desc), s.mayAct d 5 u →
    let p (b : Binding) : Bool := b.part == d.part && b.ctxVa == fieldLe d.bytes 16 8 && !b.unbound
    (s.io.bindings.find? p = none → ∃ t, exec (.unbindStream d.id) s = .next t ∧ t.completed d Code.strUnbound.val 0 0 0 false
      ∧ t.io.bindings = s.io.bindings ∧ t.mem = s.mem)
    ∧ (∀ b, s.io.bindings.find? p = some b → ∃ t, exec (.unbindStream d.id) s = .next t ∧ (∀ k ∈ t.io.bindings, b.same k = false)
      ∧ (((u.unbind b).ring d.part true d.cq).st = 1 → t.completed d Code.ok.val 0 0 0 false)
      ∧ (b.open_ = [] → s.mem.mem.marks.entries = [] → s.mem.hbmParity = .const 0 → s.mem.hbmSev = .const 0 → ∀ i ∈ b.armed, ∀ r,
        s.findReq i = some r → r.step = .waitEvent → r.err = none →
        ∃ q, t.findReq i = some q ∧ q.step = .ending ∧ q.err.map (fun e => e.2.1) = some Code.strUnbound.val)))
  ∧ (∀ (s u : State) (d : Desc), s.mayAct d 9 u → byteAt d.bytes 16 = 4 →
    let off := fieldLe d.bytes 32 4
    ((off % 8 ≠ 0 ∨ ∀ k, u.barTarget d.port d.func off ≠ .reg k) → ∃ t, exec (.regWrite d.id) s = .next t
      ∧ t.completed d Code.cfgDenied.val (BitVec.ofNat 64 off) 0 0 false ∧ t.sys = s.sys ∧ t.mem = s.mem ∧ t.comp = s.comp)
    ∧ (∀ k, off % 8 = 0 → u.barTarget d.port d.func off = .reg k →
      let w := u.regWrite d.port d.func k .full (fieldLe d.bytes 24 8)
      (∀ s2, w = (none, s2) → (s2.ring d.part true d.cq).st = 1 →
        ∃ t, exec (.regWrite d.id) s = .next t ∧ t.completed d Code.ok.val (BitVec.ofNat 64 off) 0 0 false ∧ t.sys = s2.sys ∧ t.mem = s2.mem)
      ∧ (∀ c s2, w = (some c, s2) → (s2.ring d.part true d.cq).st = 1 →
        ∃ t, exec (.regWrite d.id) s = .next t ∧ t.completed d c.val (BitVec.ofNat 64 off) 0 0 false ∧ t.sys = s2.sys ∧ t.mem = s2.mem)))
  ∧ (∀ (s u : State) (d : Desc), s.mayAct d 9 u → byteAt d.bytes 16 = 2 → s.rowsRun = false →
    let x := u.steward d.part .dma
    (∀ e z, u.checkSched x (fieldLe d.bytes 24 8) = (.error e, z) → fails (.schedInstall d.id) s z d ⟨e, fieldLe d.bytes 24 8, x.node⟩)
    ∧ (∀ c s2, u.checkSched x (fieldLe d.bytes 24 8) = (.ok c, s2) → exec (.schedInstall d.id) s = .next { s2 with
        net := { s2.net with scheds := s2.net.scheds ++ [c] }
        req := { s2.req with descs := mapWhere (fun y => y.id == d.id) (fun y => { y with data := leBytes 1 c.srid }) s2.req.descs } }))
  ∧ (∀ (s : State) (d : Desc) (c : Sched), started s d 9 → byteAt d.bytes 16 = 2 → s.rowsRun = false →
    s.findSched (leVal d.data) = some c →
    let a := (s.admitDie d.part).getD 0
    let t0 := if c.active then c.phaseStart else roundUp 8 (c.phaseStart + 1) % 2 ^ 64
    let on : State := { s with net := { s.net with
      scheds := mapWhere (fun x => x.srid == c.srid) (fun x => { x with active := true, phaseStart := t0 }) s.net.scheds } }
    (s.reached a t0 = false → exec (.schedInstall d.id) s = .next s)
    ∧ (s.reached a t0 = true → s.reached a ((t0 + 1) % 2 ^ 64) = false → exec (.schedInstall d.id) s = .next on)
    ∧ (s.reached a t0 = true → s.reached a ((t0 + 1) % 2 ^ 64) = true → ends (.schedInstall d.id) s on d Code.ok.val))
  ∧ (∀ (s u : State) (d : Desc), byteAt d.bytes 16 = 3 →
    let id := byteAt d.bytes 17
    let names (r : Request) : Prop := r.part = d.part ∧ r.srid = some id
    let mine (c : Sched) : Prop := c.part = d.part ∧ c.active = true ∧ c.removing = none
    let removes : Prop :=
      ((∃ r ∈ s.req.requests, names r ∧ r.running = true) → ∃ t, exec (.schedRemove d.id) s = .next t
        ∧ t.req = u.req ∧ t.mem = s.mem ∧ t.comp = s.comp ∧ ∀ c, t.findSched id = some c → s.mayAct d 9 u → c.removing = some d.id)
      ∧ ((∀ r ∈ s.req.requests, names r → r.running = false) →
        ∃ t, exec (.schedRemove d.id) s = .next t ∧ t.completed d Code.ok.val 0 0 0 false ∧ t.findSched id = none ∧ t.mem = s.mem
          ∧ ∀ r, s.findReq r.id = some r → names r → (r.step = .waitEvent ∨ r.step = .waitRegion) → r.err = none →
            ∃ q, t.findReq r.id = some q ∧ q.step = .ending ∧ q.err.map (fun e => e.2.1) = some Code.schedAbsent.val)
    (s.mayAct d 9 u →
      ((∀ c, s.findSched id = some c → ¬mine c) → ends (.schedRemove d.id) s u d Code.schedAbsent.val)
      ∧ (∀ c, s.findSched id = some c → mine c → removes))
    ∧ (started s d 9 → u = s → removes))
  ∧ (∀ (s u : State) (d : Desc), s.mayAct d 9 u → byteAt d.bytes 16 = 1 → s.rowsRun = false →
    let n := fieldLe d.bytes 32 4
    let read := u.jobRead (u.steward d.part .dma) (fieldLe d.bytes 24 8) (16 * n)
    (∀ e z, read = (.error e, z) → fails (.ptUpdate d.id) s z d e)
    ∧ (∀ b s2, read = (.ok b, s2) → s2.req.descs = u.req.descs →
      ((∃ i, i < n ∧ ptEntry b i = none) → ends (.ptUpdate d.id) s s2 d Code.ghTableFormat.val)
      ∧ (∀ es, (List.range n).map (ptEntry b) = es.map some →
        let h : HeldPt := ⟨some d.id, d.part, es, false⟩
        ((s2.behindHeld d.part es = true ∨ s2.mustHold d.part es = true) →
          exec (.ptUpdate d.id) s = .next { s2 with mem := { s2.mem with held := s2.mem.held ++ [h] } })
        ∧ (s2.behindHeld d.part es = false → s2.mustHold d.part es = false → applied (.ptUpdate d.id) s s2 h))))
  ∧ (∀ (s : State) (d : Desc), started s d 9 → byteAt d.bytes 16 = 1 → s.rowsRun = false →
    let found := s.mem.held.find? (fun h => h.desc == some d.id && h.applied && !s.inFlight h.part h.entries)
    (found = none → exec (.ptUpdate d.id) s = .next s)
    ∧ (∀ h, found = some h →
      ends (.ptUpdate d.id) s { s with mem := { s.mem with held := s.mem.held.filter (fun x => !(x == h)) } } d Code.ok.val))
  ∧ (∀ (s : State) (p : PartId),
    (s.releasable p.val [] s.mem.held = none → exec (.heldPtUpdateApply p) s = .next s)
    ∧ (∀ h, s.releasable p.val [] s.mem.held = some h → applied (.heldPtUpdateApply p) s s h))

/-- COMPLETION_WRITE: the port writes its ring's next entry with PHASE, at the host or, for a CACHE ring, into its completion line, which goes
with its last entry, and WRITE advances (R455, R456, R471, R492); a write that fails the Gatehouse puts the ring into ERROR (R473); while
the host link is down the entry is discarded (R467). CQ_INTERRUPT: one message announces every entry written; a masked vector keeps it
pending; MSIX_UNMASK sends what is pending (R493); while the link is down a message is discarded. RING_ENABLE: a ring whose pages pass
their checks is ACTIVE with counts of 0, its doorbell word armed unless it is a PAGE ring, a CACHE ring's first line asked for; one that
fails them stays OFF and shows the code: that of the check, LANTERN_FULL, RING_FORMAT or HP_CACHE_FULL (R449, R456, R470, R501), LC_DENIED
in a life-cycle state without data service (R550). RING_DISABLE: an idle ring is OFF (R497, R501). Where the row's conditions do not hold,
nothing happens. -/
def Obligations.RingsRun : Prop :=
  (∀ (s : State) (port : Fin 4), s.req.due.find? (fun e => s.entryReady port.val e) = none → exec (.completionWrite port) s = .next s)
  ∧ (∀ (s : State) (port : Fin 4) (e : DueEntry), s.req.due.find? (fun e => s.entryReady port.val e) = some e →
    let r := s.ring e.part true e.cq
    let n := r.write.toNat
    let s1 : State := { s with req := { s.req with due := s.req.due.filter (fun x => !(x.desc == e.desc)) } }
    let g := s1.gate (s1.ringAgent e.part port.val) .write false (s1.slotVa e.part true e.cq n)
    let bytes := e.bytes.take 31 ++ leBytes 1 (1 - n / s.ringSize e.part true e.cq % 2)
    let wrote (t s2 : State) : Prop := (t.ring e.part true e.cq).write = r.write + 1
      ∧ (t.ring e.part true e.cq).unannounced = r.unannounced + 1
      ∧ (t.ring e.part true e.cq).irqNow = (r.irqNow || e.irqNow) ∧ t.req.due = s1.req.due ∧ t.mem = s2.mem ∧ t.comp = s2.comp
    let broken (code : Half) : Prop := ∃ t, exec (.completionWrite port) s = .next t ∧ (t.ring e.part true e.cq).st = 2
      ∧ (t.ring e.part true e.cq).code = code
    ((s.io.hps.get port.val).linkUp = false → exec (.completionWrite port) s = .next s1)
    ∧ ((s.io.hps.get port.val).linkUp = true →
      (∀ c s2, g = (.error c, s2) → broken c.val)
      ∧ (∀ a s2, g = (.ok (.dev a), s2) → broken Code.ringFormat.val)
      ∧ (∀ pf f a ns ro s2, g = (.ok (.host pf f a ns ro), s2) → s2.req = s1.req →
        (bitOf (s2.ringCtlWord e.part true e.cq) 6 = false → ∃ t, exec (.completionWrite port) s = .next t ∧ wrote t s2
          ∧ t.io.outputs = s2.io.outputs ++ [.hostWrite port.val f a bytes false false false])
        ∧ (∀ c, bitOf (s2.ringCtlWord e.part true e.cq) 6 = true → s2.heldLine e.part e.cq (a / 64) = some c → r.port = port.val →
          let c1 : CcLine := { c with st := .m, data := overlay c.data (a % 64) bytes
                                      holdDue := some (s2.tickAfter port.val (s2.appF .hpLanternctl port.val 0 0 7 0)) }
          (a % 64 = 0 → ∃ t, exec (.completionWrite port) s = .next t ∧ wrote t s2 ∧ t.io.outputs = s2.io.outputs
            ∧ c1 ∈ (t.io.hps.get port.val).lines)
          ∧ (a % 64 ≠ 0 → ∃ t, exec (.completionWrite port) s = .next t ∧ wrote t s2
            ∧ t.io.outputs = s2.io.outputs ++ [.cxlReq port.val "DirtyEvict" c.line]
            ∧ { c1 with evicting := true, holdDue := none } ∈ (t.io.hps.get port.val).lines)))))
  ∧ (∀ (s : State) (p : PartId) (q : Fin 64),
    (s.irqDue p.val q.val = false → exec (.cqInterrupt p q) s = .next s)
    ∧ (s.irqDue p.val q.val = true →
      let r := s.ring p.val true q.val
      let h := s.io.hps.get r.port
      let v := bitsOf (s.ringCtlWord p.val true q.val) 15 8
      ∃ t, exec (.cqInterrupt p q) s = .next t ∧ (t.ring p.val true q.val).unannounced = 0 ∧ (t.ring p.val true q.val).irqNow = false
        ∧ (t.ring p.val true q.val).write = r.write
        ∧ (h.linkUp = true → h.masked.get (r.func, v) = false → t.io.outputs
            = s.io.outputs ++ [.msix r.port r.func v (h.table.get (r.func, v)).1 (h.table.get (r.func, v)).2])
        ∧ (h.linkUp = true → h.masked.get (r.func, v) = true →
            (t.io.hps.get r.port).pendingMsi.get (r.func, v) = true ∧ t.io.outputs = s.io.outputs)
        ∧ (h.linkUp = false → t.io = s.io)
        ∧ t.mem = s.mem ∧ t.comp = s.comp ∧ t.net = s.net))
  ∧ (∀ (s : State) (port : Fin 4) (f : Fin 16) (v : Fin 65),
    let h := s.io.hps.get port.val
    ∃ t, exec (.msixUnmask ⟨port, f⟩ v) s = .next t ∧ (t.io.hps.get port.val).masked.get (f.val, v.val) = false
      ∧ (t.io.hps.get port.val).pendingMsi.get (f.val, v.val) = false
      ∧ t.io.outputs = s.io.outputs ++ (if h.pendingMsi.get (f.val, v.val) = true ∧ h.linkUp = true then
          [.msix port.val f.val v.val (h.table.get (f.val, v.val)).1 (h.table.get (f.val, v.val)).2] else [])
      ∧ t = { s with io := { s.io with hps := t.io.hps, outputs := t.io.outputs } })
  ∧ (∀ (s : State) (p : PartId) (cq : Bool) (q : Fin 64),
    let k := ringCtl p.val cq q.val
    let may (d : Nat) : Prop := s.admitDie p.val = some d ∧ bitOf (s.visWord k) 63 = true ∧ bitOf (s.appWord k) 63 = false
      ∧ s.ringIdle p.val cq q.val = true ∧ s.settled k = true ∧ s.dieUp d = true
    let s1 := s.applyBoundary k (fun _ => true)
    let base := s1.slotVa p.val cq q.val 0
    let bytes := slotBytes cq * s1.ringSize p.val cq q.val
    let pages (d : Nat) := s1.checkRingPages (accessor p.val (ctlNode d) .dma none) (if cq then .write else .read)
      ((List.range ((base + bytes - 1) / 65536 - base / 65536 + 1)).map (fun i => if i = 0 then base else (base / 65536 + i) * 65536)) none
    let off (st : Nat) (code : Half) : Prop := ∃ t, exec (.ringEnable p cq q) s = .next t ∧ (t.ring p.val cq q.val).st = st
      ∧ (t.ring p.val cq q.val).code = code ∧ t.comp = s.comp
    ((∀ d, ¬may d) → exec (.ringEnable p cq q) s = .next s)
    ∧ (∀ d, may d → s.dataService d = false → off (s.ring p.val cq q.val).st Code.lcDenied.val)
    ∧ (∀ d c s2, may d → s.dataService d = true → pages d = (.error c, s2) → s2.req = s.req → s2.comp = s.comp →
      off (s.ring p.val cq q.val).st c.val)
    ∧ (∀ d port func s2, may d → s.dataService d = true → pages d = (.ok (port, func), s2) → s2.comp = s.comp →
      let active : State := s2.modRing (ringKey p.val cq q.val) (fun r => { Ring.reset with st := 1, code := r.code, port := port, func := func })
      let ctl := s2.ringCtlWord p.val cq q.val
      let db := s1.appWord ⟨if cq then .ringCqdb else .ringSqdb, p.val, q.val, 0⟩
      let word : ArmedWord := ⟨bitsOf db 5 3, p.val, q.val, cq, 0⟩
      let h := s2.io.hps.get port
      let same (e : LanternEnt) : Prop := e.func = func ∧ e.line = bitsOf db 51 6
      let arms : Prop := bitOf ctl 5 = true ∨ h.lantern.length < 512 ∨ ∃ e ∈ h.lantern, same e
      (¬arms → off 0 Code.lanternFull.val)
      ∧ (arms → ¬(cq = true ∧ bitOf ctl 6 = true) →
        ∃ t, exec (.ringEnable p cq q) s = .next t ∧ (t.ring p.val cq q.val).st = 1 ∧ (t.ring p.val cq q.val).port = port
          ∧ (t.ring p.val cq q.val).func = func ∧ (t.ring p.val cq q.val).head = 0 ∧ (t.ring p.val cq q.val).tail = 0
          ∧ (t.ring p.val cq q.val).write = 0 ∧ bitOf (t.appWord k) 63 = true ∧ t.mem = s2.mem ∧ t.comp = s2.comp
          ∧ (bitOf ctl 5 = true → t.io = s2.io)
          ∧ (bitOf ctl 5 = false → ∃ e ∈ (t.io.hps.get port).lantern, same e ∧ word ∈ e.words)
          ∧ (bitOf ctl 5 = false → (∀ e ∈ h.lantern, ¬same e) → h.cxl = true → h.linkUp = true →
            t.io.outputs = s2.io.outputs ++ [.cxlReq port "RdShared" (bitsOf db 51 6)]))
      ∧ (arms → cq = true → bitOf ctl 6 = true →
        (h.cxl = false → off 0 Code.ringFormat.val)
        ∧ (h.cxl = true → 64 ≤ h.lines.length → off 0 Code.hpCacheFull.val)
        ∧ (∀ s3, h.cxl = true → h.lines.length < 64 →
          (if bitOf ctl 5 then some active else active.lanternArm port func (bitsOf db 51 6) word) = some s3 →
          ∀ pf f a ns ro s4, s3.gate (s3.ringAgent p.val port) .write false (s3.slotVa p.val true q.val 0) = (.ok (.host pf f a ns ro), s4) →
            s4.req = s3.req →
            ∃ t, exec (.ringEnable p cq q) s = .next t ∧ (t.ring p.val cq q.val).st = 1
              ∧ t.io.outputs = s4.io.outputs ++ [.cxlReq port "RdOwn" (a / 64)]
              ∧ ∃ c ∈ (t.io.hps.get port).lines, c.part = p.val ∧ c.cq = q.val ∧ c.func = func ∧ c.line = a / 64 ∧ c.asking = true))))
  ∧ (∀ (s : State) (p : PartId) (cq : Bool) (q : Fin 64), let k := ringCtl p.val cq q.val
    let may : Prop := bitOf (s.visWord k) 63 = false ∧ bitOf (s.appWord k) 63 = true ∧ s.ringIdle p.val cq q.val = true ∧ s.settled k = true
    (¬may → exec (.ringDisable p cq q) s = .next s)
    ∧ (may → ∃ t, exec (.ringDisable p cq q) s = .next t ∧ (t.ring p.val cq q.val).st = 0 ∧ bitOf (t.appWord k) 63 = false
      ∧ (∀ j, j ≠ ringKey p.val cq q.val → t.req.rings.get j = s.req.rings.get j) ∧ t.mem = s.mem ∧ t.comp = s.comp))

/-! ### Registers and faults (R15 to R20, R497, R517 to R528, R616 to R629) -/

/-- REGISTER_WRITE, NET_SHARE_WRITE and EXACT_EN_WRITE: a write that a function may make, that changes no LOCKED field of a unit that runs, is
taken: RW fields show what was presented, but for a field to which a reserved encoding was presented, which keeps its value, RO fields
keep their value, a W1S bit can only rise; the fields the hardware uses wait for the next tick; a lower half of a wide field is held,
and the hold ends with the next write of the register (R16, R20, R497, R498). Where the whole word holds a reserved value nothing shows;
where it breaks a rule with a code of its own, nothing shows and the code is logged (R20, R499). One that changes a LOCKED field of a
unit that runs, that the function may not make, or whose register cannot be reached or belongs to a partition that is being reset,
changes no register, and its code is logged (R498, R499, R609, R618, R622). An MSI-X word takes the written half or the whole (R633). A write at an offset that is no multiple of 8, at a reserved offset, of
a pending bit array, or while the port takes none, is dropped (R524, R602, R617). GLB_TICK_READ: a read of all of GLB_TICK answers the
TICK of its die; of the lower half, the lower half, and it latches the upper half for the function; of the upper half, the latch, where
one is held (R629); of another register, its value, or ones where it cannot be reached; of a reserved offset, 0 (R15, R617, R622). A read
that is not aligned, or while the port takes none, answers Unsupported Request (R617). -/
def Obligations.RegistersWrittenAndRead : Prop :=
  (∀ (s : State) (f : FuncRef) (off : Nat) (w : BarWidth) (v : Word) (c : Instr) (names : RegName → Bool),
    (c = .registerWrite f off w v ∧ names = (fun _ => true)
      ∨ c = .netShareWrite f off w v ∧ names = (fun n => decide (n = .netShare) || decide (n = .netSeamshare))
      ∨ c = .exactEnWrite f off w v ∧ names = (fun n => decide (n = .teModectl))) →
    let port := f.port.val
    let func := f.func.val
    let tg := s.barTarget port func off
    ((off % 8 ≠ 0 ∨ s.dieServes port = false ∨ tg = .reserved ∨ (∃ o, tg = .pba o) ∨ (∃ k, tg = .reg k ∧ names k.name = false)) →
      exec c s = .next s)
    ∧ (∀ o, off % 8 = 0 → s.dieServes port = true → tg = .msix o →
      (c ≠ .registerWrite f off w v → exec c s = .next s)
      ∧ (c = .registerWrite f off w v → ∃ t, exec c s = .next t
        ∧ t.msixWord port func o = halves (s.msixWord port func o) w v.toNat % (if o % 16 = 0 then 2 ^ 64 else 2 ^ 33)
        ∧ t.sys = s.sys ∧ t.mem = s.mem ∧ t.req = s.req))
    ∧ (∀ k, off % 8 = 0 → s.dieServes port = true → tg = .reg k → names k.name = true →
      let refused (e : Code) (t : State) : Prop := exec c s = .next t ∧ t.sys.regs.vis = s.sys.regs.vis ∧ t.sys.regs.app = s.sys.regs.app
        ∧ t.sys.regs.due = s.sys.regs.due ∧ t.mem = s.mem ∧ t.comp = s.comp ∧ t.net = s.net
        ∧ ∃ d, ∃ r ∈ (t.ras.logs.get d).recs, r.code = e.val ∧ r.arg1 = BitVec.ofNat 64 (funcArg port func off)
      (∀ e, s.unreachable port k = some e → ∃ t, refused e t)
      ∧ (s.unreachable port k = none → s.mayWrite port func k = false → ∃ t, refused .cfgDenied t)
      ∧ (s.unreachable port k = none → s.mayWrite port func k = true → k.part.any (fun p => s.partResetting p) = true → ∃ t, refused .cfgBusy t)
      ∧ (s.unreachable port k = none → s.mayWrite port func k = true → k.part.any (fun p => s.partResetting p) = false →
        let cur := s.visWord k
        let key := (port, func, k)
        let given := presented cur (s.sys.regs.holds.get? key) (fieldsOf k.name) w v.toNat
        let word := given.1
        let keeps (x : Field) : Bool := decide (x.acc ≠ .ro) && decide (bitsOf word x.hi x.lo ≠ bitsOf cur x.hi x.lo)
          && s.reservedField port k x (bitsOf word x.hi x.lo)
        let new := writeFields cur word (fieldsOf k.name) keeps
        (s.lockedHit k cur word = true → ∃ t, refused .cfgBusy t
          ∧ t.sys.regs.holds.get? key = if w = .low then s.sys.regs.holds.get? key else none)
        ∧ (s.lockedHit k cur word = false →
          (new ≠ cur → s.reservedWord k new = some none → ∃ t, exec c s = .next t ∧ t.sys.regs.holds.get? key = given.2
            ∧ t = { s with sys := { s.sys with regs := { s.sys.regs with holds := t.sys.regs.holds } } })
          ∧ (∀ e, new ≠ cur → s.reservedWord k new = some (some e) → ∃ t, exec c s = .next t ∧ t.sys.regs.holds.get? key = given.2
            ∧ t.sys.regs.vis = s.sys.regs.vis ∧ t.sys.regs.app = s.sys.regs.app ∧ t.mem = s.mem ∧ t.comp = s.comp
            ∧ ∃ d, ∃ r ∈ (t.ras.logs.get d).recs, r.code = e.val)
          ∧ (new = cur ∨ s.reservedWord k new = none →
            ∃ t, exec c s = .next t
              ∧ (∀ x ∈ fieldsOf k.name, ¬(k.name = .glbBootmap ∧ x.hi ≤ 6) → bitsOf (t.visWord k) x.hi x.lo
                  = if keeps x then bitsOf cur x.hi x.lo else match x.acc with
                  | .ro => bitsOf cur x.hi x.lo
                  | .rw => bitsOf word x.hi x.lo
                  | .w1s => bitsOf cur x.hi x.lo ||| bitsOf word x.hi x.lo)
              ∧ (k.name = .glbBootmap → bitsOf (t.visWord k) 6 5 = port ∧ bitsOf (t.visWord k) 4 1 = func)
              ∧ (k.name ≠ .glbBootmap → t.appWord k = s.appWord k) ∧ k ∈ t.sys.regs.due ∧ t.sys.regs.holds.get? key = given.2
              ∧ (k.name ≠ .teModectl → t.mem = s.mem ∧ t.comp = s.comp) ∧ t.net = s.net ∧ t.req = s.req ∧ t.io = s.io)))))
  ∧ (∀ (s : State) (f : FuncRef) (off : Nat) (w : BarWidth),
    let port := f.port.val
    let func := f.func.val
    let tg := s.barTarget port func off
    let tells (bs : List Byte) : State := { s with io := { s.io with outputs := s.io.outputs ++ [.hostData port func bs false] } }
    (off % 8 ≠ 0 ∨ s.dieServes port = false → exec (.glbTickRead f off w) s
      = .next { s with io := { s.io with outputs := s.io.outputs ++ [.hostUr port func] } })
    ∧ (off % 8 = 0 → s.dieServes port = true →
      (tg = .reserved → exec (.glbTickRead f off w) s = .next (tells (readBytes w 0)))
      ∧ (∀ o, tg = .msix o → exec (.glbTickRead f off w) s = .next (tells (readBytes w (s.msixWord port func o))))
      ∧ (∀ o, tg = .pba o → exec (.glbTickRead f off w) s = .next (tells (readBytes w (s.pbaWord port func o))))
      ∧ (∀ k, tg = .reg k → (s.unreachable port k).isSome = true → 0x1000 ≤ off →
        exec (.glbTickRead f off w) s = .next (tells (readBytes w (2 ^ 64 - 1))))
      ∧ (∀ k, tg = .reg k → (s.unreachable port k = none ∨ off < 0x1000) → k.name ≠ .glbTick →
        exec (.glbTickRead f off w) s = .next (tells (readBytes w (s.readReg port k))))
      ∧ (∀ k, tg = .reg k → k.name = .glbTick → (s.unreachable port k = none ∨ off < 0x1000) →
        let key := (port, func, k)
        let latched (bs : List Byte) (l : Map (Nat × Nat × RegKey) Nat) : State :=
          { tells bs with sys := { s.sys with regs := { s.sys.regs with latches := l } } }
        exec (.glbTickRead f off .full) s = .next (tells (leBytes 8 (s.tickOf k.a)))
        ∧ exec (.glbTickRead f off .low) s
            = .next (latched (leBytes 4 (s.tickOf k.a % 2 ^ 32)) (s.sys.regs.latches.set key (s.tickOf k.a / 2 ^ 32)))
        ∧ (∀ h, s.sys.regs.latches.get? key = some h →
          exec (.glbTickRead f off .high) s = .next (latched (leBytes 4 h) (s.sys.regs.latches.erase key)))
        ∧ (s.sys.regs.latches.get? key = none →
          exec (.glbTickRead f off .high) s = .next (tells (leBytes 4 (s.tickOf k.a / 2 ^ 32)))))))

/-- SHADOW_APPLY: the BOUNDARY fields of SUA_REPLICACAP, TE_BUDGET and DET_TRAILCTL of a partition that runs no request take their written
values, the first two at a window boundary of the admitting die; while a request of it runs, nothing changes. The fields of the
partitions of a NET_SHARE, NET_SEAMSHARE or STR_RXQUOTA register do so each for itself at a window boundary of the die; a write of the
present tick, another register and another tick change nothing (R349, R438, R497, R631). NET_REGION_WRITE: once EN of a region is
applied as 1 on a die without the partition's tables, a copy of them is made there, or EN goes back to 0 and CFG_NO_SPACE is logged;
applied as 0, the copy is discarded (R607). BOOTMAP_APPLY: EN of GLB_BOOTMAP applied as 1 maps the window's entries, held where a change
of page tables would be held; applied as 0 it removes them; without table space CFG_NO_SPACE is logged (R607, R613). -/
def Obligations.SetUpTakesEffect : Prop :=
  (∀ (s : State) (off : Nat) (k : RegKey), pfTarget 0 off = .reg k → s.settled k = true →
    ((k.name ≠ .suaReplicacap ∧ k.name ≠ .teBudget ∧ k.name ≠ .detTrailctl ∧ k.name ≠ .netShare ∧ k.name ≠ .netSeamshare
        ∧ k.name ≠ .strRxquota) → exec (.shadowApply off) s = .next s)
    ∧ ((k.name = .netShare ∨ k.name = .netSeamshare ∨ k.name = .strRxquota) → s.tickOf k.a % 8 ≠ 0 → exec (.shadowApply off) s = .next s)
    ∧ (∀ d, (k.name = .suaReplicacap ∨ k.name = .teBudget) → s.admitDie k.a = some d → s.tickOf d % 8 ≠ 0 →
      exec (.shadowApply off) s = .next s)
    ∧ (∀ p, ((k.name = .suaReplicacap ∨ k.name = .teBudget) ∧ p = k.a ∧ (∃ d, s.admitDie p = some d ∧ s.tickOf d % 8 = 0)
        ∨ k.name = .detTrailctl ∧ p = k.b) →
      (s.partRuns p = true → exec (.shadowApply off) s = .next s)
      ∧ (s.partRuns p = false → ∃ t, exec (.shadowApply off) s = .next t
        ∧ (∀ x ∈ fieldsOf k.name, x.cls = .boundary → bitsOf (t.appWord k) x.hi x.lo = bitsOf (s.visWord k) x.hi x.lo)
        ∧ (∀ x ∈ fieldsOf k.name, x.cls ≠ .boundary → bitsOf (t.appWord k) x.hi x.lo = bitsOf (s.appWord k) x.hi x.lo)
        ∧ (∀ j, j ≠ k → t.appWord j = s.appWord j) ∧ t.sys.regs.vis = s.sys.regs.vis
        ∧ t = { s with sys := { s.sys with regs := t.sys.regs } }))
    ∧ (k.name = .strRxquota → s.tickOf k.a % 8 = 0 → ∃ t, exec (.shadowApply off) s = .next t
      ∧ (∀ x ∈ fieldsOf k.name, bitsOf (t.appWord k) x.hi x.lo
          = if s.partRuns (8 * k.c + x.lo / 8) then bitsOf (s.appWord k) x.hi x.lo else bitsOf (s.visWord k) x.hi x.lo)
      ∧ t = { s with sys := { s.sys with regs := t.sys.regs } })
    ∧ ((k.name = .netShare ∨ k.name = .netSeamshare) → s.tickOf k.a % 8 = 0 → ∃ t, exec (.shadowApply off) s = .next t
      ∧ (∀ p toDir, p / 4 = k.c → shareField (t.appWord k) p toDir
          = if s.partRuns p then shareField (s.appWord k) p toDir else shareField (s.visWord k) p toDir)
      ∧ t = { s with sys := { s.sys with regs := t.sys.regs } }))
  ∧ (∀ (s : State) (off : Nat), (∀ k, pfTarget 0 off = .reg k → s.settled k = false) → exec (.shadowApply off) s = .next s)
  ∧ (∀ (s : State) (d : DieId) (p : PartId), s.dieUp d = false → exec (.netRegionWrite d p) s = .next s)
  ∧ (∀ (s : State) (d : DieId) (p : PartId), s.dieUp d = true →
    let en := bitOf (s.appWord ⟨.netRegion, d, p, 0⟩) 63
    let has (s : State) : Bool := bitOf (s.appWord ⟨.memPtbase, d, p, 0⟩) 63
    (en = has s → exec (.netRegionWrite d p) s = .next s)
    ∧ (en = true → has s = false → (∃ s1, s.createTables d p = some s1) →
      ∃ t, exec (.netRegionWrite d p) s = .next t ∧ has t = true ∧ t.req = s.req ∧ t.io = s.io ∧ t.net = s.net)
    ∧ (en = true → has s = false → s.createTables d p = none →
      ∃ t, exec (.netRegionWrite d p) s = .next t ∧ bitOf (t.visWord ⟨.netRegion, d, p, 0⟩) 63 = false
        ∧ bitOf (t.appWord ⟨.netRegion, d, p, 0⟩) 63 = false ∧ t.mem = s.mem ∧ t.comp = s.comp ∧ t.req = s.req
        ∧ ∃ r ∈ (t.ras.logs.get d).recs, r.code = Code.cfgNoSpace.val)
    ∧ (en = false → has s = true → ∃ t, exec (.netRegionWrite d p) s = .next t ∧ has t = false
      ∧ t.mem.mem = s.mem.mem ∧ t.comp = s.comp ∧ t.req = s.req))
  ∧ (∀ (s : State) (p : PartId), s.tableDies p.val = [] → exec (.bootmapApply p) s = .next s)
  ∧ (∀ (s : State) (p : PartId), s.tableDies p.val ≠ [] →
    let w := s.appWord ⟨.glbBootmap, p, 0, 0⟩
    let now : Option Nat := if bitOf w 63 then some w else none
    let s0 : State := { s with mem := { s.mem with boot := s.mem.boot.set p.val now } }
    let es := if bitOf w 63 then bootEntries w true else bootEntries ((s.mem.boot.get p.val).getD 0) false
    (s.mem.boot.get p.val = now → exec (.bootmapApply p) s = .next s)
    ∧ (s.mem.boot.get p.val ≠ now →
      (s0.behindHeld p.val es = true ∨ s0.mustHold p.val es = true →
        exec (.bootmapApply p) s = .next { s0 with mem := { s0.mem with held := s0.mem.held ++ [⟨none, p.val, es, false⟩] } })
      ∧ (∀ s1, s0.behindHeld p.val es = false → s0.mustHold p.val es = false → s0.changeTables p.val es = some s1 →
        exec (.bootmapApply p) s = .next s1)
      ∧ (s0.behindHeld p.val es = false → s0.mustHold p.val es = false → s0.changeTables p.val es = none →
        ∃ t, exec (.bootmapApply p) s = .next t ∧ t.mem = s0.mem ∧ t.comp = s.comp ∧ t.req = s.req
          ∧ ∃ d, ∃ r ∈ (t.ras.logs.get d).recs, r.code = Code.cfgNoSpace.val)))

/-- UNIT_FENCED: a unit in service that a cause of R517 strikes is FENCED with that cause, a link that was up with LINK_DOWN, and the next
GEN; every running request that names its node begins to end, and a link's is down (R358, R517, R518). DIE_FENCED: every unit in service
of the die is FENCED, requests with nodes on it begin to end, the die is fenced and no longer ready (R520). PULSE_LOST: the die's TICK
stops, requests with a region on it that run or wait elsewhere end with PULSE_LOST, and the die fences itself (R39). A die reset that
waits may then begin (R608). A cause that may not strike, a unit that is not in service, a die without supply or without Pulse lock, and
a die that is fenced already leave all as it was. -/
def Obligations.UnitsAndDiesFenced : Prop :=
  (∀ (s : State) (d : DieId) (u : UnitNo) (cause : Half),
    let strikes : Prop := s.mayFence d.val u.val cause = true ∧ (s.unitRec d.val u.val).st = .inService ∧ (s.sys.clk.get d.val).supplied = true
    let peer := d.val ^^^ (u.val - 31)
    (¬strikes → exec (.unitFenced d u cause) s = .next s)
    ∧ (strikes → ∃ t, exec (.unitFenced d u cause) s = .next t ∧ (t.unitRec d.val u.val).st = .fenced
      ∧ (t.unitRec d.val u.val).cause = (if 32 ≤ u.val ∧ s.linkUp d.val peer = true then Code.linkDown.val else cause)
      ∧ (t.unitRec d.val u.val).gen = (s.unitRec d.val u.val).gen + 1
      ∧ (u.val < 32 → ∀ r, s.findReq r.id = some r → r.running = true → r.nodes.contains (unitNode d.val u.val) = true →
          ∃ q, t.findReq r.id = some q ∧ q.step = .ending)
      ∧ (32 ≤ u.val → s.linkUp d.val peer = true → (t.link.links.get (linkKey d.val peer)).st = .down)
      ∧ t.sys.fuses = s.sys.fuses))
  ∧ (∀ (s : State) (d : DieId) (c : Instr), (s.sys.clk.get d.val).supplied = true → s.dieFencedB d.val = false →
    (c = .dieFenced d ∨ c = .pulseLost d ∧ (s.sys.clk.get d.val).locked = true) →
    ∃ t : State, exec c s = .next t.nextReset ∧ t.dieFencedB d.val = true ∧ (t.sys.clk.get d.val).ready = false
      ∧ (t.sys.clk.get d.val).tick = (s.sys.clk.get d.val).tick
      ∧ (c = .pulseLost d → (t.sys.clk.get d.val).locked = false)
      ∧ (∀ u, u < 35 → (s.unitRec d.val u).st = .inService → (t.unitRec d.val u).st = .fenced)
      ∧ (∀ r, s.findReq r.id = some r → r.running = true → r.dies.contains d.val = true →
          ∃ q, t.findReq r.id = some q ∧ q.step = .ending)
      ∧ (c = .pulseLost d → ∀ r, s.findReq r.id = some r → s.losesPulse d.val r = true → r.err = none →
          ∃ q, t.findReq r.id = some q ∧ q.step = .ending ∧ q.err.map (fun e => e.2.1) = some Code.pulseLost.val)
      ∧ t.sys.fuses = s.sys.fuses)
  ∧ (∀ (s : State) (d : DieId),
    ((s.sys.clk.get d.val).supplied = false → exec (.dieFenced d) s = .next s ∧ exec (.pulseLost d) s = .next s)
    ∧ ((s.sys.clk.get d.val).locked = false → exec (.pulseLost d) s = .next s)
    ∧ ((s.sys.clk.get d.val).supplied = true → s.dieFencedB d.val = true → exec (.dieFenced d) s = .next s.nextReset))

/-- WARDEN_HEARTBEAT: a heartbeat starts the wait of the die it reaches anew; a ready die compares unit states: those that agree with
Warden's stay as they are; where one differs, the later of the two stands at both, and equal ones that differ make the unit FENCED with
STATE_SPLIT (R523, R588, R589). WARDEN_LOST: after 2^28 ticks without one the die holds Warden lost, and the tray enters NO_SERVICE once
every die is judged (R523, R524). PARTITION_EVENT_WRITE: the oldest event that has reached the admitting die goes to the next place of
the partition's ring, and WRITE advances; where the ring is full it is dropped and counted; one whose write fails, whose ring is not
enabled, or that is not for a partition admitted there, is lost (R528). -/
def Obligations.HeartbeatsAndPartitionEvents : Prop :=
  (∀ (s : State) (d : DieId),
    let beat : Ras := { s.ras with heartbeat := s.ras.heartbeat.set d.val (s.tickOf d.val), wardenLost := s.ras.wardenLost.set d.val false }
    let agrees (u : Nat) : Prop := s.sys.warden.cache.get (unitKey d.val u) = some (s.unitReport d.val u)
    ((s.sys.warden.running = false ∨ (s.sys.clk.get d.val).supplied = false) → exec (.wardenHeartbeat d) s = .next s)
    ∧ (s.sys.warden.running = true → (s.sys.clk.get d.val).supplied = true →
      ((s.dieUp d.val = true → ∀ u, u < 35 → agrees u) → exec (.wardenHeartbeat d) s = .next { s with ras := beat })
      ∧ (∀ u, u < 35 → s.dieUp d.val = true → (∀ v, v < 35 → v ≠ u → agrees v) →
        let mine := s.unitReport d.val u
        let theirs := s.sys.warden.cache.get (unitKey d.val u)
        (mine.st = .fused → exec (.wardenHeartbeat d) s = .next { s with ras := beat })
        ∧ (mine.st ≠ .fused → (∀ w, theirs = some w → mine.governs w = true) → exec (.wardenHeartbeat d) s = .next { s with
            ras := beat
            sys := { s.sys with warden := { s.sys.warden with cache := s.sys.warden.cache.set (unitKey d.val u) (some mine) } } })
        ∧ (∀ w, mine.st ≠ .fused → theirs = some w → mine.governs w = false →
          (w.governs mine = true → ∃ t, exec (.wardenHeartbeat d) s = .next t ∧ (t.unitRec d.val u).st = w.st
            ∧ (t.unitRec d.val u).gen = w.gen ∧ t.ras.heartbeat = beat.heartbeat ∧ t.sys.fuses = s.sys.fuses)
          ∧ (w.governs mine = false → (mine.st ≠ w.st ∨ mine.origin ≠ w.origin) → ∃ t, exec (.wardenHeartbeat d) s = .next t
            ∧ (t.unitRec d.val u).st = .fenced ∧ (t.unitRec d.val u).gen = (s.unitRec d.val u).gen + 1
            ∧ (t.unitRec d.val u).cause = Code.stateSplit.val ∧ t.ras.heartbeat = beat.heartbeat ∧ t.sys.fuses = s.sys.fuses)))))
  ∧ (∀ (s : State) (d : DieId),
    let lost : Prop := s.dieUp d.val = true ∧ s.ras.wardenLost.get d.val = false ∧ 2 ^ 28 ≤ s.since d.val (s.ras.heartbeat.get d.val)
    (¬lost → exec (.wardenLost d) s = .next s)
    ∧ (lost → ∃ t, exec (.wardenLost d) s = .next t ∧ t.ras.wardenLost.get d.val = true ∧ (s.judged = true → t.ras.noService = true)
      ∧ t.mem = s.mem ∧ t.sys.fuses = s.sys.fuses ∧ t.sys.clk = s.sys.clk))
  ∧ (∀ (s : State) (d : DieId), s.ras.evtArrivals.get d.val = [] → exec (.partitionEventWrite d) s = .next s)
  ∧ (∀ (s : State) (d : DieId) (e : EventRec) (rest : List EventRec), s.ras.evtArrivals.get d.val = e :: rest → s.rowsRun = false →
    let s0 : State := { s with ras := { s.ras with evtArrivals := s.ras.evtArrivals.set d.val rest } }
    ((∀ p, e.part = some p → s.admitDie p ≠ some d.val ∨ bitOf (s.appWord ⟨.rasEvtctl, d.val, p, 0⟩) 63 = false) →
      exec (.partitionEventWrite d) s = .next s0)
    ∧ (∀ p, e.part = some p → s.admitDie p = some d.val → bitOf (s.appWord ⟨.rasEvtctl, d.val, p, 0⟩) 63 = true →
      let n := 2 ^ s.appF .rasEvtctl d.val p 0 4 0
      let wr := s.appF .rasEvtidx d.val p 0 63 32
      let rd := s.appF .rasEvtidx d.val p 0 31 0
      let lost := s.ras.evtLost.get (16 * d.val + p)
      let write := s0.agWriteCode (accessor p (ctlNode d.val) .dma none) (s.appF .rasEvtbase d.val p 0 56 12 * 4096 + 32 * (wr % n))
        (EventRec.bytes { e with lost := lost } (decide (wr / n % 2 = 0)))
      ((wr + 2 ^ 32 - rd) % 2 ^ 32 = n → ∃ t, exec (.partitionEventWrite d) s = .next t
        ∧ bitsOf (t.visWord ⟨.rasEvtctl, d.val, p, 0⟩) 47 32 = min 65535 (bitsOf (s.visWord ⟨.rasEvtctl, d.val, p, 0⟩) 47 32 + 1)
        ∧ t.ras.evtLost.get (16 * d.val + p) = true ∧ t.ras.evtArrivals.get d.val = rest ∧ t.mem = s.mem ∧ t.comp = s.comp)
      ∧ ((wr + 2 ^ 32 - rd) % 2 ^ 32 ≠ n →
        (∀ s1, write = (none, s1) →
          ∃ t, exec (.partitionEventWrite d) s = .next t ∧ t.appF .rasEvtidx d.val p 0 63 32 = (wr + 1) % 2 ^ 32
            ∧ t.ras.evtLost.get (16 * d.val + p) = false ∧ t.mem = s1.mem ∧ t.comp = s1.comp ∧ t.io = s1.io)
        ∧ (∀ c s1, write = (some c, s1) → exec (.partitionEventWrite d) s = .next s1))))

/-! ### Identity and life cycle (R533 to R562) -/

/-- UNIT_CLEAR: a dirty unit's memories but system memory, or a dirty 2 MiB frame, hold zero data without errors, every other byte is as it
was, and the unit or frame is no longer dirty (R547). DEBUG_UNLOCK: in DIAGNOSTIC a valid token raises a die's debug level; any token ends
the nonce, and one that is not good, or comes outside a secured session, is refused with LC_DENIED (R552, R561). RAW_CAPTURE: a START in
DIAGNOSTIC begins a capture of the streams and the number of samples written; in another state it is refused with LC_DENIED; a write
without START, while a capture of that CTL runs, or with a number of samples out of range, begins none. RAW_CAPTURE_END: the samples, two to a byte, stand in the capture buffer, and START reads 0 (R560, R562). What
is not dirty, not asked for, or comes to a die that is not up or with Warden not running, changes nothing. -/
def Obligations.ClearsUnlocksAndCaptures : Prop :=
  (∀ (s : State) (d : DieId) (x : ClearTarget), s.dieUp d = true → s.mem.mem.wf = true →
    (match x with
      | .unit u => (s.sys.sec.get d.val).dirtyUnits.contains u.val = true
      | .frame f => (s.sys.sec.get d.val).dirtyFrames.contains f = true) →
    let inIt (a : Nat) : Prop := match x with
      | .unit u => addrUnit a = some (d.val, u.val) ∧ sysDie a = none
      | .frame f => a < 2 ^ 40 ∧ a / 0x200000 = f
    ∃ t, exec (.unitClear d x) s = .next t
      ∧ (∀ a, inIt a → readCell t.mem.mem.cells a = 0 ∧ t.mem.mem.marks.get? a = none)
      ∧ (∀ a, ¬inIt a → readCell t.mem.mem.cells a = readCell s.mem.mem.cells a ∧ t.mem.mem.marks.get? a = s.mem.mem.marks.get? a)
      ∧ (match x with
          | .unit u => (t.sys.sec.get d.val).dirtyUnits.contains u.val = false
            ∧ (t.sys.sec.get d.val).dirtyFrames = (s.sys.sec.get d.val).dirtyFrames
          | .frame f => (t.sys.sec.get d.val).dirtyFrames.contains f = false
            ∧ (t.sys.sec.get d.val).dirtyUnits = (s.sys.sec.get d.val).dirtyUnits)
      ∧ t.comp.cores = s.comp.cores ∧ t.comp.locks = s.comp.locks ∧ t.req = s.req ∧ t.io = s.io ∧ t.sys.regs = s.sys.regs)
  ∧ (∀ (s : State) (d : DieId) (x : ClearTarget), (s.dieUp d = false ∨ match x with
      | .unit u => (s.sys.sec.get d.val).dirtyUnits.contains u.val = false
      | .frame f => (s.sys.sec.get d.val).dirtyFrames.contains f = false) → exec (.unitClear d x) s = .next s)
  ∧ (∀ (s : State) (d : DieId) (level : Fin 4) (session : Bool) (token : Token),
    let refuse : List Output := s.io.outputs ++ [.mgmt 4 Code.lcDenied.val.toNat []]
    (s.sys.warden.running = false → exec (.debugUnlock d level session token) s = .next s)
    ∧ (s.sys.warden.running = true → session = false →
      exec (.debugUnlock d level session token) s = .next { s with io := { s.io with outputs := refuse } })
    ∧ (s.sys.warden.running = true → session = true →
      ¬(s.sys.warden.lc = .diagnostic ∧ (level.val = 1 ∨ level.val = 2) ∧ s.tokenOk token 2 level.val d.val = true) →
      exec (.debugUnlock d level session token) s = .next { s with
        io := { s.io with outputs := refuse }, sys := { s.sys with warden := { s.sys.warden with nonce := none } } }))
  ∧ (∀ (s : State) (d : DieId) (level : Fin 4) (token : Token), s.sys.warden.running = true → s.sys.warden.lc = .diagnostic →
    (level.val = 1 ∨ level.val = 2) → s.tokenOk token 2 level.val d.val = true →
    ∃ t, exec (.debugUnlock d level true token) s = .next t ∧ t.sys.warden.nonce = none
      ∧ (t.sys.sec.get d.val).debug = max (s.sys.sec.get d.val).debug level.val
      ∧ (∀ e, e ≠ d.val → t.sys.sec.get e = s.sys.sec.get e) ∧ t.sys.fuses = s.sys.fuses ∧ t.sys.regs = s.sys.regs
      ∧ t.mem = s.mem ∧ t.comp = s.comp ∧ t.req = s.req)
  ∧ (∀ (s : State) (d : DieId) (south : Bool) (v : Word),
    (s.sys.warden.running = false ∨ s.dieUp d = false → exec (.rawCapture d south v) s = .next s)
    ∧ (s.sys.warden.running = true → s.dieUp d = true → 
      (bitOf v.toNat 63 = false ∨ bitOf (s.visWord (capKey d south)) 63 = true ∨ bitsOf v.toNat 20 0 = 0 ∨ 2 ^ 20 < bitsOf v.toNat 20 0
        ∨ s.lockedHit (capKey d south) (s.visWord (capKey d south)) v.toNat = true) →
      (s.sys.sec.get d.val).lc = some .diagnostic ∨ bitOf v.toNat 63 = false →
      ∃ t, exec (.rawCapture d south v) s = .next t ∧ (t.sys.sec.get d.val).captures = (s.sys.sec.get d.val).captures
        ∧ t.mem = s.mem ∧ t.comp = s.comp ∧ t.req = s.req))
  ∧ (∀ (s : State) (d : DieId) (south : Bool) (v : Word), s.sys.warden.running = true → s.dieUp d = true → bitOf v.toNat 63 = true →
    ((s.sys.sec.get d.val).lc ≠ some .diagnostic → ∃ t, exec (.rawCapture d south v) s = .next t ∧ t.sys = s.sys ∧ t.mem = s.mem
      ∧ ∃ l, t.io.outputs = l ++ [.mgmt 4 Code.lcDenied.val.toNat []])
    ∧ ((s.sys.sec.get d.val).lc = some .diagnostic → bitOf (s.visWord (capKey d south)) 63 = false →
      1 ≤ bitsOf v.toNat 20 0 → bitsOf v.toNat 20 0 ≤ 2 ^ 20 →
      s.lockedHit (capKey d south) (s.visWord (capKey d south)) v.toNat = false →
      ∃ t, exec (.rawCapture d south v) s = .next t
        ∧ (t.sys.sec.get d.val).captures.get? (b2n south) = some ⟨bitsOf v.toNat 59 56, bitsOf v.toNat 20 0⟩
        ∧ bitOf (t.visWord (capKey d south)) 63 = true ∧ t.io.outputs = s.io.outputs ++ [.mgmt 4 0 []]
        ∧ t.mem = s.mem ∧ t.comp = s.comp))
  ∧ (∀ (s : State) (d : DieId) (south : Bool) (xs : List Sample) (c : Capture),
    (s.sys.sec.get d.val).captures.get? (b2n south) = some c → xs.length = c.samples → xs.length ≤ 2 ^ 20 → s.mem.mem.wf = true →
    let a := captureAddr d.val south
    let bs := captureBytes c.streams xs
    ∃ t, exec (.rawCaptureEnd d south xs) s = .next t ∧ t.mem.mem.bytes a bs.length = bs
      ∧ (∀ b, (b < a ∨ a + bs.length ≤ b) → readCell t.mem.mem.cells b = readCell s.mem.mem.cells b)
      ∧ (t.sys.sec.get d.val).captures.get? (b2n south) = none ∧ bitOf (t.visWord (capKey d south)) 63 = false
      ∧ t.net = s.net ∧ t.req = s.req ∧ t.io = s.io)
  ∧ (∀ (s : State) (d : DieId) (south : Bool) (xs : List Sample), (∀ c, (s.sys.sec.get d.val).captures.get? (b2n south) = some c →
    xs.length ≠ c.samples) → exec (.rawCaptureEnd d south xs) s = .next s)

/-- KEY_REVOKE: a request of the management path blows the slot's revocation fuse on that die alone; the slot that signed the running
Steward or cluster runtime is refused with LC_DENIED (R541). While Warden does not run, or for a die without supply, nothing happens. -/
def Obligations.KeyRevocation : Prop :=
  ∀ (s : State) (d : DieId) (slot : Fin 4),
    let c := s.sys.sec.get d.val
    let used (o : Option RunImage) : Prop := ∃ i, o = some i ∧ i.key = slot.val
    let tells (n : Nat) : IoSys := { s.io with outputs := s.io.outputs ++ [.mgmt 4 n []] }
    ((s.sys.warden.running = false ∨ (s.sys.clk.get d.val).supplied = false) → exec (.keyRevoke d slot) s = .next s)
    ∧ (s.sys.warden.running = true → (s.sys.clk.get d.val).supplied = true →
      ((used c.steward ∨ used c.runtime) → exec (.keyRevoke d slot) s = .next { s with io := tells Code.lcDenied.val.toNat })
      ∧ (¬used c.steward → ¬used c.runtime → ∃ t, exec (.keyRevoke d slot) s = .next t
        ∧ bitOf (t.sys.fuses.revoked.get d.val) slot.val = true
        ∧ (∀ j, j ≠ slot.val → bitOf (t.sys.fuses.revoked.get d.val) j = bitOf (s.sys.fuses.revoked.get d.val) j)
        ∧ (∀ e, e ≠ d.val → t.sys.fuses.revoked.get e = s.sys.fuses.revoked.get e)
        ∧ t = { s with io := tells 0, sys := { s.sys with fuses := { s.sys.fuses with revoked := t.sys.fuses.revoked } } }))

/-- SPDM_REQUEST: GET_VERSION is answered and begins the negotiation; a request out of the order of negotiation is answered
UnexpectedRequest and changes nothing; another version VersionMismatch; a request that the subset leaves out UnsupportedRequest; one of
a responder without its identity, Unspecified; a slot or measurement that it does not offer, and a session that is not open,
InvalidRequest or InvalidSession; a fifth session SessionLimitExceeded. CHALLENGE, measurements and KEY_EXCHANGE are answered signed, with
generated values, Busy while the generator refuses, later while a reseed waits (R537, R543 to R545). A request that does not reach its
responder is not answered. -/
def Obligations.SpdmAnswered : Prop :=
  ∀ (s : State) (r : Responder) (path : SpdmPath),
    let who := responderNo r
    let st := s.sys.spdm.get who
    let n := st.negotiated
    let ms := s.measurements r
    let req (q : SpdmReq) := exec (.spdmRequest r path q) s
    let tells (s : State) (bs : List Byte) : IoSys := { s.io with outputs := s.io.outputs ++ [.mgmt who 0 bs] }
    let err (s : State) (e : Byte) : State := { s with io := tells s [0x12, 0x7F, e, 0] }
    let replies (s : State) (code : Byte) (data : List Byte) : State :=
      { s with io := tells s ([0x12, code] ++ Config.spdmBody who code.toNat data) }
    let becomes (s : State) (x : SpdmSt) : State := { s with sys := { s.sys with spdm := s.sys.spdm.set who x } }
    let at_ (k : Nat) (code : Byte) : State := replies (becomes s { st with negotiated := k }) code []
    let signs (q : SpdmReq) (k : Nat) (code : Byte) (data : List Byte) (f : State → State) : Prop :=
      (∀ b s1, s.generates who k = (.bytes b, s1) → req q = .next (replies (f s1) code (data ++ b)))
      ∧ (∀ s1, s.generates who k = (.busy, s1) → req q = .next (err s1 0x03))
      ∧ (∀ s1, s.generates who k = (.wait, s1) → req q = .next s)
    let session (q : SpdmReq) (k : Nat) (code : Byte) (z : State) : Prop :=
      (k ∈ st.sessions → req q = .next (replies z code [BitVec.ofNat 8 k])) ∧ (k ∉ st.sessions → req q = .next (err s 0x02))
    (s.reachesSpdm r path = false → ∀ q, req q = .next s)
    ∧ (s.reachesSpdm r path = true →
      req .otherVersion = .next (err s 0x41)
      ∧ req .unsupported = .next (err s 0x07)
      ∧ req .getVersion = .next (at_ 1 0x04)
      ∧ req .getCapabilities = .next (if 1 ≤ n then at_ 2 0x61 else err s 0x04)
      ∧ req .negotiateAlgorithms = .next (if 2 ≤ n then at_ 3 0x63 else err s 0x04)
      ∧ (∀ q, q ∉ [SpdmReq.otherVersion, .unsupported, .getVersion, .getCapabilities, .negotiateAlgorithms] →
        (n < 3 → req q = .next (err s 0x04)) ∧ (3 ≤ n → s.hasIdentity r = false → req q = .next (err s 0x05)))
      ∧ (3 ≤ n → s.hasIdentity r = true →
        req .getDigests = .next (replies s 0x01 [])
        ∧ (∀ k, req (.getCertificate k) = .next (if slotOffered r k then replies s 0x02 [BitVec.ofNat 8 k] else err s 0x01))
        ∧ (∀ k, slotOffered r k = false → req (.challenge k) = .next (err s 0x01) ∧ req (.keyExchange k) = .next (err s 0x01))
        ∧ (∀ k, slotOffered r k = true → signs (.challenge k) 2 0x03 (BitVec.ofNat 8 k :: ms.flatten) id)
        ∧ signs (.getMeasurements 255) 2 0x60 ms.flatten id
        ∧ signs (.getMeasurements 0) 2 0x60 [BitVec.ofNat 8 ms.length] id
        ∧ (∀ i, i ≠ 0 → i ≠ 255 → (∀ m, ms[i - 1]? = some m → signs (.getMeasurements i) 2 0x60 m id)
          ∧ (ms[i - 1]? = none → req (.getMeasurements i) = .next (err s 0x01)))
        ∧ (∀ k, slotOffered r k = true →
          (4 ≤ st.sessions.length → req (.keyExchange k) = .next (err s 0x0A))
          ∧ (st.sessions.length < 4 → signs (.keyExchange k) 3 0x64 (BitVec.ofNat 8 k :: leBytes 2 st.nextSession) (fun s1 =>
            let x := s1.sys.spdm.get who
            becomes s1 { x with sessions := x.sessions ++ [x.nextSession], nextSession := x.nextSession + 1 })))
        ∧ (∀ k, session (.finish k) k 0x65 s ∧ session (.heartbeat k) k 0x68 s ∧ session (.keyUpdate k) k 0x69 s
          ∧ session (.endSession k) k 0x6C (becomes s { st with sessions := st.sessions.filter (fun i => i != k) }))))

/-- NONCE_REQUEST: in a secured session Warden issues and keeps 48 bytes (R553). LC_TRANSITION: an allowed transition is recorded and
committed in both banks of a blank slot, is answered, and is the current state; where its words do not verify, or the input fails before
the commit, the slot is spent without a commit and the state stays (R555, R556); any token presented ends the nonce; one that is not
allowed, has no slot, lacks its token or comes outside a session is refused with LC_DENIED and changes no fuse, no register and no
journal (R551 to R559). While Warden does not run, or for a commit without input, nothing happens. -/
def Obligations.LifeCycleChanges : Prop :=
  (∀ s : State, s.sys.warden.running = false → ∀ b, exec (.nonceRequest b) s = .next s)
  ∧ (∀ (s : State) (target : LcState) (session : LcSession) (token : Option Token),
    s.sys.warden.running = false ∨ s.sys.warden.inputOk = false → exec (.lcTransition target session token) s = .next s)
  ∧ (∀ s : State, s.sys.warden.running = true → ∃ t b, exec (.nonceRequest true) s = .next t ∧ t.sys.warden.nonce = some b ∧ b.length = 48
    ∧ t.io.outputs = s.io.outputs ++ [.mgmt 4 0 b]
    ∧ exec (.nonceRequest false) s
      = .next { s with io := { s.io with outputs := s.io.outputs ++ [.mgmt 4 Code.lcDenied.val.toNat []] } })
  ∧ (∀ (s : State) (target : LcState) (session : LcSession) (token : Option Token), s.sys.warden.running = true → s.sys.warden.inputOk = true →
    let w := s.sys.warden
    let move := transition w.lc w.readJournal.2.1 target
    let allowed := token.any (fun x => s.tokenOk x 1 (lcCode target) 0xFF)
    let kept := if session.session = true ∧ token.isSome = true then none else w.nonce
    ((session.session = false ∨ move = none ∨ w.slotFor target = none ∨ move = some true ∧ allowed = false) →
      exec (.lcTransition target session token) s = .next { s with
        sys := { s.sys with warden := { w with nonce := kept } }
        io := { s.io with outputs := s.io.outputs ++ [.mgmt 4 Code.lcDenied.val.toNat []] } })
    ∧ (∀ (byToken : Bool) (k : Nat) (a b : Word), session.session = true → session.run = .torn a b → move = some byToken →
      w.slotFor target = some k → (byToken = true → allowed = true) →
      ∃ t, exec (.lcTransition target session token) s = .next t ∧ t.sys.warden.lc = w.lc ∧ t.sys.warden.nonce = kept
        ∧ t.sys.warden.journal.get (slotKey 0 k) = ⟨transWord k w.lc target byToken &&& a, 0⟩
        ∧ t.sys.warden.journal.get (slotKey 1 k) = ⟨transWord k w.lc target byToken &&& b, 0⟩
        ∧ (∀ j, j ≠ slotKey 0 k → j ≠ slotKey 1 k → t.sys.warden.journal.get j = w.journal.get j)
        ∧ t.io.outputs = s.io.outputs ++ [.mgmt 4 Code.lcDenied.val.toNat []] ∧ t.sys.regs = s.sys.regs)
    ∧ (∀ (byToken : Bool) (k : Nat), session.session = true → session.run = .verified → move = some byToken → w.slotFor target = some k →
      (byToken = true → allowed = true) →
      ∃ t, exec (.lcTransition target session token) s = .next t ∧ t.sys.warden.lc = target ∧ t.sys.warden.nonce = kept
        ∧ (∀ bank, bank < 2 → t.sys.warden.journal.get (slotKey bank k)
            = ⟨transWord k w.lc target byToken, ~~~transWord k w.lc target byToken⟩)
        ∧ (∀ j, j ≠ slotKey 0 k → j ≠ slotKey 1 k → t.sys.warden.journal.get j = w.journal.get j)
        ∧ .mgmt 4 0 [] ∈ t.io.outputs
        ∧ (target = .retired → t.sys.warden.trayKey = false
            ∧ ∀ d, t.sys.fuses.uds.get d = some (List.replicate 48 0xFF, List.replicate 48 0xFF))
        ∧ (target ≠ .provisioned → ∀ d : DieId, t.sys.clk.get d.val = { DieClk.reset with
            resets := (s.sys.clk.get d.val).resets, supplied := (t.sys.clk.get d.val).supplied })))

/-! ### Management (R563 to R568, R584 to R592) -/

/-- SET_UNIT_STATE, MGT_UNITREQ and BRING_UP_TEST_END: the outcomes of R590. An OFFLINE of a unit in service, or by the management path of
one that is OFFLINE in band, makes it OFFLINE with the next GEN and the ORIGIN of its path; a request for a FENCED or FUSED unit is refused
with CFG_DENIED, and so is one in band with another GEN or against the management path; an ONLINE starts the unit's tests, and what a unit
already is it stays. A unit that passes is IN_SERVICE, one that fails FENCED with UNIT_INTERNAL, each with the next GEN; a link passes only
while its other die is up (the model's reading, log 153). A request for a die in bring-up is held (R601). A command without its session is
refused, below the minimum service set answered NO_SERVICE, and without Warden lost; an MGT_UNITREQ whose GO reads 0 or whose die is not up,
and a test end of a unit that is not tested, change nothing. -/
def Obligations.UnitStatesRequested : Prop :=
  (∀ (s : State) (d : DieId) (u : UnitNo) (online session : Bool),
    (s.sys.warden.running = false → exec (.setUnitState d u online session) s = .next s)
    ∧ (s.sys.warden.running = true → s.ras.noService = true → exec (.setUnitState d u online session) s
      = .next { s with io := { s.io with outputs := s.io.outputs ++ [.mgmt 4 Code.noService.val.toNat []] } }))
  ∧ (∀ (s : State) (d : DieId) (u : UnitNo) (online : Bool), s.sys.warden.running = true → s.ras.noService = false →
    let waits := (s.sys.clk.get d.val).supplied && !(s.sys.clk.get d.val).ready && !s.dieFencedB d.val
    let r := s.unitRec d.val u.val
    let tells (c : Code) (s : State) : IoSys := { s.io with outputs := s.io.outputs ++ [.mgmt 4 c.val.toNat (s.unitBytes d.val u.val)] }
    exec (.setUnitState d u online false) s
      = .next { s with io := { s.io with outputs := s.io.outputs ++ [.mgmt 4 Code.cfgDenied.val.toNat []] } }
    ∧ (waits = true → exec (.setUnitState d u online true) s
      = .next { s with sys := { s.sys with warden := { s.sys.warden with held := s.sys.warden.held ++ [⟨d.val, u.val, online⟩] } } })
    ∧ (waits = false → (r.st = .fenced ∨ r.st = .fused) →
      exec (.setUnitState d u online true) s = .next { s with io := tells .cfgDenied s })
    ∧ (waits = false → ((online = true ∧ r.st = .inService) ∨ (online = false ∧ r.st = .offline ∧ r.origin = true)) →
      exec (.setUnitState d u online true) s = .next { s with io := tells .ok s })
    ∧ (waits = false → online = true → r.st = .offline → ∃ t, exec (.setUnitState d u online true) s = .next t
      ∧ t.sys.warden.testing = s.sys.warden.testing.filter (fun x => x.1 != unitKey d.val u.val) ++ [(unitKey d.val u.val, false)]
      ∧ t = { s with sys := { s.sys with warden := { s.sys.warden with testing := t.sys.warden.testing } } })
    ∧ (waits = false → online = false → (r.st = .inService ∨ (r.st = .offline ∧ r.origin = false)) →
      ∃ t, exec (.setUnitState d u online true) s = .next t
      ∧ (t.unitRec d.val u.val).st = .offline ∧ (t.unitRec d.val u.val).gen = r.gen + 1 ∧ (t.unitRec d.val u.val).origin = true
      ∧ t.sys.warden.mgtOffline.contains (unitKey d.val u.val) = true
      ∧ (∃ l, t.io.outputs = l ++ [.mgmt 4 0 (leBytes 1 2 ++ leBytes 2 (r.gen + 1).toNat)]) ∧ t.sys.fuses = s.sys.fuses))
  ∧ (∀ (s : State) (d : DieId),
    let k : RegKey := ⟨.mgtUnitreq, d.val, 0, 0⟩
    (bitOf (s.appWord k) 63 = false ∨ s.dieUp d.val = false) → exec (.mgtUnitreq d) s = .next s)
  ∧ (∀ (s : State) (d : DieId) (u : UnitNo), s.dieUp d.val = true →
    let k : RegKey := ⟨.mgtUnitreq, d.val, 0, 0⟩
    let w := s.appWord k
    let r := s.unitRec d.val u.val
    let offline := bitsOf w 57 56 = 1
    let online := bitsOf w 57 56 = 2
    bitOf w 63 = true → bitsOf w 5 0 = u.val →
    let denied := (¬offline ∧ ¬online) ∨ r.st = .fenced ∨ r.st = .fused ∨ r.gen.toNat ≠ bitsOf w 31 16 ∨ (r.st = .offline ∧ r.origin = true)
    let answered (t : State) (c : Code) : Prop := bitOf (t.visWord k) 63 = false ∧ bitsOf (t.visWord k) 47 32 = c.val.toNat
    (denied → ∃ t, exec (.mgtUnitreq d) s = .next t ∧ answered t .cfgDenied ∧ t = { s with sys := { s.sys with regs := t.sys.regs } })
    ∧ (¬denied → ((offline ∧ r.st = .offline) ∨ (online ∧ r.st = .inService)) →
      ∃ t, exec (.mgtUnitreq d) s = .next t ∧ answered t .ok ∧ t = { s with sys := { s.sys with regs := t.sys.regs } })
    ∧ (¬denied → offline → r.st = .inService → ∃ t, exec (.mgtUnitreq d) s = .next t ∧ answered t .ok
      ∧ (t.unitRec d.val u.val).st = .offline ∧ (t.unitRec d.val u.val).gen = r.gen + 1
      ∧ (t.unitRec d.val u.val).origin = false ∧ t.sys.fuses = s.sys.fuses)
    ∧ (¬denied → online → r.st = .offline → ∃ t, exec (.mgtUnitreq d) s = .next t ∧ answered t .ok
      ∧ t.sys.warden.testing = s.sys.warden.testing.filter (fun x => x.1 != unitKey d.val u.val) ++ [(unitKey d.val u.val, true)]
      ∧ t = { s with sys := { s.sys with regs := t.sys.regs, warden := { s.sys.warden with testing := t.sys.warden.testing } } }))
  ∧ (∀ (s : State) (d : DieId) (u : UnitNo) (pass : Bool), s.sys.warden.testing.find? (fun x => x.1 == unitKey d.val u.val) = none →
    exec (.bringUpTestEnd d u pass) s = .next s)
  ∧ (∀ (s : State) (d : DieId) (u : UnitNo) (inBand pass : Bool),
    s.sys.warden.testing.find? (fun x => x.1 == unitKey d.val u.val) = some (unitKey d.val u.val, inBand) →
    let gen := (s.unitRec d.val u.val).gen + 1
    let passes := pass && (decide (u.val < 32) || s.dieUp (d.val ^^^ (u.val - 31)))
    ∃ t, exec (.bringUpTestEnd d u pass) s = .next t
      ∧ (t.unitRec d.val u.val).gen = gen ∧ (∀ x ∈ t.sys.warden.testing, x.1 ≠ unitKey d.val u.val) ∧ t.req = s.req
      ∧ (passes = true → (t.unitRec d.val u.val).st = .inService)
      ∧ (passes = false → (t.unitRec d.val u.val).st = .fenced ∧ (t.unitRec d.val u.val).cause = Code.unitInternal.val ∧ t.mem = s.mem)
      ∧ (inBand = false → ∃ l, t.io.outputs = l ++ [.mgmt 4 0 (leBytes 1 (if passes then 0 else 1) ++ leBytes 2 gen.toNat)]))

/-- The commands that read the tray: GET_TRAY_STATUS, GET_UNIT_STATE from Warden's cache, READ_LOG with up to 7 records, GET_PLDM_TYPES
(types 0, 2, 4 and 5), GET_PLDM_COMMANDS of type 0, a type that is not supported, and GET_SENSOR_READING with the maximum since the last
reading, answer what the tables of R565, R566 and R568 say; the answers the manual leaves open (GET_TID, a version) have their length.
Nothing else changes but the sensor's maximum. SET_EVENT_RECEIVER keeps the receiver (R567). MCTP_CONTROL: endpoint identifiers are kept
and answered, an unsupported transmission unit is refused, and the message types of an endpoint are those of R564. SET_POWER_CAP keeps a
cap of 200 to 600 W where the four sum to at most 2,240 W, and is refused with CFG_DENIED otherwise (R569). Without Warden none of them has
an effect; below the minimum service set GET_UNIT_STATE and SET_POWER_CAP are answered NO_SERVICE. What an endpoint answers where it has no
identifier yet, and its completion codes, are the model's choice (log 106). -/
def Obligations.WardenAnswers : Prop :=
  (∀ s : State, s.sys.warden.running = false →
    (∀ c ∈ [Instr.getTrayStatus, .getPldmTypes, .getTid], exec c s = .next s)
    ∧ (∀ (d : DieId) (u : UnitNo) (i : Nat), exec (.getUnitState d u) s = .next s ∧ exec (.readLog d i) s = .next s)
    ∧ (∀ ty : Byte, exec (.getPldmCommands ty) s = .next s ∧ exec (.getPldmVersion ty) s = .next s)
    ∧ (∀ id e, exec (.getSensorReading id) s = .next s ∧ exec (.setEventReceiver e) s = .next s)
    ∧ (∀ r m, exec (.mctpControl r m) s = .next s)
    ∧ (∀ d n b, exec (.setPowerCap d n b) s = .next s))
  ∧ (∀ s : State, s.sys.warden.running = true →
    let tells (cc : Nat) (bs : List Byte) : IoSys := { s.io with outputs := s.io.outputs ++ [.mgmt 4 cc bs] }
    let free (c : Instr) (n : Nat) : Prop :=
      ∃ bs : List Byte, bs.length = n ∧ exec c s = .next { s with free := s.free + n, io := tells 0 bs }
    exec .getTrayStatus s = .next { s with io := tells 0 (record8 ([lcCode s.sys.warden.lc, b2n s.ras.noService,
        dieMask (fun d => s.dieFencedB d), dieMask (fun d => !(s.sys.clk.get d).aligned)]
          ++ [0, 1, 2, 3].map (fun d => (s.sys.power.get d).level))) }
    ∧ (∀ (d : DieId) (u : UnitNo) (r : UnitReport), s.ras.noService = false → s.sys.warden.cache.get (unitKey d.val u.val) = some r →
      exec (.getUnitState d u) s = .next { s with
        io := tells 0 (leBytes 1 r.st.code ++ leBytes 1 r.origin ++ leBytes 2 r.gen.toNat ++ leBytes 1 (r.resets % 256)) })
    ∧ (∀ (d : DieId) (u : UnitNo), s.ras.noService = true →
      exec (.getUnitState d u) s = .next { s with io := tells Code.noService.val.toNat [] })
    ∧ (∀ (d : DieId) (i : Nat), exec (.readLog d i) s
      = .next { s with io := tells 0 ((((s.ras.logs.get d.val).recs.drop i).take 7).flatMap (fun e => e.bytes false)) })
    ∧ exec .getPldmTypes s = .next { s with io := tells 0 (leBytes 8 0x35) }
    ∧ exec (.getPldmCommands 0) s = .next { s with io := tells 0 (leBytes 32 0x3C) }
    ∧ (∀ ty : Byte, ty.toNat ∉ [0, 2, 4, 5] → exec (.getPldmVersion ty) s = .next { s with io := tells 0x83 [] }
        ∧ exec (.getPldmCommands ty) s = .next { s with io := tells 0x83 [] })
    ∧ (∀ (d : DieId) (u : UnitNo), s.ras.noService = false → s.sys.warden.cache.get (unitKey d.val u.val) = none →
        free (.getUnitState d u) 5)
    ∧ (∀ id, sensorExists id = true → sensorFed id = false → free (.getSensorReading id) 8)
    ∧ free .getTid 1 ∧ (∀ ty : Byte, ty.toNat ∈ [0, 2, 4, 5] → free (.getPldmVersion ty) 4)
    ∧ (∀ ty : Byte, ty.toNat ∈ [2, 4, 5] → free (.getPldmCommands ty) 32)
    ∧ (∀ id, sensorExists id = false → exec (.getSensorReading id) s = .next { s with io := tells 0x80 [] })
    ∧ (∀ id, sensorExists id = true → sensorFed id = true → ∃ t, exec (.getSensorReading id) s = .next t
      ∧ t.io = tells 0 (leBytes 4 (s.sys.warden.sensors.get id).1 ++ leBytes 4 (s.sys.warden.sensors.get id).2)
      ∧ t.sys.warden.sensors.get id = ((s.sys.warden.sensors.get id).1, (s.sys.warden.sensors.get id).1)
      ∧ (∀ j, j ≠ id → t.sys.warden.sensors.get j = s.sys.warden.sensors.get j)
      ∧ t = { s with io := t.io, sys := { s.sys with warden := { s.sys.warden with sensors := t.sys.warden.sensors } } }))
  ∧ (∀ s : State, s.sys.warden.running = true →
    let tells (who cc : Nat) (bs : List Byte) : IoSys := { s.io with outputs := s.io.outputs ++ [.mgmt who cc bs] }
    let w := s.sys.warden
    let with_ (v : Warden) (o : IoSys) : State := { s with sys := { s.sys with warden := v }, io := o }
    (∀ e, exec (.setEventReceiver e) s = .next (with_ { w with evtReceiver := e } (tells 4 0 [])))
    ∧ (∀ e, exec (.mctpControl .warden (.setEid e)) s = .next (with_ { w with eid := some e } (tells 4 0 (leBytes 1 e))))
    ∧ (∀ e, w.eid = some e → exec (.mctpControl .warden .getEid) s = .next { s with io := tells 4 0 (leBytes 1 e) })
    ∧ (∀ n e, 4 ≤ n → exec (.mctpControl .warden (.allocateEids n e)) s
        = .next (with_ { w with dieEids := some e } (tells 4 0 (leBytes 1 4 ++ leBytes 1 e))))
    ∧ (∀ n, 64 ≤ n → n ≤ 256 → exec (.mctpControl .warden (.negotiateUnit n)) s
        = .next (with_ { w with unitBytes := n } (tells 4 0 (leBytes 2 n))))
    ∧ (∀ n, (n < 64 ∨ 256 < n) → exec (.mctpControl .warden (.negotiateUnit n)) s = .next { s with io := tells 4 2 [] })
    ∧ (∀ n e, n < 4 → exec (.mctpControl .warden (.allocateEids n e)) s = .next { s with io := tells 4 2 [] })
    ∧ (w.eid = none → exec (.mctpControl .warden .getEid) s = .next { s with io := tells 4 0 [0] })
    ∧ (∀ (r : Responder) (ty : Byte), exec (.mctpControl r (.messageOfType ty)) s = .next s)
    ∧ (∀ (d : DieId) (m : MctpMsg), (s.sys.clk.get d.val).supplied = false → exec (.mctpControl (.die d) m) s = .next s)
    ∧ (∀ d : DieId, (s.sys.clk.get d.val).supplied = true →
        (∀ n e, exec (.mctpControl (.die d) (.allocateEids n e)) s = .next { s with io := tells d.val 5 [] })
        ∧ (∀ n, exec (.mctpControl (.die d) (.negotiateUnit n)) s = .next { s with io := tells d.val 5 [] })
        ∧ (∀ e, exec (.mctpControl (.die d) (.setEid e)) s = .next (with_ { w with dieEids := some (e - d.val) } (tells d.val 0 (leBytes 1 e))))
        ∧ (w.dieEids = none → exec (.mctpControl (.die d) .getEid) s = .next { s with io := tells d.val 0 [0] }))
    ∧ exec (.mctpControl .warden .getMessageTypes) s = .next { s with io := tells 4 0 [5, 0x00, 0x01, 0x05, 0x06, 0x7E] }
    ∧ (∀ (d : DieId) (e : Nat), (s.sys.clk.get d.val).supplied = true → w.dieEids = some e →
        exec (.mctpControl (.die d) .getEid) s = .next { s with io := tells d.val 0 (leBytes 1 (e + d.val)) }
        ∧ exec (.mctpControl (.die d) .getMessageTypes) s = .next { s with io := tells d.val 0 [3, 0x00, 0x05, 0x06] })
    ∧ (s.ras.noService = true → ∀ d capW session,
        exec (.setPowerCap d capW session) s = .next { s with io := tells 4 Code.noService.val.toNat [] })
    ∧ (∀ (d : DieId) (capW : Nat), s.ras.noService = false →
      let total := [0, 1, 2, 3].foldl (fun n e => n + (if e = d.val then capW else w.capW.get e)) 0
      ((capW < 200 ∨ 600 < capW ∨ 2240 < total) →
        exec (.setPowerCap d capW true) s = .next { s with io := tells 4 Code.cfgDenied.val.toNat [] })
      ∧ (200 ≤ capW → capW ≤ 600 → total ≤ 2240 →
        exec (.setPowerCap d capW true) s = .next (with_ { w with capW := w.capW.set d.val capW } (tells 4 0 [])))
      ∧ exec (.setPowerCap d capW false) s = .next { s with io := tells 4 Code.cfgDenied.val.toNat [] }))

/-- FIRMWARE_COMPONENT_TRANSFER stages an image; VERIFY_COMPLETE reports whether it passes, and discards one that fails (R584);
ACTIVATE_FIRMWARE of a verified image begins its activation, and each later step of it copies as R585 says, until copy A holds the new
image and copy B the old one, which FW_UPDATE tells (R585); new Warden firmware then resets Warden (R586). A kind under activation is
neither staged nor verified, and an image that is not verified, or another kind meanwhile, is not activated (log 106). COMMIT_SVN raises
the fused SVN of each named die that runs its copies A to the lower of the SVNs it runs, and never lowers it; its code is OK only where
every named die does (R540, R587); it is refused without its session, below the minimum service set answered NO_SERVICE. Without Warden none
of them has an effect. -/
def Obligations.FirmwareUpdated : Prop :=
  (∀ (s : State) (k : ImageKind) (image : List Byte),
    (s.sys.warden.running = false → exec (.activateFirmware k) s = .next s ∧ ∀ mask b, exec (.commitSvn mask b) s = .next s)
    ∧ ((s.sys.warden.running = false ∨ ∃ n, s.sys.warden.activating = some (imageKey k 0, n)) →
        exec (.firmwareComponentTransfer k image) s = .next s ∧ exec (.verifyComplete k) s = .next s))
  ∧ (∀ (s : State) (k : ImageKind) (image : List Byte), s.sys.warden.running = true →
    (∀ n, s.sys.warden.activating ≠ some (imageKey k 0, n)) →
    let w := s.sys.warden
    let out := imageKey k 0
    let tells (bs : List Byte) : IoSys := { s.io with outputs := s.io.outputs ++ [.mgmt 4 0 bs] }
    let with_ (v : Warden) (bs : List Byte) : State := { s with sys := { s.sys with warden := v }, io := tells bs }
    let rest := w.verified.filter (fun i => i != out)
    exec (.firmwareComponentTransfer k image) s
      = .next (with_ { w with images := w.images.set (imageKey k 2) image, verified := rest } [])
    ∧ (s.stagedOk k = true → exec (.verifyComplete k) s = .next (with_ { w with verified := rest ++ [out] } [0]))
    ∧ (s.stagedOk k = false →
      exec (.verifyComplete k) s = .next (with_ { w with images := w.images.set (imageKey k 2) [], verified := rest } [1]))
    ∧ (w.activating = none → w.verified.contains out = true → exec (.activateFirmware k) s
      = .next (with_ { w with
          images := w.images.set (imageKey k 1) (w.images.get (imageKey k 2)), activating := some (out, 1) } [1]))
    ∧ ((w.activating.isSome = true ∨ w.verified.contains out = false) → exec (.activateFirmware k) s
      = .next { s with io := { s.io with outputs := s.io.outputs ++ [.mgmt 4 1 []] } }))
  ∧ (∀ (s : State) (k : ImageKind) (n : Nat), s.sys.warden.running = true → s.sys.warden.activating = some (imageKey k 0, n) →
    1 ≤ n → n ≤ 3 →
    let w := s.sys.warden
    ∃ t, exec (.activateFirmware k) s = .next t
      ∧ (n = 1 → t.sys.warden.images = w.images.set (imageKey k 2) (w.images.get (imageKey k 0)))
      ∧ (n = 2 → t.sys.warden.images = w.images.set (imageKey k 0) (w.images.get (imageKey k 1)))
      ∧ (n = 3 → t.sys.warden.images = w.images.set (imageKey k 1) (w.images.get (imageKey k 2))
          ∧ (∃ e ∈ t.sys.warden.log, e.code = Code.fwUpdate.val) ∧ t.sys.warden.verified.contains (imageKey k 0) = false
          ∧ (k = .wardenFw → t.sys.warden.nonce = none ∧ t.sys.warden.evtReceiver = none))
      ∧ t.sys.warden.activating = (if n = 3 then none else some (imageKey k 0, n + 1))
      ∧ ((n ≠ 3 ∨ k ≠ .wardenFw) → t = { s with sys := { s.sys with warden := t.sys.warden }, io := t.io }))
  ∧ (∀ (s : State) (mask : BitVec 4) (session : Bool), s.sys.warden.running = true →
    let tells (c : Code) (bs : List Byte) : IoSys := { s.io with outputs := s.io.outputs ++ [.mgmt 4 c.val.toNat bs] }
    let good (d : Nat) : Prop := s.runsCopyA (s.sys.sec.get d).steward .steward = true
      ∧ s.runsCopyA (s.sys.sec.get d).runtime .runtime = true
    let svns (t : State) : List Byte := record8 ([0, 1, 2, 3].map (fun d => t.sys.fuses.svn.get d))
    (s.ras.noService = true → exec (.commitSvn mask session) s = .next { s with io := tells .noService [] })
    ∧ (s.ras.noService = false → exec (.commitSvn mask false) s = .next { s with io := tells .cfgDenied [] })
    ∧ (s.ras.noService = false → ∃ t, exec (.commitSvn mask true) s = .next t
      ∧ (∀ (d : DieId) (a b : RunImage), bitOf mask.toNat d.val = true → good d.val → (s.sys.sec.get d.val).steward = some a →
          (s.sys.sec.get d.val).runtime = some b → t.sys.fuses.svn.get d.val = max (s.sys.fuses.svn.get d.val) (min a.svn b.svn))
      ∧ (∀ d : DieId, (bitOf mask.toNat d.val = false ∨ ¬good d.val) → t.sys.fuses.svn.get d.val = s.sys.fuses.svn.get d.val)
      ∧ ((∀ d : DieId, bitOf mask.toNat d.val = true → good d.val) → t.io = tells .ok (svns t))
      ∧ (∀ d : DieId, bitOf mask.toNat d.val = true → ¬good d.val → t.io = tells .cfgDenied (svns t))
      ∧ t = { s with sys := { s.sys with fuses := { s.sys.fuses with svn := t.sys.fuses.svn } }, io := t.io }))

/-! ### Power, throttling and coolant (R569 to R580) -/

/-- THROTTLE_DECISION: a die over its limit or its temperature that has not changed for 25,000 ticks decides the next slower level, one cool
for 2,500,000 ticks since its last change the next faster; otherwise it decides nothing, and while a decision waits none is taken (R572).
THROTTLE: at a five-tick boundary after the decision the die's level becomes the decided one, and the change is counted; every island that
is not held has the die's level, and every held one T0 (R571, R573, R634); where the held islands are at T0 already, no request changes.
POWER_LIMIT: the die's islands are decided to go to T3, its hard actions count, and running requests with a held island on it begin to
end; at the next Pulse edge scheduled regions with a port on the die break (R575). Readings within the limits, a tick between boundaries
and a die without supply change nothing. -/
def Obligations.PowerThrottles : Prop :=
  (∀ (s : State) (d : DieId) (r : PowerReading), (s.sys.warden.running = false ∨ (s.sys.clk.get d.val).supplied = false) →
    exec (.throttleDecision d r) s = .next s ∧ ∀ tray b, exec (.powerLimit d r tray b) s = .next s)
  ∧ (∀ (s : State) (d : DieId) (r : PowerReading), s.sys.warden.running = true → (s.sys.clk.get d.val).supplied = true →
    let p := s.sys.power.get d.val
    let hot := 10 * s.appF .mgtPowerlimit d.val 0 0 31 24
    let above := s.powerLimitOf d.val < r.p100 ∨ hot ≤ r.tj
    let cool := 10 * r.p1ms < 9 * s.powerLimitOf d.val ∧ r.tj + 30 < hot
    let settled (n : Nat) : Prop := ∀ x, p.changed = some x → n ≤ s.since d.val x
    let slower := above ∧ settled 25000 ∧ p.level < 3
    let faster := cool ∧ (∃ x, p.coolSince = some x ∧ 2500000 ≤ s.since d.val x) ∧ settled 2500000 ∧ 0 < p.level
    ∃ t q, exec (.throttleDecision d r) s = .next t ∧ t.sys.power.get d.val = q ∧ q.level = p.level ∧ q.islands = p.islands
      ∧ q.p1ms = r.p1ms ∧ q.tj = r.tj ∧ q.readTj = r.tj
      ∧ (cool → q.coolSince = some (p.coolSince.getD (s.tickOf d.val))) ∧ (¬cool → q.coolSince = none)
      ∧ (p.pending.isSome = true → q.pending = p.pending)
      ∧ (p.pending = none → slower → q.pending = some (p.level + 1, s.extTick d.val))
      ∧ (p.pending = none → ¬slower → faster → q.pending = some (p.level - 1, s.extTick d.val))
      ∧ (p.pending = none → ¬slower → ¬faster → q.pending = none)
      ∧ t = { s with sys := { s.sys with
          power := s.sys.power.set d.val q, warden := { s.sys.warden with sensors := t.sys.warden.sensors } } })
  ∧ (∀ (s : State) (d : DieId), s.rowsRun = false →
    let p := s.sys.power.get d.val
    ((s.extTick d.val % 5 ≠ 0 ∨ (s.sys.clk.get d.val).supplied = false) → exec (.throttle d) s = .next s)
    ∧ ((s.sys.clk.get d.val).supplied = true → s.extTick d.val % 5 = 0 → ∃ t q, exec (.throttle d) s = .next t
      ∧ t.sys.power.get d.val = q
      ∧ (∀ level at_, p.pending = some (level, at_) → at_ < s.extTick d.val →
          q.level = level ∧ q.pending = none ∧ q.changed = some (s.tickOf d.val) ∧ q.steps = p.steps + 1)
      ∧ ((∀ level at_, p.pending = some (level, at_) → s.extTick d.val ≤ at_) →
          q.level = p.level ∧ q.pending = p.pending ∧ q.changed = p.changed ∧ q.steps = p.steps)
      ∧ (∀ n ∈ islandNodes d.val, q.islands.get n = if s.heldIsland n then 0 else q.level)
      ∧ (∀ n, n ∉ islandNodes d.val → q.islands.get n = p.islands.get n)
      ∧ ((∀ n ∈ islandNodes d.val, s.heldIsland n = true → p.islands.get n = 0) →
          t.mem = s.mem ∧ t.comp = s.comp ∧ t.req = s.req ∧ t.net = s.net)))
  ∧ (∀ (s : State) (d : DieId) (r : PowerReading) (tray : Nat) (otherOver : Bool), s.sys.warden.running = true →
    (s.sys.clk.get d.val).supplied = true →
    let due := s.powerLimitOf d.val + 1000 * s.appF .mgtPowerlimit d.val 0 0 57 48 < r.p1ms ∨ 1030 ≤ r.tj
      ∨ 2400000 ≤ tray ∧ (s.powerLimitOf d.val < r.p1ms ∨ otherOver = false)
    (¬due → exec (.powerLimit d r tray otherOver) s = .next s)
    ∧ (due → ∃ t, exec (.powerLimit d r tray otherOver) s = .next t
      ∧ (t.sys.power.get d.val).pending = some (3, s.extTick d.val + 1)
      ∧ (t.sys.power.get d.val).hard = (s.sys.power.get d.val).hard + 1 ∧ (t.sys.power.get d.val).breaking = true
      ∧ (∀ q, s.findReq q.id = some q → q.running = true → (∃ n ∈ q.nodes, nodeDie n = d.val ∧ s.heldIsland n = true) →
          ∃ x, t.findReq q.id = some x ∧ x.step = .ending)
      ∧ t.net.scheds = s.net.scheds ∧ t.mem = s.mem))
  ∧ (∀ (s : State) (d : DieId), s.sys.warden.pulse = true → (s.sys.power.get d.val).breaking = true →
    ∃ t, exec .pulseEdge s = .next t ∧ (t.sys.power.get d.val).breaking = false
      ∧ (∀ c ∈ t.net.scheds, (∃ y ∈ c.ports, nodeDie y.node = d.val) → c.broken = true))

/-- THERMAL_TRIP: at 105 degrees the die loses its supply and is fenced, and a die reset that waited may begin (R576). INPUT_POWER_FAULT:
every die loses its supply; INPUT_POWER_RESTORED is a tray reset, in which every die that is not still hot starts again (R576, R578).
COOLANT_TEMP: the inlet's reading is kept, and an inlet above 40 degrees is logged once per excursion. COOLANT_FLOW: low flow is logged and
halves every die's effective limit until it is restored; very low flow or a leak is logged with its ARG1 and removes every supply, and when
the condition has cleared nothing starts by itself (R569, R580). Without Warden, below 105 degrees, of a die without supply, or where the
input already is as told, nothing changes. -/
def Obligations.SuppliesAndCoolant : Prop :=
  (∀ (s : State) (d : DieId) (tj : Nat),
    ((tj < 1050 ∨ s.sys.warden.running = false ∨ (s.sys.clk.get d.val).supplied = false) → exec (.thermalTrip d tj) s = .next s)
    ∧ (1050 ≤ tj → s.sys.warden.running = true → (s.sys.clk.get d.val).supplied = true →
      ∃ t : State, exec (.thermalTrip d tj) s = .next t.nextReset
      ∧ t.sys.clk.get d.val = { DieClk.reset with resets := (s.sys.clk.get d.val).resets }
      ∧ t.dieFencedB d.val = true ∧ (t.sys.power.get d.val).tripped = true ∧ (t.sys.power.get d.val).tj = tj
      ∧ t.sys.warden.resetQueue = s.sys.warden.resetQueue
      ∧ (∀ e : DieId, e ≠ d → (t.sys.clk.get e.val).supplied = (s.sys.clk.get e.val).supplied) ∧ t.sys.fuses = s.sys.fuses))
  ∧ (∀ s : State, (s.sys.warden.running = false ∨ s.sys.warden.inputOk = false) → exec .inputPowerFault s = .next s)
  ∧ (∀ s : State, s.sys.warden.running = true → s.sys.warden.inputOk = true →
    ∃ t, exec .inputPowerFault s = .next t ∧ t.sys.warden.inputOk = false ∧ t.sys.warden.inputFault = true
      ∧ (∀ d : DieId, t.sys.clk.get d.val = { DieClk.reset with resets := (s.sys.clk.get d.val).resets } ∧ t.dieFencedB d.val = true)
      ∧ t.sys.fuses = s.sys.fuses)
  ∧ (∀ s : State, (s.sys.warden.running = false ∨ s.sys.warden.inputFault = false) → exec .inputPowerRestored s = .next s)
  ∧ (∀ s : State, s.sys.warden.running = true → s.sys.warden.inputFault = true →
    ∃ t, exec .inputPowerRestored s = .next t ∧ t.sys.warden.inputOk = true ∧ t.sys.warden.inputFault = false
      ∧ (∀ d : DieId,
          let stays := ((s.sys.power.get d.val).tripped && decide (950 ≤ (s.sys.power.get d.val).tj)) || s.sys.warden.coolantBad
          t.sys.clk.get d.val = { DieClk.reset with resets := (s.sys.clk.get d.val).resets, supplied := !stays }
            ∧ t.dieFencedB d.val = stays)
      ∧ t.req.requests = [] ∧ t.sys.fuses = s.sys.fuses)
  ∧ (∀ s : State, s.sys.warden.running = false →
    (∀ inlet, exec (.coolantTemp inlet) s = .next s) ∧ ∀ e, exec (.coolantFlow e) s = .next s)
  ∧ (∀ s : State, s.sys.warden.running = true →
    (∀ inlet, ∃ t, exec (.coolantTemp inlet) s = .next t ∧ (t.sys.warden.sensors.get 4).1 = inlet
      ∧ t.sys.warden.tempLogged = decide (400 < inlet)
      ∧ t.sys.warden.log = s.sys.warden.log ++
          (if 400 < inlet ∧ s.sys.warden.tempLogged = false then [s.mkEvent 0 255 none .coolantTemp 0 0] else [])
      ∧ t = { s with sys := { s.sys with warden := t.sys.warden }, io := { s.io with outputs := t.io.outputs } })
    ∧ (s.sys.warden.flowLow = true → exec (.coolantFlow .low) s = .next s)
    ∧ (s.sys.warden.flowLow = false → ∃ t, exec (.coolantFlow .low) s = .next t ∧ t.sys.warden.flowLow = true
      ∧ t.sys.warden.log = s.sys.warden.log ++ [s.mkEvent 0 255 none .coolantFlow 0 0]
      ∧ (∀ d, t.powerLimitOf d = s.powerLimitOf d / 2)
      ∧ t = { s with sys := { s.sys with warden := t.sys.warden }, io := { s.io with outputs := t.io.outputs } })
    ∧ exec (.coolantFlow .restored) s
      = .next { s with sys := { s.sys with warden := { s.sys.warden with flowLow := false } } }
    ∧ (∀ c arg, (c, arg) ∈ [(FlowEvent.veryLow, 1), (FlowEvent.leak, 2)] → ∃ t, exec (.coolantFlow c) s = .next t
      ∧ t.sys.warden.coolantOff = true ∧ t.sys.warden.coolantBad = true ∧ s.mkEvent 0 255 none .coolantFlow arg 0 ∈ t.sys.warden.log
      ∧ (∀ d : DieId, (t.sys.clk.get d.val).supplied = false ∧ t.dieFencedB d.val = true) ∧ t.sys.fuses = s.sys.fuses)
    ∧ (∃ t, exec (.coolantFlow .cleared) s = .next t ∧ t.sys.warden.coolantBad = false
      ∧ t.sys.warden.coolantOff = s.sys.warden.coolantOff
      ∧ t = { s with sys := { s.sys with warden := t.sys.warden } }))

/-! ### Resets and bring-up (R581 to R583, R593 to R612) -/

/-- POWER_ON: Warden runs and generates the Pulse, its life-cycle state is the journal's, every die has core supply and starts before D1,
and all volatile state is as at power-on (R556, R581, R593); a Warden that has power is not started again. TRAY_RESET: every register but
GLB_LOCKMAP is at its reset value, no request is left, held locks are BROKEN, and every die starts again but one still hot or without input
or coolant (R206, R576, R581, R593). RESET in a secured session answers and does what the reset of its domain does; without one, or of a die
or unit that is not served, it is refused with CFG_DENIED, and below the minimum service set it is answered NO_SERVICE, but that of the tray
once a coolant condition that removed the supplies has cleared (R566, R580, R581). Without Warden neither has an effect. -/
def Obligations.TrayResets : Prop :=
  (∀ s : State, s.sys.warden.powered = true → s.sys.warden.inputFault = false → exec .powerOn s = .next s)
  ∧ (∀ s : State, (s.sys.warden.powered = false ∨ s.sys.warden.inputFault = true) →
    ∃ t, exec .powerOn s = .next t ∧ t.sys.warden.powered = true ∧ t.sys.warden.running = true ∧ t.sys.warden.pulse = true
      ∧ (s.sys.warden.activating = none → t.sys.warden.lc = s.sys.warden.readJournal.1
          ∧ (s.sys.warden.readJournal.1 ≠ .retired → t.sys.fuses = s.sys.fuses))
      ∧ (∀ d : DieId, t.sys.clk.get d.val = { DieClk.reset with supplied := true } ∧ t.dieFencedB d.val = false)
      ∧ t.mem.mem.cells = [] ∧ t.req.requests = [] ∧ (∀ k, t.visWord k = (t.resetOf k).toNat))
  ∧ (∀ s : State, s.sys.warden.running = true →
    ∃ t, exec .trayReset s = .next t ∧ (∀ k, k.name ≠ .glbLockmap → t.visWord k = (s.resetOf k).toNat) ∧ t.req.requests = []
      ∧ (∀ l, l < 1024 → (t.comp.locks.get l).st = if (s.comp.locks.get l).st = 1 then 2 else (s.comp.locks.get l).st)
      ∧ (∀ d : DieId,
          let stays := ((s.sys.power.get d.val).tripped && decide (950 ≤ (s.sys.power.get d.val).tj)) || s.sys.warden.coolantBad
            || !s.sys.warden.inputOk
          t.sys.clk.get d.val = { DieClk.reset with resets := (s.sys.clk.get d.val).resets, supplied := !stays }
            ∧ t.dieFencedB d.val = stays)
      ∧ t.sys.warden.lc = s.sys.warden.lc ∧ t.sys.fuses = s.sys.fuses)
  ∧ (∀ s : State, s.sys.warden.running = false → exec .trayReset s = .next s ∧ ∀ dom session, exec (.reset dom session) s = .next s)
  ∧ (∀ s : State, s.sys.warden.running = true →
    let tells (c : Code) : State := { s with io := { s.io with outputs := s.io.outputs ++ [.mgmt 4 c.val.toNat []] } }
    let retakes := s.sys.warden.coolantOff = true ∧ s.sys.warden.coolantBad = false
    (retakes → ∃ t, exec (.reset .tray true) s = .next t
      ∧ exec .trayReset { tells .ok with sys := { s.sys with warden := { s.sys.warden with coolantOff := false } } } = .next t)
    ∧ (s.ras.noService = true → ∀ dom session, (¬retakes ∨ dom ≠ .tray ∨ session = false) →
      exec (.reset dom session) s = .next (tells .noService))
    ∧ (s.ras.noService = false → ∀ dom, exec (.reset dom false) s = .next (tells .cfgDenied))
    ∧ (s.ras.noService = false →
      (∃ t, exec (.reset .warden true) s = .next t ∧ exec .wardenReset (tells .ok) = .next t)
      ∧ (¬retakes → ∃ t, exec (.reset .tray true) s = .next t ∧ exec .trayReset (tells .ok) = .next t)
      ∧ (∀ d : DieId, (s.sys.clk.get d.val).supplied = true →
        ∃ t, exec (.reset (.die d) true) s = .next t ∧ exec (.dieReset d) (tells .ok) = .next t)
      ∧ (∀ d : DieId, (s.sys.clk.get d.val).supplied = false → exec (.reset (.die d) true) s = .next (tells .cfgDenied))
      ∧ (∀ f : FuncRef, ∃ t, exec (.reset (.function f) true) s = .next t ∧ exec (.flr f) (tells .ok) = .next t)
      ∧ (∀ p : PartId, ∃ t, exec (.reset (.partition p) true) s = .next t ∧ t.partResetting p.val = true
        ∧ t = { tells .ok with sys := { s.sys with regs := t.sys.regs } })
      ∧ (∀ (d : DieId) (u : UnitNo), s.dieUp d.val = true → exec (.reset (.unit d u) true) s
        = .next ((s.resetUnit d.val u.val).2.emit (.mgmt 4 (s.resetUnit d.val u.val).1.val.toNat [])))
      ∧ (∀ (d : DieId) (u : UnitNo), s.dieUp d.val = false → exec (.reset (.unit d u) true) s = .next (tells .cfgDenied))))

/-- DIE_RESET: one asked for while another reset runs waits, and the first that waits begins once none runs; then the die's running
requests begin to end and its state and its registers but GLB_LOCKMAP return to reset (R581, R583, R608). WARDEN_RESET: Warden forgets its
nonce, its receiver, its sessions and the commands it held, reads its journal, and has the notices of every die that is up (R582).
UNIT_RESET: refused with CFG_BUSY while a running or armed request names the unit or a scheduled region that is not BROKEN uses it, and only
then; else its engine returns to reset, a link that runs retrains, its memory and service state are kept, and GO reads 0 (R610, R614).
PARTITION_RESET: no request of the partition is left, its rings are OFF, its held locks BROKEN, and GO reads 0 (R609). Without Warden, supply
or GO there is no reset. -/
def Obligations.ResetsOfDomains : Prop :=
  (∀ (s : State) (d : DieId), (s.sys.warden.running = false ∨ (s.sys.clk.get d.val).supplied = false) → exec (.dieReset d) s = .next s)
  ∧ (∀ (s : State) (d : DieId), s.sys.warden.running = true → (s.sys.clk.get d.val).supplied = true →
    let queued : State := { s with
      sys := { s.sys with warden := { s.sys.warden with resetQueue := s.sys.warden.resetQueue ++ [d.val] } } }
    exec (.dieReset d) s = .next queued.nextReset ∧
    (s.judged = false → exec (.dieReset d) s = .next queued)
    ∧ (s.judged = true → s.sys.warden.resetQueue = [] → ∃ t, exec (.dieReset d) s = .next t
      ∧ t.sys.clk.get d.val = { DieClk.reset with resets := (s.sys.clk.get d.val).resets, supplied := true }
      ∧ t.dieFencedB d.val = false ∧ t.sys.warden.resetQueue = [] ∧ (∀ k, dieReg d.val k = true → t.visWord k = (s.resetOf k).toNat)
      ∧ (∀ r, s.findReq r.id = some r → r.running = true → r.dies.contains d.val = true →
          ∃ q, t.findReq r.id = some q ∧ q.step = .ending)
      ∧ t.sys.fuses = s.sys.fuses))
  ∧ (∀ s : State, s.sys.warden.running = false → exec .wardenReset s = .next s)
  ∧ (∀ s : State, s.sys.warden.running = true → ∃ t, exec .wardenReset s = .next t
    ∧ t.sys.spdm = s.sys.spdm.set 4 SpdmSt.reset ∧ t.sys.warden.nonce = none ∧ t.sys.warden.held = [] ∧ t.sys.warden.evtReceiver = none ∧ t.sys.warden.eid = none
    ∧ t.sys.warden.lc = s.sys.warden.readJournal.1
    ∧ (∀ (d : DieId) (u : UnitNo), u.val < 35 → t.sys.warden.cache.get (unitKey d.val u.val)
        = if s.dieUp d.val then some (s.unitReport d.val u.val) else none)
    ∧ (s.sys.warden.readJournal.1 ≠ .retired → t.sys.fuses = s.sys.fuses)
    ∧ t.mem = s.mem ∧ t.comp = s.comp ∧ t.req = s.req ∧ t.net = s.net)
  ∧ (∀ (s : State) (d : DieId), (bitOf (s.appWord ⟨.glbUnitreset, d.val, 0, 0⟩) 63 = false ∨ s.dieUp d.val = false) →
    exec (.unitReset d) s = .next s)
  ∧ (∀ (s : State) (d : DieId) (u : UnitNo), s.dieUp d.val = true →
    let k : RegKey := ⟨.glbUnitreset, d.val, 0, 0⟩
    let n := unitNode d.val u.val
    let e := d.val ^^^ (u.val - 31)
    bitOf (s.appWord k) 63 = true → bitsOf (s.appWord k) 5 0 = u.val →
    let r := s.resetUnit d.val u.val
    ∃ t, exec (.unitReset d) s = .next t ∧ bitOf (t.visWord k) 63 = false ∧ bitsOf (t.visWord k) 47 32 = r.1.val.toNat
      ∧ t.mem = s.mem ∧ t.ras.units = s.ras.units
      ∧ (r.1 = .cfgBusy → t = { s with sys := { s.sys with regs := t.sys.regs } })
      ∧ (r.1 = .cfgBusy ∨ r.1 = .ok)
      ∧ (r.1 = .cfgBusy ↔ (∃ q ∈ s.req.requests, (q.running = true ∨ q.armed = true) ∧ (q.nodes.contains n = true
            ∨ 32 ≤ u.val ∧ q.dies.contains d.val = true ∧ q.dies.contains e = true))
          ∨ ∃ c ∈ s.net.scheds, c.broken = false ∧ ∃ y ∈ c.ports, y.node = n)
      ∧ (r.1 ≠ .cfgBusy → u.val < 16 → ∀ i, i < 8 → t.comp.cores.get (8 * (16 * d.val + u.val) + i) = Core.reset)
      ∧ (r.1 ≠ .cfgBusy → 16 ≤ u.val → u.val < 20 → t.comp.tes.get (4 * d.val + (u.val - 16)) = Te.reset)
      ∧ (r.1 ≠ .cfgBusy → 20 ≤ u.val → u.val < 28 → t.comp.rlus.get (8 * d.val + (u.val - 20)) = Rlu.reset
          ∧ t.comp.copies.get (8 * d.val + (u.val - 20)) = CopyEng.reset)
      ∧ (r.1 ≠ .cfgBusy → 32 ≤ u.val → s.dieUp e = true → (s.link.links.get (linkKey d.val e)).st ∈ [LinkSt.up32, .up16, .down] →
          (t.link.links.get (linkKey d.val e)).st = .training))
  ∧ (∀ (s : State) (p : PartId), s.partResetting p.val = false → exec (.partitionReset p) s = .next s)
  ∧ (∀ (s : State) (p : PartId), s.partResetting p.val = true → s.req.rings.rest = Ring.reset →
    ∃ t, exec (.partitionReset p) s = .next t ∧ t.partResetting p.val = false ∧ (∀ r ∈ t.req.requests, r.part ≠ p.val)
      ∧ (∀ cq (q : Fin 64), t.ring p.val cq q.val = Ring.reset)
      ∧ (∀ l, l < 1024 → (s.comp.locks.get l).st = 1 → (s.comp.locks.get l).part = p.val → (t.comp.locks.get l).st = 2)
      ∧ (∀ r ∈ s.req.requests, r.part ≠ p.val → (∀ q ∈ s.req.requests, q.part = p.val → q.id ≠ r.id) → r ∈ t.req.requests)
      ∧ t.sys.fuses = s.sys.fuses)

/-- D1 to D6: the fuses of D1 show fused-off SCs, and a die whose fuses fail is fenced; D2 locks to the Pulse with TICK 0, or the die is
fenced; D3 and D5 train the stacks, and fence the HC of one that does not, HC0 with its die; D4 takes the images Warden keeps, Steward's
into the die's system memory, or the die is fenced; D6 fences the units that fail their tests and starts the enabled Spindles (R39, R225,
R533, R539, R595, R597). A step that is not the die's next, and D4 without Warden, change nothing. Where a step fences the die, a die reset
that waits may begin (R608). -/
def Obligations.DieStepsToUnitTests : Prop :=
  (∀ (s : State) (d : DieId) (a b c : Bool) (failed : List UnitNo) (kat : List (Fin 16)),
    (s.stepDue d.val 1 = false → exec (.d1 d a) s = .next s) ∧ (s.stepDue d.val 2 = false → exec (.d2 d a) s = .next s)
    ∧ (s.stepDue d.val 3 = false → exec (.d3 d a) s = .next s)
    ∧ ((s.stepDue d.val 4 = false ∨ s.sys.warden.running = false) → exec (.d4 d) s = .next s)
    ∧ (s.stepDue d.val 5 = false → exec (.d5 d a b c) s = .next s)
    ∧ (s.stepDue d.val 6 = false → exec (.d6 d failed kat a) s = .next s))
  ∧ ∀ (s : State) (d : DieId),
    let k := s.sys.clk.get d.val
    (s.stepDue d.val 1 = true → ∃ t p : State, exec (.d1 d true) s = .next t.nextReset ∧ exec (.d1 d false) s = .next p.nextReset
      ∧ t.sys.clk.get d.val = { k with step := 1, stepAge := 0 } ∧ (t.sys.sec.get d.val).keyOk = s.udsOk d.val
      ∧ (∀ i, i < 16 → (t.unitRec d.val i).st = if s.scFused d.val i then .fused else (s.unitRec d.val i).st)
      ∧ t.mem = s.mem ∧ t.comp = s.comp ∧ p.dieFencedB d.val = true)
    ∧ (s.stepDue d.val 2 = true → ∃ t p : State, exec (.d2 d true) s = .next t.nextReset ∧ exec (.d2 d false) s = .next p.nextReset
      ∧ (s.sys.warden.pulse = true →
        t.sys.clk.get d.val = { k with step := 2, stepAge := 0, locked := true, tick := 0, wraps := 0 } ∧ t.mem = s.mem ∧ t.comp = s.comp)
      ∧ (s.sys.warden.pulse = false → t.dieFencedB d.val = true) ∧ p.dieFencedB d.val = true)
    ∧ (s.stepDue d.val 3 = true → ∃ t p : State, exec (.d3 d true) s = .next t.nextReset ∧ exec (.d3 d false) s = .next p.nextReset
      ∧ t = { s with sys := { s.sys with clk := s.sys.clk.set d.val { k with step := 3, stepAge := 0, trained := k.trained ++ [0] } } }
      ∧ ((s.unitRec d.val 28).st = .inService → p.dieFencedB d.val = true ∧ (p.unitRec d.val 28).st = .fenced
        ∧ (p.unitRec d.val 28).cause = Code.hbmTrainFail.val))
    ∧ (s.stepDue d.val 4 = true → s.sys.warden.running = true →
      (∀ a b, s.bootImage d.val .steward = some a → s.bootImage d.val .runtime = some b → ∃ t : State, exec (.d4 d) s = .next t.nextReset
        ∧ (t.sys.sec.get d.val).steward = some a ∧ (t.sys.sec.get d.val).runtime = some b ∧ (t.sys.sec.get d.val).lc = some s.sys.warden.lc
        ∧ (t.sys.clk.get d.val).step = 4 ∧ t.dieFencedB d.val = false ∧ t.ras = s.ras
        ∧ (let at_ := sysBase d.val + 0x18000000
           let bs := (s.sys.warden.images.get (imageKey .steward a.copy)).take 0x7E00000
           s.mem.mem.wf = true → (∀ i, i < bs.length → readCell t.mem.mem.cells (at_ + i) = bs.getD i 0)
           ∧ (∀ x, (x < at_ ∨ at_ + bs.length ≤ x) → readCell t.mem.mem.cells x = readCell s.mem.mem.cells x)))
      ∧ ((s.bootImage d.val .steward = none ∨ s.bootImage d.val .runtime = none) → ∃ t : State, exec (.d4 d) s = .next t.nextReset
        ∧ t.dieFencedB d.val = true))
    ∧ (s.stepDue d.val 5 = true → ∃ t : State, exec (.d5 d true true true) s = .next t.nextReset
      ∧ t = { s with sys := { s.sys with clk := s.sys.clk.set d.val { k with step := 5, stepAge := 0, trained := k.trained ++ [1, 2, 3] } } }
      ∧ ∀ a b c, ∃ p : State, exec (.d5 d a b c) s = .next p.nextReset ∧ p.dieFencedB d.val = false
        ∧ ∀ i ok, (i, ok) ∈ [(1, a), (2, b), (3, c)] → (s.unitRec d.val (28 + i)).st = .inService →
            (p.unitRec d.val (28 + i)).st = (if ok then .inService else .fenced)
            ∧ (ok = false → (p.unitRec d.val (28 + i)).cause = Code.hbmTrainFail.val))
    ∧ (s.stepDue d.val 6 = true → ∀ (failed : List UnitNo) (kat : List (Fin 16)), ∃ t p : State,
      exec (.d6 d failed kat true) s = .next t.nextReset ∧ exec (.d6 d failed kat false) s = .next p.nextReset ∧ p.dieFencedB d.val = true
      ∧ (∀ u ∈ kat, (s.unitRec d.val u.val).st = .inService → (t.unitRec d.val u.val).st = .fenced
          ∧ (t.unitRec d.val u.val).cause = Code.zcgKatFail.val)
      ∧ (∀ u ∈ failed, u.val < 32 → (s.unitRec d.val u.val).st = .inService → (t.unitRec d.val u.val).st = .fenced)
      ∧ ((∀ u ∈ failed, u.val ≠ 28) → (t.sys.clk.get d.val).step = 6 ∧ t.dieFencedB d.val = false
        ∧ (∀ u, u < 32 → (∀ x ∈ failed, x.val ≠ u) → (∀ x ∈ kat, x.val ≠ u) → t.unitRec d.val u = s.unitRec d.val u)
        ∧ ∀ south, s.appF .secSpindlectl d.val (b2n south) 0 0 0 = 1 → (s.comp.spindles.get (spindleKey d.val south)).st = .off →
            (t.comp.spindles.get (spindleKey d.val south)).st = .startup))

/-- D7 to D10 and BRING_UP_TIMEOUT: D7 clears every memory of the die but system memory; at D8 a link trains once both dies have reached it,
with 32 lanes, else with a half, and is DOWN where neither trains or where the other die or an end is out of service; at D9 the first die of
a tray bring-up is the reference, or a lower one that reaches D9 in its tick, and the reference sends the later ones its alignment word; a
die reset alone has the word of the lowest aligned die with a link to it; at D10 Warden's OFFLINE units are OFFLINE, what it held for the die
is applied, the die is ready, and RESETS advances, unless HC0 went OFFLINE; a die not ready in 1,250 ms is fenced (R363, R372, R595, R596,
R598 to R601). A step that is not the die's next, D10 with an alignment word under way, and a timeout before its time change nothing. -/
def Obligations.DieStepsToReady : Prop :=
  (∀ (s : State) (d : DieId) (full lo hi : BitVec 3),
    (s.stepDue d.val 7 = false → exec (.d7 d) s = .next s) ∧ (s.stepDue d.val 8 = false → exec (.d8 d full lo hi) s = .next s)
    ∧ (s.stepDue d.val 9 = false → exec (.d9 d) s = .next s)
    ∧ ((s.stepDue d.val 10 = false ∨ s.alignComing d.val = true) → exec (.d10 d) s = .next s)
    ∧ ((s.sys.warden.running = false ∨ (s.sys.clk.get d.val).supplied = false ∨ (s.sys.clk.get d.val).ready = true
        ∨ s.dieFencedB d.val = true ∨ (s.sys.clk.get d.val).age < 312500000) → exec (.bringUpTimeout d) s = .next s))
  ∧ ∀ (s : State) (d : DieId),
    let k := s.sys.clk.get d.val
    (s.stepDue d.val 7 = true → ∃ t : State, exec (.d7 d) s = .next t.nextReset ∧ (t.sys.clk.get d.val).step = 7
      ∧ (∀ a u, u < 32 → addrUnit a = some (d.val, u) → sysDie a = none → readCell t.mem.mem.cells a = 0)
      ∧ (∀ a e u, addrUnit a = some (e, u) → (e ≠ d.val ∨ (sysDie a).isSome = true) → s.mem.mem.wf = true →
          readCell t.mem.mem.cells a = readCell s.mem.mem.cells a)
      ∧ (t.sys.sec.get d.val).dirtyUnits = [] ∧ (t.sys.sec.get d.val).dirtyFrames = [] ∧ t.req = s.req ∧ t.io = s.io)
    ∧ (s.stepDue d.val 8 = true → ∀ (full lo hi : BitVec 3), ∃ t : State, exec (.d8 d full lo hi) s = .next t.nextReset
      ∧ (t.sys.clk.get d.val).step = 8 ∧ t.mem = s.mem ∧ t.comp = s.comp ∧ t.req = s.req
      ∧ ∀ e : DieId, e ≠ d →
        let j := linkIndex d.val e.val
        let u := linkUnit d.val e.val
        let l := t.link.links.get (linkKey d.val e.val)
        let ok := !s.dieFencedB e.val && (s.sys.clk.get e.val).supplied && s.linkEndOk d.val u && s.linkEndOk e.val u
        let there := decide (8 ≤ (s.sys.clk.get e.val).step)
        let wide := bitOf full.toNat (j - 1) && !s.halfOnly d.val e.val
        let half := bitOf lo.toNat (j - 1) || bitOf hi.toNat (j - 1)
        let serves := (t.unitRec d.val u).st = .inService ∧ (t.unitRec e.val u).st = .inService
        let down := l.st = .down ∧ ((s.unitRec d.val u).st = .inService → (t.unitRec d.val u).st = .fenced
          ∧ (t.unitRec d.val u).cause = Code.linkDown.val)
        (ok = false → down) ∧ (ok = true → there = false → l.st = .training)
        ∧ (ok = true → there = true → wide = true → l.st = .up32 ∧ serves)
        ∧ (ok = true → there = true → wide = false → half = true → l.st = .up16 ∧ serves
          ∧ (bitOf hi.toNat (j - 1) = false → l.half = false) ∧ (bitOf lo.toNat (j - 1) = false → l.half = true))
        ∧ (ok = true → there = true → wide = false → half = false → down))
    ∧ (s.stepDue d.val 9 = true →
      let first (r : DieId) : Prop := d < r ∧ (s.sys.clk.get r.val).stepAge = 0 ∧ (s.sys.clk.get r.val).step = 9
      (s.sys.trayBring = true → s.sys.refDie = none → ∃ t : State, exec (.d9 d) s = .next t.nextReset ∧ t.sys.refDie = some d.val
        ∧ t.sys.clk.get d.val = { k with step := 9, stepAge := 0, aligned := true } ∧ t.link.dirs = s.link.dirs)
      ∧ (∀ r : DieId, s.sys.trayBring = true → s.sys.refDie = some r.val → first r →
        ∃ t : State, exec (.d9 d) s = .next t.nextReset ∧ t.sys.refDie = some d.val ∧ (t.sys.clk.get d.val).aligned = true
          ∧ (t.sys.clk.get r.val).aligned = false ∧ (t.sys.clk.get d.val).tick = k.tick ∧ t.mem = s.mem ∧ t.comp = s.comp)
      ∧ (∀ r : DieId, r ≠ d → (s.sys.trayBring = true ∧ s.sys.refDie = some r.val ∧ ¬first r
          ∨ s.sys.trayBring = false ∧ s.referenceOf d.val = some r.val) →
        ∃ t : State, exec (.d9 d) s = .next t.nextReset ∧ t.sys.clk.get d.val = { k with step := 9, stepAge := 0 }
          ∧ (t.link.dirs.get (dirKey r.val d.val)).words = (s.link.dirs.get (dirKey r.val d.val)).words ++
            (if s.linkUp r.val d.val = true ∧ s.dieFencedB r.val = false then
              [⟨.align, (s.sys.clk.get r.val).tick, BitVec.ofNat 64 (s.tickAfter r.val (s.linkLag r.val d.val)), false⟩] else [])
          ∧ t.mem = s.mem ∧ t.comp = s.comp)
      ∧ (s.sys.trayBring = false → s.referenceOf d.val = none → ∃ t : State, exec (.d9 d) s = .next t.nextReset
          ∧ t.sys.clk.get d.val = { k with step := 9, stepAge := 0 } ∧ t.link.dirs = s.link.dirs ∧ t.mem = s.mem ∧ t.comp = s.comp))
    ∧ (s.stepDue d.val 10 = true → s.alignComing d.val = false → ∃ t : State, exec (.d10 d) s = .next t.nextReset ∧ t.sys.fuses = s.sys.fuses
      ∧ (s.sys.warden.running = false → t.sys.clk.get d.val
          = { k with step := 10, stepAge := 0, ready := true, resets := (k.resets + 1) % 256 })
      ∧ (s.sys.warden.running = true →
        let keptOff (u : Nat) : Prop := s.sys.warden.mgtOffline.contains (unitKey d.val u) = true
        t.sys.warden.held = s.sys.warden.held.filter (fun h => h.die != d.val)
        ∧ (keptOff 28 → (s.unitRec d.val 28).st = .inService → t.dieFencedB d.val = true)
        ∧ (¬keptOff 28 → (∀ h ∈ s.sys.warden.held, h.die = d.val → h.unit = 28 → h.online = true) →
          (t.sys.clk.get d.val).ready = true ∧ t.dieUp d.val = true ∧ (t.sys.clk.get d.val).resets = (k.resets + 1) % 256
          ∧ (∀ u, u < 35 → keptOff u → (s.unitRec d.val u).st = .inService → (t.unitRec d.val u).st = .offline)
          ∧ ∀ u, u < 35 → t.sys.warden.cache.get (unitKey d.val u) = some (t.unitReport d.val u))))
    ∧ (s.sys.warden.running = true → k.supplied = true → k.ready = false → s.dieFencedB d.val = false → 312500000 ≤ k.age →
      ∃ t : State, exec (.bringUpTimeout d) s = .next t.nextReset ∧ t.dieFencedB d.val = true ∧ (t.sys.clk.get d.val).ready = false
        ∧ t.sys.fuses = s.sys.fuses)
end

