-- ==== Sys2Proof/Laws/State.lean ====
section
/-! SUPPORT. The parts of the state: each field after each of the named updates, by `rfl`, so that no later proof unfolds one. -/

namespace Sys2Proof.Laws

open Sys2Proof.Machine

/-! ### modClk -/

@[simp] theorem modClk_pending (s : State) (n : Nat) (f : DieClk → DieClk) : (s.modClk n f).pending = s.pending := rfl
@[simp] theorem modClk_free (s : State) (n : Nat) (f : DieClk → DieClk) : (s.modClk n f).free = s.free := rfl
@[simp] theorem modClk_clk (s : State) (n : Nat) (f : DieClk → DieClk) : (s.modClk n f).sys.clk = s.sys.clk.modify n f := rfl
@[simp] theorem modClk_regs (s : State) (n : Nat) (f : DieClk → DieClk) : (s.modClk n f).sys.regs = s.sys.regs := rfl
@[simp] theorem modClk_sec (s : State) (n : Nat) (f : DieClk → DieClk) : (s.modClk n f).sys.sec = s.sys.sec := rfl
@[simp] theorem modClk_trayBring (s : State) (n : Nat) (f : DieClk → DieClk) : (s.modClk n f).sys.trayBring = s.sys.trayBring := rfl
@[simp] theorem modClk_refDie (s : State) (n : Nat) (f : DieClk → DieClk) : (s.modClk n f).sys.refDie = s.sys.refDie := rfl
@[simp] theorem modClk_spdm (s : State) (n : Nat) (f : DieClk → DieClk) : (s.modClk n f).sys.spdm = s.sys.spdm := rfl
@[simp] theorem modClk_fuses (s : State) (n : Nat) (f : DieClk → DieClk) : (s.modClk n f).sys.fuses = s.sys.fuses := rfl
@[simp] theorem modClk_warden (s : State) (n : Nat) (f : DieClk → DieClk) : (s.modClk n f).sys.warden = s.sys.warden := rfl
@[simp] theorem modClk_power (s : State) (n : Nat) (f : DieClk → DieClk) : (s.modClk n f).sys.power = s.sys.power := rfl
@[simp] theorem modClk_ras (s : State) (n : Nat) (f : DieClk → DieClk) : (s.modClk n f).ras = s.ras := rfl
@[simp] theorem modClk_mem (s : State) (n : Nat) (f : DieClk → DieClk) : (s.modClk n f).mem = s.mem := rfl
@[simp] theorem modClk_comp (s : State) (n : Nat) (f : DieClk → DieClk) : (s.modClk n f).comp = s.comp := rfl
@[simp] theorem modClk_net (s : State) (n : Nat) (f : DieClk → DieClk) : (s.modClk n f).net = s.net := rfl
@[simp] theorem modClk_link (s : State) (n : Nat) (f : DieClk → DieClk) : (s.modClk n f).link = s.link := rfl
@[simp] theorem modClk_req (s : State) (n : Nat) (f : DieClk → DieClk) : (s.modClk n f).req = s.req := rfl
@[simp] theorem modClk_io (s : State) (n : Nat) (f : DieClk → DieClk) : (s.modClk n f).io = s.io := rfl

/-! ### modSec -/

@[simp] theorem modSec_pending (s : State) (n : Nat) (f : DieSec → DieSec) : (s.modSec n f).pending = s.pending := rfl
@[simp] theorem modSec_free (s : State) (n : Nat) (f : DieSec → DieSec) : (s.modSec n f).free = s.free := rfl
@[simp] theorem modSec_clk (s : State) (n : Nat) (f : DieSec → DieSec) : (s.modSec n f).sys.clk = s.sys.clk := rfl
@[simp] theorem modSec_regs (s : State) (n : Nat) (f : DieSec → DieSec) : (s.modSec n f).sys.regs = s.sys.regs := rfl
@[simp] theorem modSec_sec (s : State) (n : Nat) (f : DieSec → DieSec) : (s.modSec n f).sys.sec = s.sys.sec.modify n f := rfl
@[simp] theorem modSec_trayBring (s : State) (n : Nat) (f : DieSec → DieSec) : (s.modSec n f).sys.trayBring = s.sys.trayBring := rfl
@[simp] theorem modSec_refDie (s : State) (n : Nat) (f : DieSec → DieSec) : (s.modSec n f).sys.refDie = s.sys.refDie := rfl
@[simp] theorem modSec_spdm (s : State) (n : Nat) (f : DieSec → DieSec) : (s.modSec n f).sys.spdm = s.sys.spdm := rfl
@[simp] theorem modSec_fuses (s : State) (n : Nat) (f : DieSec → DieSec) : (s.modSec n f).sys.fuses = s.sys.fuses := rfl
@[simp] theorem modSec_warden (s : State) (n : Nat) (f : DieSec → DieSec) : (s.modSec n f).sys.warden = s.sys.warden := rfl
@[simp] theorem modSec_power (s : State) (n : Nat) (f : DieSec → DieSec) : (s.modSec n f).sys.power = s.sys.power := rfl
@[simp] theorem modSec_ras (s : State) (n : Nat) (f : DieSec → DieSec) : (s.modSec n f).ras = s.ras := rfl
@[simp] theorem modSec_mem (s : State) (n : Nat) (f : DieSec → DieSec) : (s.modSec n f).mem = s.mem := rfl
@[simp] theorem modSec_comp (s : State) (n : Nat) (f : DieSec → DieSec) : (s.modSec n f).comp = s.comp := rfl
@[simp] theorem modSec_net (s : State) (n : Nat) (f : DieSec → DieSec) : (s.modSec n f).net = s.net := rfl
@[simp] theorem modSec_link (s : State) (n : Nat) (f : DieSec → DieSec) : (s.modSec n f).link = s.link := rfl
@[simp] theorem modSec_req (s : State) (n : Nat) (f : DieSec → DieSec) : (s.modSec n f).req = s.req := rfl
@[simp] theorem modSec_io (s : State) (n : Nat) (f : DieSec → DieSec) : (s.modSec n f).io = s.io := rfl

/-! ### modPower -/

@[simp] theorem modPower_pending (s : State) (n : Nat) (f : DiePower → DiePower) : (s.modPower n f).pending = s.pending := rfl
@[simp] theorem modPower_free (s : State) (n : Nat) (f : DiePower → DiePower) : (s.modPower n f).free = s.free := rfl
@[simp] theorem modPower_clk (s : State) (n : Nat) (f : DiePower → DiePower) : (s.modPower n f).sys.clk = s.sys.clk := rfl
@[simp] theorem modPower_regs (s : State) (n : Nat) (f : DiePower → DiePower) : (s.modPower n f).sys.regs = s.sys.regs := rfl
@[simp] theorem modPower_sec (s : State) (n : Nat) (f : DiePower → DiePower) : (s.modPower n f).sys.sec = s.sys.sec := rfl
@[simp] theorem modPower_trayBring (s : State) (n : Nat) (f : DiePower → DiePower) : (s.modPower n f).sys.trayBring = s.sys.trayBring := rfl
@[simp] theorem modPower_refDie (s : State) (n : Nat) (f : DiePower → DiePower) : (s.modPower n f).sys.refDie = s.sys.refDie := rfl
@[simp] theorem modPower_spdm (s : State) (n : Nat) (f : DiePower → DiePower) : (s.modPower n f).sys.spdm = s.sys.spdm := rfl
@[simp] theorem modPower_fuses (s : State) (n : Nat) (f : DiePower → DiePower) : (s.modPower n f).sys.fuses = s.sys.fuses := rfl
@[simp] theorem modPower_warden (s : State) (n : Nat) (f : DiePower → DiePower) : (s.modPower n f).sys.warden = s.sys.warden := rfl
@[simp] theorem modPower_power (s : State) (n : Nat) (f : DiePower → DiePower) : (s.modPower n f).sys.power = s.sys.power.modify n f := rfl
@[simp] theorem modPower_ras (s : State) (n : Nat) (f : DiePower → DiePower) : (s.modPower n f).ras = s.ras := rfl
@[simp] theorem modPower_mem (s : State) (n : Nat) (f : DiePower → DiePower) : (s.modPower n f).mem = s.mem := rfl
@[simp] theorem modPower_comp (s : State) (n : Nat) (f : DiePower → DiePower) : (s.modPower n f).comp = s.comp := rfl
@[simp] theorem modPower_net (s : State) (n : Nat) (f : DiePower → DiePower) : (s.modPower n f).net = s.net := rfl
@[simp] theorem modPower_link (s : State) (n : Nat) (f : DiePower → DiePower) : (s.modPower n f).link = s.link := rfl
@[simp] theorem modPower_req (s : State) (n : Nat) (f : DiePower → DiePower) : (s.modPower n f).req = s.req := rfl
@[simp] theorem modPower_io (s : State) (n : Nat) (f : DiePower → DiePower) : (s.modPower n f).io = s.io := rfl

/-! ### modWarden -/

@[simp] theorem modWarden_pending (s : State) (f : Warden → Warden) : (s.modWarden f).pending = s.pending := rfl
@[simp] theorem modWarden_free (s : State) (f : Warden → Warden) : (s.modWarden f).free = s.free := rfl
@[simp] theorem modWarden_clk (s : State) (f : Warden → Warden) : (s.modWarden f).sys.clk = s.sys.clk := rfl
@[simp] theorem modWarden_regs (s : State) (f : Warden → Warden) : (s.modWarden f).sys.regs = s.sys.regs := rfl
@[simp] theorem modWarden_sec (s : State) (f : Warden → Warden) : (s.modWarden f).sys.sec = s.sys.sec := rfl
@[simp] theorem modWarden_trayBring (s : State) (f : Warden → Warden) : (s.modWarden f).sys.trayBring = s.sys.trayBring := rfl
@[simp] theorem modWarden_refDie (s : State) (f : Warden → Warden) : (s.modWarden f).sys.refDie = s.sys.refDie := rfl
@[simp] theorem modWarden_spdm (s : State) (f : Warden → Warden) : (s.modWarden f).sys.spdm = s.sys.spdm := rfl
@[simp] theorem modWarden_fuses (s : State) (f : Warden → Warden) : (s.modWarden f).sys.fuses = s.sys.fuses := rfl
@[simp] theorem modWarden_warden (s : State) (f : Warden → Warden) : (s.modWarden f).sys.warden = f s.sys.warden := rfl
@[simp] theorem modWarden_power (s : State) (f : Warden → Warden) : (s.modWarden f).sys.power = s.sys.power := rfl
@[simp] theorem modWarden_ras (s : State) (f : Warden → Warden) : (s.modWarden f).ras = s.ras := rfl
@[simp] theorem modWarden_mem (s : State) (f : Warden → Warden) : (s.modWarden f).mem = s.mem := rfl
@[simp] theorem modWarden_comp (s : State) (f : Warden → Warden) : (s.modWarden f).comp = s.comp := rfl
@[simp] theorem modWarden_net (s : State) (f : Warden → Warden) : (s.modWarden f).net = s.net := rfl
@[simp] theorem modWarden_link (s : State) (f : Warden → Warden) : (s.modWarden f).link = s.link := rfl
@[simp] theorem modWarden_req (s : State) (f : Warden → Warden) : (s.modWarden f).req = s.req := rfl
@[simp] theorem modWarden_io (s : State) (f : Warden → Warden) : (s.modWarden f).io = s.io := rfl

/-! ### modFuses -/

@[simp] theorem modFuses_pending (s : State) (f : Fuses → Fuses) : (s.modFuses f).pending = s.pending := rfl
@[simp] theorem modFuses_free (s : State) (f : Fuses → Fuses) : (s.modFuses f).free = s.free := rfl
@[simp] theorem modFuses_clk (s : State) (f : Fuses → Fuses) : (s.modFuses f).sys.clk = s.sys.clk := rfl
@[simp] theorem modFuses_regs (s : State) (f : Fuses → Fuses) : (s.modFuses f).sys.regs = s.sys.regs := rfl
@[simp] theorem modFuses_sec (s : State) (f : Fuses → Fuses) : (s.modFuses f).sys.sec = s.sys.sec := rfl
@[simp] theorem modFuses_trayBring (s : State) (f : Fuses → Fuses) : (s.modFuses f).sys.trayBring = s.sys.trayBring := rfl
@[simp] theorem modFuses_refDie (s : State) (f : Fuses → Fuses) : (s.modFuses f).sys.refDie = s.sys.refDie := rfl
@[simp] theorem modFuses_spdm (s : State) (f : Fuses → Fuses) : (s.modFuses f).sys.spdm = s.sys.spdm := rfl
@[simp] theorem modFuses_fuses (s : State) (f : Fuses → Fuses) : (s.modFuses f).sys.fuses = f s.sys.fuses := rfl
@[simp] theorem modFuses_warden (s : State) (f : Fuses → Fuses) : (s.modFuses f).sys.warden = s.sys.warden := rfl
@[simp] theorem modFuses_power (s : State) (f : Fuses → Fuses) : (s.modFuses f).sys.power = s.sys.power := rfl
@[simp] theorem modFuses_ras (s : State) (f : Fuses → Fuses) : (s.modFuses f).ras = s.ras := rfl
@[simp] theorem modFuses_mem (s : State) (f : Fuses → Fuses) : (s.modFuses f).mem = s.mem := rfl
@[simp] theorem modFuses_comp (s : State) (f : Fuses → Fuses) : (s.modFuses f).comp = s.comp := rfl
@[simp] theorem modFuses_net (s : State) (f : Fuses → Fuses) : (s.modFuses f).net = s.net := rfl
@[simp] theorem modFuses_link (s : State) (f : Fuses → Fuses) : (s.modFuses f).link = s.link := rfl
@[simp] theorem modFuses_req (s : State) (f : Fuses → Fuses) : (s.modFuses f).req = s.req := rfl
@[simp] theorem modFuses_io (s : State) (f : Fuses → Fuses) : (s.modFuses f).io = s.io := rfl

/-! ### modRegs -/

@[simp] theorem modRegs_pending (s : State) (f : Regs → Regs) : (s.modRegs f).pending = s.pending := rfl
@[simp] theorem modRegs_free (s : State) (f : Regs → Regs) : (s.modRegs f).free = s.free := rfl
@[simp] theorem modRegs_clk (s : State) (f : Regs → Regs) : (s.modRegs f).sys.clk = s.sys.clk := rfl
@[simp] theorem modRegs_regs (s : State) (f : Regs → Regs) : (s.modRegs f).sys.regs = f s.sys.regs := rfl
@[simp] theorem modRegs_sec (s : State) (f : Regs → Regs) : (s.modRegs f).sys.sec = s.sys.sec := rfl
@[simp] theorem modRegs_trayBring (s : State) (f : Regs → Regs) : (s.modRegs f).sys.trayBring = s.sys.trayBring := rfl
@[simp] theorem modRegs_refDie (s : State) (f : Regs → Regs) : (s.modRegs f).sys.refDie = s.sys.refDie := rfl
@[simp] theorem modRegs_spdm (s : State) (f : Regs → Regs) : (s.modRegs f).sys.spdm = s.sys.spdm := rfl
@[simp] theorem modRegs_fuses (s : State) (f : Regs → Regs) : (s.modRegs f).sys.fuses = s.sys.fuses := rfl
@[simp] theorem modRegs_warden (s : State) (f : Regs → Regs) : (s.modRegs f).sys.warden = s.sys.warden := rfl
@[simp] theorem modRegs_power (s : State) (f : Regs → Regs) : (s.modRegs f).sys.power = s.sys.power := rfl
@[simp] theorem modRegs_ras (s : State) (f : Regs → Regs) : (s.modRegs f).ras = s.ras := rfl
@[simp] theorem modRegs_mem (s : State) (f : Regs → Regs) : (s.modRegs f).mem = s.mem := rfl
@[simp] theorem modRegs_comp (s : State) (f : Regs → Regs) : (s.modRegs f).comp = s.comp := rfl
@[simp] theorem modRegs_net (s : State) (f : Regs → Regs) : (s.modRegs f).net = s.net := rfl
@[simp] theorem modRegs_link (s : State) (f : Regs → Regs) : (s.modRegs f).link = s.link := rfl
@[simp] theorem modRegs_req (s : State) (f : Regs → Regs) : (s.modRegs f).req = s.req := rfl
@[simp] theorem modRegs_io (s : State) (f : Regs → Regs) : (s.modRegs f).io = s.io := rfl

/-! ### modRas -/

@[simp] theorem modRas_pending (s : State) (f : Ras → Ras) : (s.modRas f).pending = s.pending := rfl
@[simp] theorem modRas_free (s : State) (f : Ras → Ras) : (s.modRas f).free = s.free := rfl
@[simp] theorem modRas_sys (s : State) (f : Ras → Ras) : (s.modRas f).sys = s.sys := rfl
@[simp] theorem modRas_ras (s : State) (f : Ras → Ras) : (s.modRas f).ras = f s.ras := rfl
@[simp] theorem modRas_mem (s : State) (f : Ras → Ras) : (s.modRas f).mem = s.mem := rfl
@[simp] theorem modRas_comp (s : State) (f : Ras → Ras) : (s.modRas f).comp = s.comp := rfl
@[simp] theorem modRas_net (s : State) (f : Ras → Ras) : (s.modRas f).net = s.net := rfl
@[simp] theorem modRas_link (s : State) (f : Ras → Ras) : (s.modRas f).link = s.link := rfl
@[simp] theorem modRas_req (s : State) (f : Ras → Ras) : (s.modRas f).req = s.req := rfl
@[simp] theorem modRas_io (s : State) (f : Ras → Ras) : (s.modRas f).io = s.io := rfl

/-! ### modNet -/

@[simp] theorem modNet_pending (s : State) (f : Net → Net) : (s.modNet f).pending = s.pending := rfl
@[simp] theorem modNet_free (s : State) (f : Net → Net) : (s.modNet f).free = s.free := rfl
@[simp] theorem modNet_sys (s : State) (f : Net → Net) : (s.modNet f).sys = s.sys := rfl
@[simp] theorem modNet_ras (s : State) (f : Net → Net) : (s.modNet f).ras = s.ras := rfl
@[simp] theorem modNet_mem (s : State) (f : Net → Net) : (s.modNet f).mem = s.mem := rfl
@[simp] theorem modNet_comp (s : State) (f : Net → Net) : (s.modNet f).comp = s.comp := rfl
@[simp] theorem modNet_net (s : State) (f : Net → Net) : (s.modNet f).net = f s.net := rfl
@[simp] theorem modNet_link (s : State) (f : Net → Net) : (s.modNet f).link = s.link := rfl
@[simp] theorem modNet_req (s : State) (f : Net → Net) : (s.modNet f).req = s.req := rfl
@[simp] theorem modNet_io (s : State) (f : Net → Net) : (s.modNet f).io = s.io := rfl

/-! ### modMem -/

@[simp] theorem modMem_pending (s : State) (f : MemSys → MemSys) : (s.modMem f).pending = s.pending := rfl
@[simp] theorem modMem_free (s : State) (f : MemSys → MemSys) : (s.modMem f).free = s.free := rfl
@[simp] theorem modMem_sys (s : State) (f : MemSys → MemSys) : (s.modMem f).sys = s.sys := rfl
@[simp] theorem modMem_ras (s : State) (f : MemSys → MemSys) : (s.modMem f).ras = s.ras := rfl
@[simp] theorem modMem_mem (s : State) (f : MemSys → MemSys) : (s.modMem f).mem = f s.mem := rfl
@[simp] theorem modMem_comp (s : State) (f : MemSys → MemSys) : (s.modMem f).comp = s.comp := rfl
@[simp] theorem modMem_net (s : State) (f : MemSys → MemSys) : (s.modMem f).net = s.net := rfl
@[simp] theorem modMem_link (s : State) (f : MemSys → MemSys) : (s.modMem f).link = s.link := rfl
@[simp] theorem modMem_req (s : State) (f : MemSys → MemSys) : (s.modMem f).req = s.req := rfl
@[simp] theorem modMem_io (s : State) (f : MemSys → MemSys) : (s.modMem f).io = s.io := rfl

/-! ### modComp -/

@[simp] theorem modComp_pending (s : State) (f : Compute → Compute) : (s.modComp f).pending = s.pending := rfl
@[simp] theorem modComp_free (s : State) (f : Compute → Compute) : (s.modComp f).free = s.free := rfl
@[simp] theorem modComp_sys (s : State) (f : Compute → Compute) : (s.modComp f).sys = s.sys := rfl
@[simp] theorem modComp_ras (s : State) (f : Compute → Compute) : (s.modComp f).ras = s.ras := rfl
@[simp] theorem modComp_mem (s : State) (f : Compute → Compute) : (s.modComp f).mem = s.mem := rfl
@[simp] theorem modComp_comp (s : State) (f : Compute → Compute) : (s.modComp f).comp = f s.comp := rfl
@[simp] theorem modComp_net (s : State) (f : Compute → Compute) : (s.modComp f).net = s.net := rfl
@[simp] theorem modComp_link (s : State) (f : Compute → Compute) : (s.modComp f).link = s.link := rfl
@[simp] theorem modComp_req (s : State) (f : Compute → Compute) : (s.modComp f).req = s.req := rfl
@[simp] theorem modComp_io (s : State) (f : Compute → Compute) : (s.modComp f).io = s.io := rfl

/-! ### modReqs -/

@[simp] theorem modReqs_pending (s : State) (f : ReqSys → ReqSys) : (s.modReqs f).pending = s.pending := rfl
@[simp] theorem modReqs_free (s : State) (f : ReqSys → ReqSys) : (s.modReqs f).free = s.free := rfl
@[simp] theorem modReqs_sys (s : State) (f : ReqSys → ReqSys) : (s.modReqs f).sys = s.sys := rfl
@[simp] theorem modReqs_ras (s : State) (f : ReqSys → ReqSys) : (s.modReqs f).ras = s.ras := rfl
@[simp] theorem modReqs_mem (s : State) (f : ReqSys → ReqSys) : (s.modReqs f).mem = s.mem := rfl
@[simp] theorem modReqs_comp (s : State) (f : ReqSys → ReqSys) : (s.modReqs f).comp = s.comp := rfl
@[simp] theorem modReqs_net (s : State) (f : ReqSys → ReqSys) : (s.modReqs f).net = s.net := rfl
@[simp] theorem modReqs_link (s : State) (f : ReqSys → ReqSys) : (s.modReqs f).link = s.link := rfl
@[simp] theorem modReqs_req (s : State) (f : ReqSys → ReqSys) : (s.modReqs f).req = f s.req := rfl
@[simp] theorem modReqs_io (s : State) (f : ReqSys → ReqSys) : (s.modReqs f).io = s.io := rfl

/-! ### modIo -/

@[simp] theorem modIo_pending (s : State) (f : IoSys → IoSys) : (s.modIo f).pending = s.pending := rfl
@[simp] theorem modIo_free (s : State) (f : IoSys → IoSys) : (s.modIo f).free = s.free := rfl
@[simp] theorem modIo_sys (s : State) (f : IoSys → IoSys) : (s.modIo f).sys = s.sys := rfl
@[simp] theorem modIo_ras (s : State) (f : IoSys → IoSys) : (s.modIo f).ras = s.ras := rfl
@[simp] theorem modIo_mem (s : State) (f : IoSys → IoSys) : (s.modIo f).mem = s.mem := rfl
@[simp] theorem modIo_comp (s : State) (f : IoSys → IoSys) : (s.modIo f).comp = s.comp := rfl
@[simp] theorem modIo_net (s : State) (f : IoSys → IoSys) : (s.modIo f).net = s.net := rfl
@[simp] theorem modIo_link (s : State) (f : IoSys → IoSys) : (s.modIo f).link = s.link := rfl
@[simp] theorem modIo_req (s : State) (f : IoSys → IoSys) : (s.modIo f).req = s.req := rfl
@[simp] theorem modIo_io (s : State) (f : IoSys → IoSys) : (s.modIo f).io = f s.io := rfl

/-! ### modCore -/

@[simp] theorem modCore_pending (s : State) (n : Nat) (f : Core → Core) : (s.modCore n f).pending = s.pending := rfl
@[simp] theorem modCore_free (s : State) (n : Nat) (f : Core → Core) : (s.modCore n f).free = s.free := rfl
@[simp] theorem modCore_sys (s : State) (n : Nat) (f : Core → Core) : (s.modCore n f).sys = s.sys := rfl
@[simp] theorem modCore_ras (s : State) (n : Nat) (f : Core → Core) : (s.modCore n f).ras = s.ras := rfl
@[simp] theorem modCore_mem (s : State) (n : Nat) (f : Core → Core) : (s.modCore n f).mem = s.mem := rfl
@[simp] theorem modCore_suas (s : State) (n : Nat) (f : Core → Core) : (s.modCore n f).comp.suas = s.comp.suas := rfl
@[simp] theorem modCore_models (s : State) (n : Nat) (f : Core → Core) : (s.modCore n f).comp.models = s.comp.models := rfl
@[simp] theorem modCore_denseIn (s : State) (n : Nat) (f : Core → Core) : (s.modCore n f).comp.denseIn = s.comp.denseIn := rfl
@[simp] theorem modCore_spindles (s : State) (n : Nat) (f : Core → Core) : (s.modCore n f).comp.spindles = s.comp.spindles := rfl
@[simp] theorem modCore_tes (s : State) (n : Nat) (f : Core → Core) : (s.modCore n f).comp.tes = s.comp.tes := rfl
@[simp] theorem modCore_rlus (s : State) (n : Nat) (f : Core → Core) : (s.modCore n f).comp.rlus = s.comp.rlus := rfl
@[simp] theorem modCore_copies (s : State) (n : Nat) (f : Core → Core) : (s.modCore n f).comp.copies = s.comp.copies := rfl
@[simp] theorem modCore_cores (s : State) (n : Nat) (f : Core → Core) : (s.modCore n f).comp.cores = s.comp.cores.modify n f := rfl
@[simp] theorem modCore_locks (s : State) (n : Nat) (f : Core → Core) : (s.modCore n f).comp.locks = s.comp.locks := rfl
@[simp] theorem modCore_net (s : State) (n : Nat) (f : Core → Core) : (s.modCore n f).net = s.net := rfl
@[simp] theorem modCore_link (s : State) (n : Nat) (f : Core → Core) : (s.modCore n f).link = s.link := rfl
@[simp] theorem modCore_req (s : State) (n : Nat) (f : Core → Core) : (s.modCore n f).req = s.req := rfl
@[simp] theorem modCore_io (s : State) (n : Nat) (f : Core → Core) : (s.modCore n f).io = s.io := rfl

/-! ### modTe -/

@[simp] theorem modTe_pending (s : State) (n : Nat) (f : Te → Te) : (s.modTe n f).pending = s.pending := rfl
@[simp] theorem modTe_free (s : State) (n : Nat) (f : Te → Te) : (s.modTe n f).free = s.free := rfl
@[simp] theorem modTe_sys (s : State) (n : Nat) (f : Te → Te) : (s.modTe n f).sys = s.sys := rfl
@[simp] theorem modTe_ras (s : State) (n : Nat) (f : Te → Te) : (s.modTe n f).ras = s.ras := rfl
@[simp] theorem modTe_mem (s : State) (n : Nat) (f : Te → Te) : (s.modTe n f).mem = s.mem := rfl
@[simp] theorem modTe_suas (s : State) (n : Nat) (f : Te → Te) : (s.modTe n f).comp.suas = s.comp.suas := rfl
@[simp] theorem modTe_models (s : State) (n : Nat) (f : Te → Te) : (s.modTe n f).comp.models = s.comp.models := rfl
@[simp] theorem modTe_denseIn (s : State) (n : Nat) (f : Te → Te) : (s.modTe n f).comp.denseIn = s.comp.denseIn := rfl
@[simp] theorem modTe_spindles (s : State) (n : Nat) (f : Te → Te) : (s.modTe n f).comp.spindles = s.comp.spindles := rfl
@[simp] theorem modTe_tes (s : State) (n : Nat) (f : Te → Te) : (s.modTe n f).comp.tes = s.comp.tes.modify n f := rfl
@[simp] theorem modTe_rlus (s : State) (n : Nat) (f : Te → Te) : (s.modTe n f).comp.rlus = s.comp.rlus := rfl
@[simp] theorem modTe_copies (s : State) (n : Nat) (f : Te → Te) : (s.modTe n f).comp.copies = s.comp.copies := rfl
@[simp] theorem modTe_cores (s : State) (n : Nat) (f : Te → Te) : (s.modTe n f).comp.cores = s.comp.cores := rfl
@[simp] theorem modTe_locks (s : State) (n : Nat) (f : Te → Te) : (s.modTe n f).comp.locks = s.comp.locks := rfl
@[simp] theorem modTe_net (s : State) (n : Nat) (f : Te → Te) : (s.modTe n f).net = s.net := rfl
@[simp] theorem modTe_link (s : State) (n : Nat) (f : Te → Te) : (s.modTe n f).link = s.link := rfl
@[simp] theorem modTe_req (s : State) (n : Nat) (f : Te → Te) : (s.modTe n f).req = s.req := rfl
@[simp] theorem modTe_io (s : State) (n : Nat) (f : Te → Te) : (s.modTe n f).io = s.io := rfl

/-! ### modRlu -/

@[simp] theorem modRlu_pending (s : State) (n : Nat) (f : Rlu → Rlu) : (s.modRlu n f).pending = s.pending := rfl
@[simp] theorem modRlu_free (s : State) (n : Nat) (f : Rlu → Rlu) : (s.modRlu n f).free = s.free := rfl
@[simp] theorem modRlu_sys (s : State) (n : Nat) (f : Rlu → Rlu) : (s.modRlu n f).sys = s.sys := rfl
@[simp] theorem modRlu_ras (s : State) (n : Nat) (f : Rlu → Rlu) : (s.modRlu n f).ras = s.ras := rfl
@[simp] theorem modRlu_mem (s : State) (n : Nat) (f : Rlu → Rlu) : (s.modRlu n f).mem = s.mem := rfl
@[simp] theorem modRlu_suas (s : State) (n : Nat) (f : Rlu → Rlu) : (s.modRlu n f).comp.suas = s.comp.suas := rfl
@[simp] theorem modRlu_models (s : State) (n : Nat) (f : Rlu → Rlu) : (s.modRlu n f).comp.models = s.comp.models := rfl
@[simp] theorem modRlu_denseIn (s : State) (n : Nat) (f : Rlu → Rlu) : (s.modRlu n f).comp.denseIn = s.comp.denseIn := rfl
@[simp] theorem modRlu_spindles (s : State) (n : Nat) (f : Rlu → Rlu) : (s.modRlu n f).comp.spindles = s.comp.spindles := rfl
@[simp] theorem modRlu_tes (s : State) (n : Nat) (f : Rlu → Rlu) : (s.modRlu n f).comp.tes = s.comp.tes := rfl
@[simp] theorem modRlu_rlus (s : State) (n : Nat) (f : Rlu → Rlu) : (s.modRlu n f).comp.rlus = s.comp.rlus.modify n f := rfl
@[simp] theorem modRlu_copies (s : State) (n : Nat) (f : Rlu → Rlu) : (s.modRlu n f).comp.copies = s.comp.copies := rfl
@[simp] theorem modRlu_cores (s : State) (n : Nat) (f : Rlu → Rlu) : (s.modRlu n f).comp.cores = s.comp.cores := rfl
@[simp] theorem modRlu_locks (s : State) (n : Nat) (f : Rlu → Rlu) : (s.modRlu n f).comp.locks = s.comp.locks := rfl
@[simp] theorem modRlu_net (s : State) (n : Nat) (f : Rlu → Rlu) : (s.modRlu n f).net = s.net := rfl
@[simp] theorem modRlu_link (s : State) (n : Nat) (f : Rlu → Rlu) : (s.modRlu n f).link = s.link := rfl
@[simp] theorem modRlu_req (s : State) (n : Nat) (f : Rlu → Rlu) : (s.modRlu n f).req = s.req := rfl
@[simp] theorem modRlu_io (s : State) (n : Nat) (f : Rlu → Rlu) : (s.modRlu n f).io = s.io := rfl

/-! ### modCopy -/

@[simp] theorem modCopy_pending (s : State) (n : Nat) (f : CopyEng → CopyEng) : (s.modCopy n f).pending = s.pending := rfl
@[simp] theorem modCopy_free (s : State) (n : Nat) (f : CopyEng → CopyEng) : (s.modCopy n f).free = s.free := rfl
@[simp] theorem modCopy_sys (s : State) (n : Nat) (f : CopyEng → CopyEng) : (s.modCopy n f).sys = s.sys := rfl
@[simp] theorem modCopy_ras (s : State) (n : Nat) (f : CopyEng → CopyEng) : (s.modCopy n f).ras = s.ras := rfl
@[simp] theorem modCopy_mem (s : State) (n : Nat) (f : CopyEng → CopyEng) : (s.modCopy n f).mem = s.mem := rfl
@[simp] theorem modCopy_suas (s : State) (n : Nat) (f : CopyEng → CopyEng) : (s.modCopy n f).comp.suas = s.comp.suas := rfl
@[simp] theorem modCopy_models (s : State) (n : Nat) (f : CopyEng → CopyEng) : (s.modCopy n f).comp.models = s.comp.models := rfl
@[simp] theorem modCopy_denseIn (s : State) (n : Nat) (f : CopyEng → CopyEng) : (s.modCopy n f).comp.denseIn = s.comp.denseIn := rfl
@[simp] theorem modCopy_spindles (s : State) (n : Nat) (f : CopyEng → CopyEng) : (s.modCopy n f).comp.spindles = s.comp.spindles := rfl
@[simp] theorem modCopy_tes (s : State) (n : Nat) (f : CopyEng → CopyEng) : (s.modCopy n f).comp.tes = s.comp.tes := rfl
@[simp] theorem modCopy_rlus (s : State) (n : Nat) (f : CopyEng → CopyEng) : (s.modCopy n f).comp.rlus = s.comp.rlus := rfl
@[simp] theorem modCopy_copies (s : State) (n : Nat) (f : CopyEng → CopyEng) : (s.modCopy n f).comp.copies = s.comp.copies.modify n f := rfl
@[simp] theorem modCopy_cores (s : State) (n : Nat) (f : CopyEng → CopyEng) : (s.modCopy n f).comp.cores = s.comp.cores := rfl
@[simp] theorem modCopy_locks (s : State) (n : Nat) (f : CopyEng → CopyEng) : (s.modCopy n f).comp.locks = s.comp.locks := rfl
@[simp] theorem modCopy_net (s : State) (n : Nat) (f : CopyEng → CopyEng) : (s.modCopy n f).net = s.net := rfl
@[simp] theorem modCopy_link (s : State) (n : Nat) (f : CopyEng → CopyEng) : (s.modCopy n f).link = s.link := rfl
@[simp] theorem modCopy_req (s : State) (n : Nat) (f : CopyEng → CopyEng) : (s.modCopy n f).req = s.req := rfl
@[simp] theorem modCopy_io (s : State) (n : Nat) (f : CopyEng → CopyEng) : (s.modCopy n f).io = s.io := rfl

/-! ### modSua -/

@[simp] theorem modSua_pending (s : State) (n : Nat) (f : Sua → Sua) : (s.modSua n f).pending = s.pending := rfl
@[simp] theorem modSua_free (s : State) (n : Nat) (f : Sua → Sua) : (s.modSua n f).free = s.free := rfl
@[simp] theorem modSua_sys (s : State) (n : Nat) (f : Sua → Sua) : (s.modSua n f).sys = s.sys := rfl
@[simp] theorem modSua_ras (s : State) (n : Nat) (f : Sua → Sua) : (s.modSua n f).ras = s.ras := rfl
@[simp] theorem modSua_mem (s : State) (n : Nat) (f : Sua → Sua) : (s.modSua n f).mem = s.mem := rfl
@[simp] theorem modSua_suas (s : State) (n : Nat) (f : Sua → Sua) : (s.modSua n f).comp.suas = s.comp.suas.modify n f := rfl
@[simp] theorem modSua_models (s : State) (n : Nat) (f : Sua → Sua) : (s.modSua n f).comp.models = s.comp.models := rfl
@[simp] theorem modSua_denseIn (s : State) (n : Nat) (f : Sua → Sua) : (s.modSua n f).comp.denseIn = s.comp.denseIn := rfl
@[simp] theorem modSua_spindles (s : State) (n : Nat) (f : Sua → Sua) : (s.modSua n f).comp.spindles = s.comp.spindles := rfl
@[simp] theorem modSua_tes (s : State) (n : Nat) (f : Sua → Sua) : (s.modSua n f).comp.tes = s.comp.tes := rfl
@[simp] theorem modSua_rlus (s : State) (n : Nat) (f : Sua → Sua) : (s.modSua n f).comp.rlus = s.comp.rlus := rfl
@[simp] theorem modSua_copies (s : State) (n : Nat) (f : Sua → Sua) : (s.modSua n f).comp.copies = s.comp.copies := rfl
@[simp] theorem modSua_cores (s : State) (n : Nat) (f : Sua → Sua) : (s.modSua n f).comp.cores = s.comp.cores := rfl
@[simp] theorem modSua_locks (s : State) (n : Nat) (f : Sua → Sua) : (s.modSua n f).comp.locks = s.comp.locks := rfl
@[simp] theorem modSua_net (s : State) (n : Nat) (f : Sua → Sua) : (s.modSua n f).net = s.net := rfl
@[simp] theorem modSua_link (s : State) (n : Nat) (f : Sua → Sua) : (s.modSua n f).link = s.link := rfl
@[simp] theorem modSua_req (s : State) (n : Nat) (f : Sua → Sua) : (s.modSua n f).req = s.req := rfl
@[simp] theorem modSua_io (s : State) (n : Nat) (f : Sua → Sua) : (s.modSua n f).io = s.io := rfl

/-! ### modSpindle -/

@[simp] theorem modSpindle_pending (s : State) (n : Nat) (f : Spindle → Spindle) : (s.modSpindle n f).pending = s.pending := rfl
@[simp] theorem modSpindle_free (s : State) (n : Nat) (f : Spindle → Spindle) : (s.modSpindle n f).free = s.free := rfl
@[simp] theorem modSpindle_sys (s : State) (n : Nat) (f : Spindle → Spindle) : (s.modSpindle n f).sys = s.sys := rfl
@[simp] theorem modSpindle_ras (s : State) (n : Nat) (f : Spindle → Spindle) : (s.modSpindle n f).ras = s.ras := rfl
@[simp] theorem modSpindle_mem (s : State) (n : Nat) (f : Spindle → Spindle) : (s.modSpindle n f).mem = s.mem := rfl
@[simp] theorem modSpindle_suas (s : State) (n : Nat) (f : Spindle → Spindle) : (s.modSpindle n f).comp.suas = s.comp.suas := rfl
@[simp] theorem modSpindle_models (s : State) (n : Nat) (f : Spindle → Spindle) : (s.modSpindle n f).comp.models = s.comp.models := rfl
@[simp] theorem modSpindle_denseIn (s : State) (n : Nat) (f : Spindle → Spindle) : (s.modSpindle n f).comp.denseIn = s.comp.denseIn := rfl
@[simp] theorem modSpindle_spindles (s : State) (n : Nat) (f : Spindle → Spindle) : (s.modSpindle n f).comp.spindles = s.comp.spindles.modify n f := rfl
@[simp] theorem modSpindle_tes (s : State) (n : Nat) (f : Spindle → Spindle) : (s.modSpindle n f).comp.tes = s.comp.tes := rfl
@[simp] theorem modSpindle_rlus (s : State) (n : Nat) (f : Spindle → Spindle) : (s.modSpindle n f).comp.rlus = s.comp.rlus := rfl
@[simp] theorem modSpindle_copies (s : State) (n : Nat) (f : Spindle → Spindle) : (s.modSpindle n f).comp.copies = s.comp.copies := rfl
@[simp] theorem modSpindle_cores (s : State) (n : Nat) (f : Spindle → Spindle) : (s.modSpindle n f).comp.cores = s.comp.cores := rfl
@[simp] theorem modSpindle_locks (s : State) (n : Nat) (f : Spindle → Spindle) : (s.modSpindle n f).comp.locks = s.comp.locks := rfl
@[simp] theorem modSpindle_net (s : State) (n : Nat) (f : Spindle → Spindle) : (s.modSpindle n f).net = s.net := rfl
@[simp] theorem modSpindle_link (s : State) (n : Nat) (f : Spindle → Spindle) : (s.modSpindle n f).link = s.link := rfl
@[simp] theorem modSpindle_req (s : State) (n : Nat) (f : Spindle → Spindle) : (s.modSpindle n f).req = s.req := rfl
@[simp] theorem modSpindle_io (s : State) (n : Nat) (f : Spindle → Spindle) : (s.modSpindle n f).io = s.io := rfl

/-! ### modLock -/

@[simp] theorem modLock_pending (s : State) (n : Nat) (f : Lock → Lock) : (s.modLock n f).pending = s.pending := rfl
@[simp] theorem modLock_free (s : State) (n : Nat) (f : Lock → Lock) : (s.modLock n f).free = s.free := rfl
@[simp] theorem modLock_sys (s : State) (n : Nat) (f : Lock → Lock) : (s.modLock n f).sys = s.sys := rfl
@[simp] theorem modLock_ras (s : State) (n : Nat) (f : Lock → Lock) : (s.modLock n f).ras = s.ras := rfl
@[simp] theorem modLock_mem (s : State) (n : Nat) (f : Lock → Lock) : (s.modLock n f).mem = s.mem := rfl
@[simp] theorem modLock_suas (s : State) (n : Nat) (f : Lock → Lock) : (s.modLock n f).comp.suas = s.comp.suas := rfl
@[simp] theorem modLock_models (s : State) (n : Nat) (f : Lock → Lock) : (s.modLock n f).comp.models = s.comp.models := rfl
@[simp] theorem modLock_denseIn (s : State) (n : Nat) (f : Lock → Lock) : (s.modLock n f).comp.denseIn = s.comp.denseIn := rfl
@[simp] theorem modLock_spindles (s : State) (n : Nat) (f : Lock → Lock) : (s.modLock n f).comp.spindles = s.comp.spindles := rfl
@[simp] theorem modLock_tes (s : State) (n : Nat) (f : Lock → Lock) : (s.modLock n f).comp.tes = s.comp.tes := rfl
@[simp] theorem modLock_rlus (s : State) (n : Nat) (f : Lock → Lock) : (s.modLock n f).comp.rlus = s.comp.rlus := rfl
@[simp] theorem modLock_copies (s : State) (n : Nat) (f : Lock → Lock) : (s.modLock n f).comp.copies = s.comp.copies := rfl
@[simp] theorem modLock_cores (s : State) (n : Nat) (f : Lock → Lock) : (s.modLock n f).comp.cores = s.comp.cores := rfl
@[simp] theorem modLock_locks (s : State) (n : Nat) (f : Lock → Lock) : (s.modLock n f).comp.locks = s.comp.locks.modify n f := rfl
@[simp] theorem modLock_net (s : State) (n : Nat) (f : Lock → Lock) : (s.modLock n f).net = s.net := rfl
@[simp] theorem modLock_link (s : State) (n : Nat) (f : Lock → Lock) : (s.modLock n f).link = s.link := rfl
@[simp] theorem modLock_req (s : State) (n : Nat) (f : Lock → Lock) : (s.modLock n f).req = s.req := rfl
@[simp] theorem modLock_io (s : State) (n : Nat) (f : Lock → Lock) : (s.modLock n f).io = s.io := rfl

/-! ### modModel -/

@[simp] theorem modModel_pending (s : State) (p n : Nat) (f : Model → Model) : (s.modModel p n f).pending = s.pending := rfl
@[simp] theorem modModel_free (s : State) (p n : Nat) (f : Model → Model) : (s.modModel p n f).free = s.free := rfl
@[simp] theorem modModel_sys (s : State) (p n : Nat) (f : Model → Model) : (s.modModel p n f).sys = s.sys := rfl
@[simp] theorem modModel_ras (s : State) (p n : Nat) (f : Model → Model) : (s.modModel p n f).ras = s.ras := rfl
@[simp] theorem modModel_mem (s : State) (p n : Nat) (f : Model → Model) : (s.modModel p n f).mem = s.mem := rfl
@[simp] theorem modModel_suas (s : State) (p n : Nat) (f : Model → Model) : (s.modModel p n f).comp.suas = s.comp.suas := rfl
@[simp] theorem modModel_models (s : State) (p n : Nat) (f : Model → Model) : (s.modModel p n f).comp.models = mapWhere (fun m => m.part == p && m.id == n) f s.comp.models := rfl
@[simp] theorem modModel_denseIn (s : State) (p n : Nat) (f : Model → Model) : (s.modModel p n f).comp.denseIn = s.comp.denseIn := rfl
@[simp] theorem modModel_spindles (s : State) (p n : Nat) (f : Model → Model) : (s.modModel p n f).comp.spindles = s.comp.spindles := rfl
@[simp] theorem modModel_tes (s : State) (p n : Nat) (f : Model → Model) : (s.modModel p n f).comp.tes = s.comp.tes := rfl
@[simp] theorem modModel_rlus (s : State) (p n : Nat) (f : Model → Model) : (s.modModel p n f).comp.rlus = s.comp.rlus := rfl
@[simp] theorem modModel_copies (s : State) (p n : Nat) (f : Model → Model) : (s.modModel p n f).comp.copies = s.comp.copies := rfl
@[simp] theorem modModel_cores (s : State) (p n : Nat) (f : Model → Model) : (s.modModel p n f).comp.cores = s.comp.cores := rfl
@[simp] theorem modModel_locks (s : State) (p n : Nat) (f : Model → Model) : (s.modModel p n f).comp.locks = s.comp.locks := rfl
@[simp] theorem modModel_net (s : State) (p n : Nat) (f : Model → Model) : (s.modModel p n f).net = s.net := rfl
@[simp] theorem modModel_link (s : State) (p n : Nat) (f : Model → Model) : (s.modModel p n f).link = s.link := rfl
@[simp] theorem modModel_req (s : State) (p n : Nat) (f : Model → Model) : (s.modModel p n f).req = s.req := rfl
@[simp] theorem modModel_io (s : State) (p n : Nat) (f : Model → Model) : (s.modModel p n f).io = s.io := rfl

/-! ### modReq -/

@[simp] theorem modReq_pending (s : State) (n : Nat) (f : Request → Request) : (s.modReq n f).pending = s.pending := rfl
@[simp] theorem modReq_free (s : State) (n : Nat) (f : Request → Request) : (s.modReq n f).free = s.free := rfl
@[simp] theorem modReq_sys (s : State) (n : Nat) (f : Request → Request) : (s.modReq n f).sys = s.sys := rfl
@[simp] theorem modReq_ras (s : State) (n : Nat) (f : Request → Request) : (s.modReq n f).ras = s.ras := rfl
@[simp] theorem modReq_mem (s : State) (n : Nat) (f : Request → Request) : (s.modReq n f).mem = s.mem := rfl
@[simp] theorem modReq_comp (s : State) (n : Nat) (f : Request → Request) : (s.modReq n f).comp = s.comp := rfl
@[simp] theorem modReq_net (s : State) (n : Nat) (f : Request → Request) : (s.modReq n f).net = s.net := rfl
@[simp] theorem modReq_link (s : State) (n : Nat) (f : Request → Request) : (s.modReq n f).link = s.link := rfl
@[simp] theorem modReq_rings (s : State) (n : Nat) (f : Request → Request) : (s.modReq n f).req.rings = s.req.rings := rfl
@[simp] theorem modReq_notices (s : State) (n : Nat) (f : Request → Request) : (s.modReq n f).req.notices = s.req.notices := rfl
@[simp] theorem modReq_descs (s : State) (n : Nat) (f : Request → Request) : (s.modReq n f).req.descs = s.req.descs := rfl
@[simp] theorem modReq_nextDesc (s : State) (n : Nat) (f : Request → Request) : (s.modReq n f).req.nextDesc = s.req.nextDesc := rfl
@[simp] theorem modReq_requests (s : State) (n : Nat) (f : Request → Request) : (s.modReq n f).req.requests = mapWhere (fun q => q.id == n) f s.req.requests := rfl
@[simp] theorem modReq_nextReq (s : State) (n : Nat) (f : Request → Request) : (s.modReq n f).req.nextReq = s.req.nextReq := rfl
@[simp] theorem modReq_due (s : State) (n : Nat) (f : Request → Request) : (s.modReq n f).req.due = s.req.due := rfl
@[simp] theorem modReq_seqs (s : State) (n : Nat) (f : Request → Request) : (s.modReq n f).req.seqs = s.req.seqs := rfl
@[simp] theorem modReq_io (s : State) (n : Nat) (f : Request → Request) : (s.modReq n f).io = s.io := rfl

/-! ### modRing -/

@[simp] theorem modRing_pending (s : State) (n : Nat) (f : Ring → Ring) : (s.modRing n f).pending = s.pending := rfl
@[simp] theorem modRing_free (s : State) (n : Nat) (f : Ring → Ring) : (s.modRing n f).free = s.free := rfl
@[simp] theorem modRing_sys (s : State) (n : Nat) (f : Ring → Ring) : (s.modRing n f).sys = s.sys := rfl
@[simp] theorem modRing_ras (s : State) (n : Nat) (f : Ring → Ring) : (s.modRing n f).ras = s.ras := rfl
@[simp] theorem modRing_mem (s : State) (n : Nat) (f : Ring → Ring) : (s.modRing n f).mem = s.mem := rfl
@[simp] theorem modRing_comp (s : State) (n : Nat) (f : Ring → Ring) : (s.modRing n f).comp = s.comp := rfl
@[simp] theorem modRing_net (s : State) (n : Nat) (f : Ring → Ring) : (s.modRing n f).net = s.net := rfl
@[simp] theorem modRing_link (s : State) (n : Nat) (f : Ring → Ring) : (s.modRing n f).link = s.link := rfl
@[simp] theorem modRing_rings (s : State) (n : Nat) (f : Ring → Ring) : (s.modRing n f).req.rings = s.req.rings.modify n f := rfl
@[simp] theorem modRing_notices (s : State) (n : Nat) (f : Ring → Ring) : (s.modRing n f).req.notices = s.req.notices := rfl
@[simp] theorem modRing_descs (s : State) (n : Nat) (f : Ring → Ring) : (s.modRing n f).req.descs = s.req.descs := rfl
@[simp] theorem modRing_nextDesc (s : State) (n : Nat) (f : Ring → Ring) : (s.modRing n f).req.nextDesc = s.req.nextDesc := rfl
@[simp] theorem modRing_requests (s : State) (n : Nat) (f : Ring → Ring) : (s.modRing n f).req.requests = s.req.requests := rfl
@[simp] theorem modRing_nextReq (s : State) (n : Nat) (f : Ring → Ring) : (s.modRing n f).req.nextReq = s.req.nextReq := rfl
@[simp] theorem modRing_due (s : State) (n : Nat) (f : Ring → Ring) : (s.modRing n f).req.due = s.req.due := rfl
@[simp] theorem modRing_seqs (s : State) (n : Nat) (f : Ring → Ring) : (s.modRing n f).req.seqs = s.req.seqs := rfl
@[simp] theorem modRing_io (s : State) (n : Nat) (f : Ring → Ring) : (s.modRing n f).io = s.io := rfl

/-! ### modSp -/

@[simp] theorem modSp_pending (s : State) (n : Nat) (f : Sp → Sp) : (s.modSp n f).pending = s.pending := rfl
@[simp] theorem modSp_free (s : State) (n : Nat) (f : Sp → Sp) : (s.modSp n f).free = s.free := rfl
@[simp] theorem modSp_sys (s : State) (n : Nat) (f : Sp → Sp) : (s.modSp n f).sys = s.sys := rfl
@[simp] theorem modSp_ras (s : State) (n : Nat) (f : Sp → Sp) : (s.modSp n f).ras = s.ras := rfl
@[simp] theorem modSp_mem (s : State) (n : Nat) (f : Sp → Sp) : (s.modSp n f).mem = s.mem := rfl
@[simp] theorem modSp_comp (s : State) (n : Nat) (f : Sp → Sp) : (s.modSp n f).comp = s.comp := rfl
@[simp] theorem modSp_net (s : State) (n : Nat) (f : Sp → Sp) : (s.modSp n f).net = s.net := rfl
@[simp] theorem modSp_link (s : State) (n : Nat) (f : Sp → Sp) : (s.modSp n f).link = s.link := rfl
@[simp] theorem modSp_req (s : State) (n : Nat) (f : Sp → Sp) : (s.modSp n f).req = s.req := rfl
@[simp] theorem modSp_sps (s : State) (n : Nat) (f : Sp → Sp) : (s.modSp n f).io.sps = s.io.sps.modify n f := rfl
@[simp] theorem modSp_bindings (s : State) (n : Nat) (f : Sp → Sp) : (s.modSp n f).io.bindings = s.io.bindings := rfl
@[simp] theorem modSp_digests (s : State) (n : Nat) (f : Sp → Sp) : (s.modSp n f).io.digests = s.io.digests := rfl
@[simp] theorem modSp_ptp (s : State) (n : Nat) (f : Sp → Sp) : (s.modSp n f).io.ptp = s.io.ptp := rfl
@[simp] theorem modSp_hps (s : State) (n : Nat) (f : Sp → Sp) : (s.modSp n f).io.hps = s.io.hps := rfl
@[simp] theorem modSp_outputs (s : State) (n : Nat) (f : Sp → Sp) : (s.modSp n f).io.outputs = s.io.outputs := rfl

/-! ### modHp -/

@[simp] theorem modHp_pending (s : State) (n : Nat) (f : Hp → Hp) : (s.modHp n f).pending = s.pending := rfl
@[simp] theorem modHp_free (s : State) (n : Nat) (f : Hp → Hp) : (s.modHp n f).free = s.free := rfl
@[simp] theorem modHp_sys (s : State) (n : Nat) (f : Hp → Hp) : (s.modHp n f).sys = s.sys := rfl
@[simp] theorem modHp_ras (s : State) (n : Nat) (f : Hp → Hp) : (s.modHp n f).ras = s.ras := rfl
@[simp] theorem modHp_mem (s : State) (n : Nat) (f : Hp → Hp) : (s.modHp n f).mem = s.mem := rfl
@[simp] theorem modHp_comp (s : State) (n : Nat) (f : Hp → Hp) : (s.modHp n f).comp = s.comp := rfl
@[simp] theorem modHp_net (s : State) (n : Nat) (f : Hp → Hp) : (s.modHp n f).net = s.net := rfl
@[simp] theorem modHp_link (s : State) (n : Nat) (f : Hp → Hp) : (s.modHp n f).link = s.link := rfl
@[simp] theorem modHp_req (s : State) (n : Nat) (f : Hp → Hp) : (s.modHp n f).req = s.req := rfl
@[simp] theorem modHp_sps (s : State) (n : Nat) (f : Hp → Hp) : (s.modHp n f).io.sps = s.io.sps := rfl
@[simp] theorem modHp_bindings (s : State) (n : Nat) (f : Hp → Hp) : (s.modHp n f).io.bindings = s.io.bindings := rfl
@[simp] theorem modHp_digests (s : State) (n : Nat) (f : Hp → Hp) : (s.modHp n f).io.digests = s.io.digests := rfl
@[simp] theorem modHp_ptp (s : State) (n : Nat) (f : Hp → Hp) : (s.modHp n f).io.ptp = s.io.ptp := rfl
@[simp] theorem modHp_hps (s : State) (n : Nat) (f : Hp → Hp) : (s.modHp n f).io.hps = s.io.hps.modify n f := rfl
@[simp] theorem modHp_outputs (s : State) (n : Nat) (f : Hp → Hp) : (s.modHp n f).io.outputs = s.io.outputs := rfl

/-! ### modPtp -/

@[simp] theorem modPtp_pending (s : State) (n : Nat) (f : Ptp → Ptp) : (s.modPtp n f).pending = s.pending := rfl
@[simp] theorem modPtp_free (s : State) (n : Nat) (f : Ptp → Ptp) : (s.modPtp n f).free = s.free := rfl
@[simp] theorem modPtp_sys (s : State) (n : Nat) (f : Ptp → Ptp) : (s.modPtp n f).sys = s.sys := rfl
@[simp] theorem modPtp_ras (s : State) (n : Nat) (f : Ptp → Ptp) : (s.modPtp n f).ras = s.ras := rfl
@[simp] theorem modPtp_mem (s : State) (n : Nat) (f : Ptp → Ptp) : (s.modPtp n f).mem = s.mem := rfl
@[simp] theorem modPtp_comp (s : State) (n : Nat) (f : Ptp → Ptp) : (s.modPtp n f).comp = s.comp := rfl
@[simp] theorem modPtp_net (s : State) (n : Nat) (f : Ptp → Ptp) : (s.modPtp n f).net = s.net := rfl
@[simp] theorem modPtp_link (s : State) (n : Nat) (f : Ptp → Ptp) : (s.modPtp n f).link = s.link := rfl
@[simp] theorem modPtp_req (s : State) (n : Nat) (f : Ptp → Ptp) : (s.modPtp n f).req = s.req := rfl
@[simp] theorem modPtp_sps (s : State) (n : Nat) (f : Ptp → Ptp) : (s.modPtp n f).io.sps = s.io.sps := rfl
@[simp] theorem modPtp_bindings (s : State) (n : Nat) (f : Ptp → Ptp) : (s.modPtp n f).io.bindings = s.io.bindings := rfl
@[simp] theorem modPtp_digests (s : State) (n : Nat) (f : Ptp → Ptp) : (s.modPtp n f).io.digests = s.io.digests := rfl
@[simp] theorem modPtp_ptp (s : State) (n : Nat) (f : Ptp → Ptp) : (s.modPtp n f).io.ptp = s.io.ptp.modify n f := rfl
@[simp] theorem modPtp_hps (s : State) (n : Nat) (f : Ptp → Ptp) : (s.modPtp n f).io.hps = s.io.hps := rfl
@[simp] theorem modPtp_outputs (s : State) (n : Nat) (f : Ptp → Ptp) : (s.modPtp n f).io.outputs = s.io.outputs := rfl

/-! ### modLink -/

@[simp] theorem modLink_pending (s : State) (n : Nat) (f : Link → Link) : (s.modLink n f).pending = s.pending := rfl
@[simp] theorem modLink_free (s : State) (n : Nat) (f : Link → Link) : (s.modLink n f).free = s.free := rfl
@[simp] theorem modLink_sys (s : State) (n : Nat) (f : Link → Link) : (s.modLink n f).sys = s.sys := rfl
@[simp] theorem modLink_ras (s : State) (n : Nat) (f : Link → Link) : (s.modLink n f).ras = s.ras := rfl
@[simp] theorem modLink_mem (s : State) (n : Nat) (f : Link → Link) : (s.modLink n f).mem = s.mem := rfl
@[simp] theorem modLink_comp (s : State) (n : Nat) (f : Link → Link) : (s.modLink n f).comp = s.comp := rfl
@[simp] theorem modLink_net (s : State) (n : Nat) (f : Link → Link) : (s.modLink n f).net = s.net := rfl
@[simp] theorem modLink_links (s : State) (n : Nat) (f : Link → Link) : (s.modLink n f).link.links = s.link.links.modify n f := rfl
@[simp] theorem modLink_dirs (s : State) (n : Nat) (f : Link → Link) : (s.modLink n f).link.dirs = s.link.dirs := rfl
@[simp] theorem modLink_req (s : State) (n : Nat) (f : Link → Link) : (s.modLink n f).req = s.req := rfl
@[simp] theorem modLink_io (s : State) (n : Nat) (f : Link → Link) : (s.modLink n f).io = s.io := rfl

/-! ### modDir -/

@[simp] theorem modDir_pending (s : State) (n : Nat) (f : LinkDir → LinkDir) : (s.modDir n f).pending = s.pending := rfl
@[simp] theorem modDir_free (s : State) (n : Nat) (f : LinkDir → LinkDir) : (s.modDir n f).free = s.free := rfl
@[simp] theorem modDir_sys (s : State) (n : Nat) (f : LinkDir → LinkDir) : (s.modDir n f).sys = s.sys := rfl
@[simp] theorem modDir_ras (s : State) (n : Nat) (f : LinkDir → LinkDir) : (s.modDir n f).ras = s.ras := rfl
@[simp] theorem modDir_mem (s : State) (n : Nat) (f : LinkDir → LinkDir) : (s.modDir n f).mem = s.mem := rfl
@[simp] theorem modDir_comp (s : State) (n : Nat) (f : LinkDir → LinkDir) : (s.modDir n f).comp = s.comp := rfl
@[simp] theorem modDir_net (s : State) (n : Nat) (f : LinkDir → LinkDir) : (s.modDir n f).net = s.net := rfl
@[simp] theorem modDir_links (s : State) (n : Nat) (f : LinkDir → LinkDir) : (s.modDir n f).link.links = s.link.links := rfl
@[simp] theorem modDir_dirs (s : State) (n : Nat) (f : LinkDir → LinkDir) : (s.modDir n f).link.dirs = s.link.dirs.modify n f := rfl
@[simp] theorem modDir_req (s : State) (n : Nat) (f : LinkDir → LinkDir) : (s.modDir n f).req = s.req := rfl
@[simp] theorem modDir_io (s : State) (n : Nat) (f : LinkDir → LinkDir) : (s.modDir n f).io = s.io := rfl

/-! ### modSched -/

@[simp] theorem modSched_pending (s : State) (n : Nat) (f : Sched → Sched) : (s.modSched n f).pending = s.pending := rfl
@[simp] theorem modSched_free (s : State) (n : Nat) (f : Sched → Sched) : (s.modSched n f).free = s.free := rfl
@[simp] theorem modSched_sys (s : State) (n : Nat) (f : Sched → Sched) : (s.modSched n f).sys = s.sys := rfl
@[simp] theorem modSched_ras (s : State) (n : Nat) (f : Sched → Sched) : (s.modSched n f).ras = s.ras := rfl
@[simp] theorem modSched_mem (s : State) (n : Nat) (f : Sched → Sched) : (s.modSched n f).mem = s.mem := rfl
@[simp] theorem modSched_comp (s : State) (n : Nat) (f : Sched → Sched) : (s.modSched n f).comp = s.comp := rfl
@[simp] theorem modSched_nextId (s : State) (n : Nat) (f : Sched → Sched) : (s.modSched n f).net.nextId = s.net.nextId := rfl
@[simp] theorem modSched_inject (s : State) (n : Nat) (f : Sched → Sched) : (s.modSched n f).net.inject = s.net.inject := rfl
@[simp] theorem modSched_bufs (s : State) (n : Nat) (f : Sched → Sched) : (s.modSched n f).net.bufs = s.net.bufs := rfl
@[simp] theorem modSched_injPos (s : State) (n : Nat) (f : Sched → Sched) : (s.modSched n f).net.injPos = s.net.injPos := rfl
@[simp] theorem modSched_winSent (s : State) (n : Nat) (f : Sched → Sched) : (s.modSched n f).net.winSent = s.net.winSent := rfl
@[simp] theorem modSched_freed (s : State) (n : Nat) (f : Sched → Sched) : (s.modSched n f).net.freed = s.net.freed := rfl
@[simp] theorem modSched_schedBufs (s : State) (n : Nat) (f : Sched → Sched) : (s.modSched n f).net.schedBufs = s.net.schedBufs := rfl
@[simp] theorem modSched_cross (s : State) (n : Nat) (f : Sched → Sched) : (s.modSched n f).net.cross = s.net.cross := rfl
@[simp] theorem modSched_ports (s : State) (n : Nat) (f : Sched → Sched) : (s.modSched n f).net.ports = s.net.ports := rfl
@[simp] theorem modSched_phases (s : State) (n : Nat) (f : Sched → Sched) : (s.modSched n f).net.phases = s.net.phases := rfl
@[simp] theorem modSched_eject (s : State) (n : Nat) (f : Sched → Sched) : (s.modSched n f).net.eject = s.net.eject := rfl
@[simp] theorem modSched_home (s : State) (n : Nat) (f : Sched → Sched) : (s.modSched n f).net.home = s.net.home := rfl
@[simp] theorem modSched_near (s : State) (n : Nat) (f : Sched → Sched) : (s.modSched n f).net.near = s.net.near := rfl
@[simp] theorem modSched_inbox (s : State) (n : Nat) (f : Sched → Sched) : (s.modSched n f).net.inbox = s.net.inbox := rfl
@[simp] theorem modSched_cells (s : State) (n : Nat) (f : Sched → Sched) : (s.modSched n f).net.cells = s.net.cells := rfl
@[simp] theorem modSched_counters (s : State) (n : Nat) (f : Sched → Sched) : (s.modSched n f).net.counters = s.net.counters := rfl
@[simp] theorem modSched_watches (s : State) (n : Nat) (f : Sched → Sched) : (s.modSched n f).net.watches = s.net.watches := rfl
@[simp] theorem modSched_answersDue (s : State) (n : Nat) (f : Sched → Sched) : (s.modSched n f).net.answersDue = s.net.answersDue := rfl
@[simp] theorem modSched_fromSpent (s : State) (n : Nat) (f : Sched → Sched) : (s.modSched n f).net.fromSpent = s.net.fromSpent := rfl
@[simp] theorem modSched_toSpent (s : State) (n : Nat) (f : Sched → Sched) : (s.modSched n f).net.toSpent = s.net.toSpent := rfl
@[simp] theorem modSched_scheds (s : State) (n : Nat) (f : Sched → Sched) : (s.modSched n f).net.scheds = mapWhere (fun c => c.srid == n) f s.net.scheds := rfl
@[simp] theorem modSched_waiting (s : State) (n : Nat) (f : Sched → Sched) : (s.modSched n f).net.waiting = s.net.waiting := rfl
@[simp] theorem modSched_linkCe (s : State) (n : Nat) (f : Sched → Sched) : (s.modSched n f).net.linkCe = s.net.linkCe := rfl
@[simp] theorem modSched_link (s : State) (n : Nat) (f : Sched → Sched) : (s.modSched n f).link = s.link := rfl
@[simp] theorem modSched_req (s : State) (n : Nat) (f : Sched → Sched) : (s.modSched n f).req = s.req := rfl
@[simp] theorem modSched_io (s : State) (n : Nat) (f : Sched → Sched) : (s.modSched n f).io = s.io := rfl

/-! ### emit -/

@[simp] theorem emit_pending (s : State) (o : Output) : (s.emit o).pending = s.pending := rfl
@[simp] theorem emit_free (s : State) (o : Output) : (s.emit o).free = s.free := rfl
@[simp] theorem emit_sys (s : State) (o : Output) : (s.emit o).sys = s.sys := rfl
@[simp] theorem emit_ras (s : State) (o : Output) : (s.emit o).ras = s.ras := rfl
@[simp] theorem emit_mem (s : State) (o : Output) : (s.emit o).mem = s.mem := rfl
@[simp] theorem emit_comp (s : State) (o : Output) : (s.emit o).comp = s.comp := rfl
@[simp] theorem emit_net (s : State) (o : Output) : (s.emit o).net = s.net := rfl
@[simp] theorem emit_link (s : State) (o : Output) : (s.emit o).link = s.link := rfl
@[simp] theorem emit_req (s : State) (o : Output) : (s.emit o).req = s.req := rfl
@[simp] theorem emit_sps (s : State) (o : Output) : (s.emit o).io.sps = s.io.sps := rfl
@[simp] theorem emit_bindings (s : State) (o : Output) : (s.emit o).io.bindings = s.io.bindings := rfl
@[simp] theorem emit_digests (s : State) (o : Output) : (s.emit o).io.digests = s.io.digests := rfl
@[simp] theorem emit_ptp (s : State) (o : Output) : (s.emit o).io.ptp = s.io.ptp := rfl
@[simp] theorem emit_hps (s : State) (o : Output) : (s.emit o).io.hps = s.io.hps := rfl
@[simp] theorem emit_outputs (s : State) (o : Output) : (s.emit o).io.outputs = s.io.outputs ++ [o] := rfl

/-! ### modUnit -/

@[simp] theorem modUnit_pending (s : State) (d u : Nat) (f : UnitRec → UnitRec) : (s.modUnit d u f).pending = s.pending := rfl
@[simp] theorem modUnit_free (s : State) (d u : Nat) (f : UnitRec → UnitRec) : (s.modUnit d u f).free = s.free := rfl
@[simp] theorem modUnit_sys (s : State) (d u : Nat) (f : UnitRec → UnitRec) : (s.modUnit d u f).sys = s.sys := rfl
@[simp] theorem modUnit_units (s : State) (d u : Nat) (f : UnitRec → UnitRec) : (s.modUnit d u f).ras.units = s.ras.units.modify (unitKey d u) f := rfl
@[simp] theorem modUnit_scrubs (s : State) (d u : Nat) (f : UnitRec → UnitRec) : (s.modUnit d u f).ras.scrubs = s.ras.scrubs := rfl
@[simp] theorem modUnit_corrections (s : State) (d u : Nat) (f : UnitRec → UnitRec) : (s.modUnit d u f).ras.corrections = s.ras.corrections := rfl
@[simp] theorem modUnit_logs (s : State) (d u : Nat) (f : UnitRec → UnitRec) : (s.modUnit d u f).ras.logs = s.ras.logs := rfl
@[simp] theorem modUnit_evtArrivals (s : State) (d u : Nat) (f : UnitRec → UnitRec) : (s.modUnit d u f).ras.evtArrivals = s.ras.evtArrivals := rfl
@[simp] theorem modUnit_evtLost (s : State) (d u : Nat) (f : UnitRec → UnitRec) : (s.modUnit d u f).ras.evtLost = s.ras.evtLost := rfl
@[simp] theorem modUnit_dieFenced (s : State) (d u : Nat) (f : UnitRec → UnitRec) : (s.modUnit d u f).ras.dieFenced = s.ras.dieFenced := rfl
@[simp] theorem modUnit_heartbeat (s : State) (d u : Nat) (f : UnitRec → UnitRec) : (s.modUnit d u f).ras.heartbeat = s.ras.heartbeat := rfl
@[simp] theorem modUnit_wardenLost (s : State) (d u : Nat) (f : UnitRec → UnitRec) : (s.modUnit d u f).ras.wardenLost = s.ras.wardenLost := rfl
@[simp] theorem modUnit_noService (s : State) (d u : Nat) (f : UnitRec → UnitRec) : (s.modUnit d u f).ras.noService = s.ras.noService := rfl
@[simp] theorem modUnit_mem (s : State) (d u : Nat) (f : UnitRec → UnitRec) : (s.modUnit d u f).mem = s.mem := rfl
@[simp] theorem modUnit_comp (s : State) (d u : Nat) (f : UnitRec → UnitRec) : (s.modUnit d u f).comp = s.comp := rfl
@[simp] theorem modUnit_net (s : State) (d u : Nat) (f : UnitRec → UnitRec) : (s.modUnit d u f).net = s.net := rfl
@[simp] theorem modUnit_link (s : State) (d u : Nat) (f : UnitRec → UnitRec) : (s.modUnit d u f).link = s.link := rfl
@[simp] theorem modUnit_req (s : State) (d u : Nat) (f : UnitRec → UnitRec) : (s.modUnit d u f).req = s.req := rfl
@[simp] theorem modUnit_io (s : State) (d u : Nat) (f : UnitRec → UnitRec) : (s.modUnit d u f).io = s.io := rfl

end Sys2Proof.Laws
end

