-- ==== Sys2Proof/Laws/Memory.lean ====
section
/-! SUPPORT. Memory as a list of cells: reads after writes, and that every operation keeps the canonical form. -/

namespace Sys2Proof.Laws

open Sys2Proof.Machine

/-- Every address of a list is above `n`. -/
def Above (n : Nat) (l : List Host.Cell) : Prop := ∀ c ∈ l, n < c.1

theorem cellsWf_cons (c : Host.Cell) (l : List Host.Cell) :
    cellsWf (c :: l) = true ↔ c.2 ≠ 0 ∧ Above c.1 l ∧ cellsWf l = true := by
  induction l generalizing c with
  | nil => simp [cellsWf, Above]
  | cons d l ih =>
    rw [cellsWf, Bool.and_eq_true, Bool.and_eq_true, decide_eq_true_eq, decide_eq_true_eq]
    constructor
    · rintro ⟨⟨h0, h1⟩, h2⟩
      refine ⟨h0, ?_, h2⟩
      intro x hx
      rcases List.mem_cons.mp hx with rfl | hx
      · exact h1
      · exact Nat.lt_trans h1 (((ih d).mp h2).2.1 x hx)
    · rintro ⟨h0, h1, h2⟩
      exact ⟨⟨h0, h1 d (List.mem_cons_self ..)⟩, h2⟩

theorem above_writeCell {n a : Nat} (h : n < a) (b : Byte) {l : List Host.Cell} (hl : Above n l) : Above n (writeCell l a b) := by
  induction l with
  | nil => unfold writeCell; split <;> simp [Above, h]
  | cons c l ih =>
    have hl' : Above n l := fun x hx => hl x (List.mem_cons_of_mem _ hx)
    have hc := hl c (List.mem_cons_self ..)
    unfold writeCell
    split
    · split
      · exact hl
      · intro x hx
        rcases List.mem_cons.mp hx with rfl | hx
        · exact h
        · exact hl x hx
    · split
      · split
        · exact hl'
        · intro x hx
          rcases List.mem_cons.mp hx with rfl | hx
          · exact h
          · exact hl' x hx
      · intro x hx
        rcases List.mem_cons.mp hx with rfl | hx
        · exact hc
        · exact ih hl' x hx

theorem writeCell_wf {l : List Host.Cell} (h : cellsWf l = true) (a : Nat) (b : Byte) : cellsWf (writeCell l a b) = true := by
  induction l with
  | nil => unfold writeCell; split <;> simp_all [cellsWf]
  | cons c l ih =>
    obtain ⟨h0, h1, h2⟩ := (cellsWf_cons c l).mp h
    unfold writeCell
    split
    · split
      · exact h
      · refine (cellsWf_cons _ _).mpr ⟨by assumption, ?_, h⟩
        intro x hx
        rcases List.mem_cons.mp hx with rfl | hx
        · assumption
        · have := h1 x hx; simp only; omega
    · split
      · split
        · exact h2
        · rename_i _ he _
          exact (cellsWf_cons _ _).mpr ⟨by assumption, by simpa [← he] using h1, h2⟩
      · exact (cellsWf_cons _ _).mpr ⟨h0, above_writeCell (by omega) b h1, ih h2⟩

theorem readCell_above {n : Nat} {l : List Host.Cell} (h : Above n l) : readCell l n = 0 := by
  cases l with
  | nil => rfl
  | cons c l =>
    have := h c (List.mem_cons_self ..)
    rw [readCell, if_neg (by omega), if_pos this]

/-- A read after a write: the byte written there, the byte that was there elsewhere. -/
theorem readCell_writeCell {l : List Host.Cell} (h : cellsWf l = true) (a : Nat) (b : Byte) (i : Nat) :
    readCell (writeCell l a b) i = if i = a then b else readCell l i := by
  induction l with
  | nil =>
    unfold writeCell
    by_cases hb : b = 0
    · simp [hb, readCell]
    · rw [if_neg hb]
      by_cases hi : i = a
      · subst hi; simp [readCell]
      · simp [readCell, hi, Ne.symm hi]
  | cons c l ih =>
    obtain ⟨_, h1, h2⟩ := (cellsWf_cons c l).mp h
    have ih := ih h2
    unfold writeCell
    split
    · rename_i hac
      by_cases hi : i = a
      · subst hi
        by_cases hb : b = 0
        · rw [if_pos hb, if_pos rfl, readCell, if_neg (by omega), if_pos hac, hb]
        · rw [if_neg hb, if_pos rfl, readCell, if_pos rfl]
      · by_cases hb : b = 0
        · rw [if_pos hb, if_neg hi]
        · rw [if_neg hb, if_neg hi, readCell, if_neg (Ne.symm hi)]
          split
          · rename_i hlt
            rw [readCell, if_neg (by omega), if_pos (by simp only at hlt; omega)]
          · rfl
    · split
      · rename_i _ he
        by_cases hi : i = a
        · subst hi
          by_cases hb : b = 0
          · rw [if_pos hb, if_pos rfl, readCell_above (by simpa [he] using h1), hb]
          · rw [if_neg hb, if_pos rfl, readCell, if_pos rfl]
        · have hc : ¬c.1 = i := by omega
          by_cases hb : b = 0
          · rw [if_pos hb, if_neg hi, readCell, if_neg hc]
            split
            · exact readCell_above (fun x hx => by have := h1 x hx; omega)
            · rfl
          · rw [if_neg hb, if_neg hi, readCell, readCell, if_neg (by simpa using Ne.symm hi), if_neg hc, he]
      · rw [readCell, readCell, ih]
        by_cases hi : i = a
        · subst hi
          rw [if_neg (by omega), if_neg (by omega), if_pos rfl, if_pos rfl]
        · simp only [if_neg hi]

theorem filter_wf {l : List Host.Cell} (h : cellsWf l = true) (p : Host.Cell → Bool) : cellsWf (l.filter p) = true := by
  induction l with
  | nil => rfl
  | cons c l ih =>
    obtain ⟨h0, h1, h2⟩ := (cellsWf_cons c l).mp h
    rw [List.filter_cons]
    split
    · exact (cellsWf_cons _ _).mpr ⟨h0, fun x hx => h1 x (List.mem_filter.mp hx).1, ih h2⟩
    · exact ih h2

/-- A read of a filtered list: what satisfies the filter reads as before, all else 0. -/
theorem readCell_filter {l : List Host.Cell} (h : cellsWf l = true) (p : Nat → Bool) (i : Nat) :
    readCell (l.filter (fun c => p c.1)) i = if p i then readCell l i else 0 := by
  induction l with
  | nil => simp [readCell]
  | cons c l ih =>
    obtain ⟨_, h1, h2⟩ := (cellsWf_cons c l).mp h
    have ih := ih h2
    rw [List.filter_cons]
    by_cases hp : p c.1 = true
    · rw [if_pos hp, readCell, readCell, ih]
      by_cases hc : c.1 = i
      · subst hc; simp [hp]
      · rw [if_neg hc, if_neg hc]
        by_cases hi : i < c.1
        · simp [hi]
        · simp [hi]
    · rw [if_neg hp, ih, readCell]
      by_cases hc : c.1 = i
      · subst hc; simp [hp]
      · rw [if_neg hc]
        by_cases hi : i < c.1
        · rw [if_pos hi, readCell_above (fun x hx => Nat.lt_trans hi (h1 x hx))]
        · simp [hi]

theorem setByte_wf {m : Mem} (h : m.wf = true) (a : Nat) (b : Byte) : (m.setByte a b).wf = true := writeCell_wf h _ _
theorem put_wf {m : Mem} (h : m.wf = true) (a : Nat) (bs : List Byte) : (m.put a bs).wf = true := by
  induction bs generalizing m a with
  | nil => exact h
  | cons b bs ih => exact ih (setByte_wf h a b) (a + 1)
theorem putExcept_wf {m : Mem} (h : m.wf = true) (bad : List Nat) (a : Nat) (bs : List Byte) : (putExcept m bad a bs).wf = true := by
  induction bs generalizing m a with
  | nil => exact h
  | cons b bs ih =>
    rw [putExcept]
    split
    · exact ih h (a + 1)
    · exact ih (setByte_wf h a b) (a + 1)
theorem poisonLine_wf {m : Mem} (h : m.wf = true) (a : Nat) : (m.poisonLine a).wf = true := h
theorem zeroLine_wf {m : Mem} (h : m.wf = true) (a : Nat) : (m.zeroLine a).wf = true := by
  unfold Mem.zeroLine
  generalize zeros 64 = z
  exact put_wf h (normAddr a / 64 * 64) z
theorem clear_wf {m : Mem} (h : m.wf = true) (p : Nat → Bool) : (m.clear p).wf = true := filter_wf h _
theorem pokeMem_wf {s : State} (h : s.mem.mem.wf = true) (a : Nat) (bs : List Byte) : (s.pokeMem a bs).mem.mem.wf = true :=
  put_wf (m := (s.mem.cleanWords (wordsOf a bs.length)).mem) h a bs

@[simp] theorem setByte_marks (m : Mem) (a : Nat) (b : Byte) : (m.setByte a b).marks = m.marks := rfl
@[simp] theorem put_marks (m : Mem) (a : Nat) (bs : List Byte) : (m.put a bs).marks = m.marks := by
  induction bs generalizing m a with
  | nil => rfl
  | cons b bs ih => exact ih (m.setByte a b) (a + 1)

/-- A byte after a byte is stored. -/
theorem byte_setByte {m : Mem} (h : m.wf = true) (a : Nat) (b : Byte) (i : Nat) :
    (m.setByte a b).byte i = if normAddr i = normAddr a then b else m.byte i := readCell_writeCell h _ _ _

/-- A store leaves every byte outside it. -/
theorem byte_put_other {m : Mem} (h : m.wf = true) (a : Nat) (bs : List Byte) (i : Nat)
    (hi : ∀ j, j < bs.length → normAddr i ≠ normAddr (a + j)) : (m.put a bs).byte i = m.byte i := by
  induction bs generalizing m a with
  | nil => rfl
  | cons b bs ih =>
    rw [Mem.put, ih (setByte_wf h a b)]
    · rw [byte_setByte h, if_neg (by simpa using hi 0 (by simp))]
    · intro j hj
      have := hi (j + 1) (by simpa using hj)
      rwa [show a + 1 + j = a + (j + 1) by omega]

end Sys2Proof.Laws
end

