-- ==== Sys2Proof/Laws/Ops.lean ====
section
/-! SUPPORT. What the shared operations can do, once for each: the frames every meaning is written in, the free values, packets handed to a
router, and reads and writes of agents that meet a held bank. -/

namespace Sys2Proof.Laws

open Sys2Proof.Machine

/-! ### The frames of a meaning -/

@[simp] theorem whenB_true (s : State) (f : State → State) : whenB true s f = f s := rfl
@[simp] theorem whenB_false (s : State) (f : State → State) : whenB false s f = s := rfl
@[simp] theorem withSome_some {A : Type} (x : A) (s : State) (f : A → State → State) : withSome (some x) s f = f x s := rfl
@[simp] theorem withSome_none {A : Type} (s : State) (f : A → State → State) : withSome none s f = s := rfl
@[simp] theorem eachOf_nil {A : Type} (f : A → State → State) (s : State) : eachOf [] f s = s := rfl
@[simp] theorem eachOf_cons {A : Type} (x : A) (l : List A) (f : A → State → State) (s : State) : eachOf (x :: l) f s = eachOf l f (f x s) := rfl

/-- What holds of the state, and what every turn keeps, holds after every element has acted. -/
theorem eachOf_keeps {A : Type} (P : State → Prop) {f : A → State → State} (l : List A) {s : State} (hs : P s)
    (hf : ∀ x ∈ l, ∀ t, P t → P (f x t)) : P (eachOf l f s) := by
  induction l generalizing s with
  | nil => exact hs
  | cons x l ih => exact ih (hf x (.head _) s hs) (fun y hy => hf y (.tail _ hy))

theorem whenB_keeps (P : State → Prop) {f : State → State} (c : Bool) {s : State} (hs : P s) (hf : P (f s)) : P (whenB c s f) := by
  cases c <;> assumption

theorem withSome_keeps {A : Type} (P : State → Prop) {f : A → State → State} (o : Option A) {s : State} (hs : P s)
    (hf : ∀ x, o = some x → P (f x s)) : P (withSome o s f) := by
  cases o with
  | none => exact hs
  | some x => exact hf x rfl

/-! ### Waiting for a held bank (R253) -/

/-- While no row command runs a command does what it does. -/
@[simp] theorem heldWait_quiet {s : State} (h : s.rowsRun = false) (f : State → Out) : heldWait s f = f s := by simp [heldWait, h]

/-- A command that answers a next state has done what it does, or nothing. -/
theorem heldWait_next {s t : State} {f : State → Out} (h : heldWait s f = .next t) : f s = .next t ∨ t = s := by
  unfold heldWait at h
  split at h
  · split at h
    · next u hu =>
      split at h
      · exact .inr (by injection h with h; exact h.symm)
      · exact .inl (hu.trans h)
    · exact .inl h
  · exact .inl h

/-! ### Free values -/

@[simp] theorem takeFree_fst (s : State) : s.takeFree.1 = s.free := rfl
@[simp] theorem takeFree_free (s : State) : s.takeFree.2.free = s.free + 1 := rfl
@[simp] theorem takeFree_pending (s : State) : s.takeFree.2.pending = s.pending := rfl
@[simp] theorem takeFree_sys (s : State) : s.takeFree.2.sys = s.sys := rfl
@[simp] theorem takeFree_ras (s : State) : s.takeFree.2.ras = s.ras := rfl
@[simp] theorem takeFree_mem (s : State) : s.takeFree.2.mem = s.mem := rfl
@[simp] theorem takeFree_comp (s : State) : s.takeFree.2.comp = s.comp := rfl
@[simp] theorem takeFree_net (s : State) : s.takeFree.2.net = s.net := rfl
@[simp] theorem takeFree_link (s : State) : s.takeFree.2.link = s.link := rfl
@[simp] theorem takeFree_req (s : State) : s.takeFree.2.req = s.req := rfl
@[simp] theorem takeFree_io (s : State) : s.takeFree.2.io = s.io := rfl

/-! ### A packet handed over (R286, R304) -/

/-- A block that hands a packet over changes the network and nothing else. -/
theorem sendAt_net (s : State) (src : Nat) (dst : Dest) (vc n : Nat) (p r : Option Nat) (pay : Payload) (c : Nat) :
    s.sendAt src dst vc n p r pay c = { s with net := (s.sendAt src dst vc n p r pay c).net } := by
  unfold State.sendAt State.sendNear State.modNet
  dsimp only
  repeat' (first | rfl | split)

theorem send_net (s : State) (src : Nat) (dst : Dest) (vc n : Nat) (p r : Option Nat) (pay : Payload) :
    s.send src dst vc n p r pay = { s with net := (s.send src dst vc n p r pay).net } := sendAt_net ..

@[simp] theorem send_pending (s : State) (src : Nat) (dst : Dest) (vc n : Nat) (p r : Option Nat) (pay : Payload) :
    (s.send src dst vc n p r pay).pending = s.pending := by rw [send_net]
@[simp] theorem send_sys (s : State) (src : Nat) (dst : Dest) (vc n : Nat) (p r : Option Nat) (pay : Payload) :
    (s.send src dst vc n p r pay).sys = s.sys := by rw [send_net]
@[simp] theorem send_mem (s : State) (src : Nat) (dst : Dest) (vc n : Nat) (p r : Option Nat) (pay : Payload) :
    (s.send src dst vc n p r pay).mem = s.mem := by rw [send_net]
@[simp] theorem send_comp (s : State) (src : Nat) (dst : Dest) (vc n : Nat) (p r : Option Nat) (pay : Payload) :
    (s.send src dst vc n p r pay).comp = s.comp := by rw [send_net]
@[simp] theorem send_ras (s : State) (src : Nat) (dst : Dest) (vc n : Nat) (p r : Option Nat) (pay : Payload) :
    (s.send src dst vc n p r pay).ras = s.ras := by rw [send_net]
@[simp] theorem send_link (s : State) (src : Nat) (dst : Dest) (vc n : Nat) (p r : Option Nat) (pay : Payload) :
    (s.send src dst vc n p r pay).link = s.link := by rw [send_net]
@[simp] theorem send_req (s : State) (src : Nat) (dst : Dest) (vc n : Nat) (p r : Option Nat) (pay : Payload) :
    (s.send src dst vc n p r pay).req = s.req := by rw [send_net]
@[simp] theorem send_io (s : State) (src : Nat) (dst : Dest) (vc n : Nat) (p r : Option Nat) (pay : Payload) :
    (s.send src dst vc n p r pay).io = s.io := by rw [send_net]

end Sys2Proof.Laws
end

