-- ==== Sys2Proof/Laws/Tbl.lean ====
section
/-! SUPPORT. The tables of the state: what a read gives after a write, a change, or a removal. -/

namespace Sys2Proof.Laws

open Sys2Proof.Machine

variable {K V : Type} [DecidableEq K]

theorem lookupEntry_putEntry (k j : K) (v : V) (es : List (K × V)) :
    lookupEntry j (putEntry k v es) = if j = k then some v else lookupEntry j es := by
  induction es with
  | nil =>
    by_cases h : j = k
    · simp [putEntry, lookupEntry, h]
    · simp [putEntry, lookupEntry, h, Ne.symm h]
  | cons e es ih =>
    obtain ⟨a, b⟩ := e
    by_cases hk : a = k
    · subst hk
      by_cases h : j = a
      · simp [putEntry, lookupEntry, h]
      · simp [putEntry, lookupEntry, h, Ne.symm h]
    · simp only [putEntry, hk, if_false, lookupEntry, ih]
      by_cases ha : a = j
      · subst ha; simp [hk]
      · simp [ha]

theorem lookupEntry_dropEntry (k j : K) (es : List (K × V)) :
    lookupEntry j (dropEntry k es) = if j = k then none else lookupEntry j es := by
  induction es with
  | nil => simp [dropEntry, lookupEntry]
  | cons e es ih =>
    obtain ⟨a, b⟩ := e
    simp only [dropEntry] at ih ⊢
    by_cases hk : a = k
    · subst hk; simp only [List.filter, decide_true, Bool.not_true, ih, lookupEntry]
      by_cases h : j = a
      · simp [h]
      · simp [h, Ne.symm h]
    · simp only [List.filter, hk, decide_false, Bool.not_false, lookupEntry, ih]
      by_cases h : a = j
      · subst h; simp [hk]
      · simp [h]

theorem lookupEntry_filter (p : K → Bool) (j : K) (es : List (K × V)) :
    lookupEntry j (es.filter (fun e => p e.1)) = if p j then lookupEntry j es else none := by
  induction es with
  | nil => simp [lookupEntry]
  | cons e es ih =>
    obtain ⟨a, b⟩ := e
    by_cases hp : p a = true
    · simp only [List.filter, hp, lookupEntry, ih]
      by_cases h : a = j
      · subst h; simp [hp]
      · simp [h]
    · simp only [List.filter, hp, lookupEntry, ih]
      by_cases h : a = j
      · subst h; simp [hp]
      · simp [h]

@[simp] theorem tbl_get_const (v : V) (k : K) : (Tbl.const v : Tbl K V).get k = v := rfl
theorem tbl_get_set (t : Tbl K V) (k j : K) (v : V) : (t.set k v).get j = if j = k then v else t.get j := by
  by_cases h : j = k <;> simp [Tbl.get, Tbl.set, lookupEntry_putEntry, h]
@[simp] theorem tbl_get_set_same (t : Tbl K V) (k : K) (v : V) : (t.set k v).get k = v := by simp [tbl_get_set]
theorem tbl_get_set_other {k j : K} (h : j ≠ k) (t : Tbl K V) (v : V) : (t.set k v).get j = t.get j := by simp [tbl_get_set, h]
theorem tbl_get_modify (t : Tbl K V) (k j : K) (f : V → V) : (t.modify k f).get j = if j = k then f (t.get k) else t.get j := tbl_get_set ..
@[simp] theorem tbl_get_modify_same (t : Tbl K V) (k : K) (f : V → V) : (t.modify k f).get k = f (t.get k) := by simp [tbl_get_modify]
theorem tbl_get_modify_other {k j : K} (h : j ≠ k) (t : Tbl K V) (f : V → V) : (t.modify k f).get j = t.get j := by simp [tbl_get_modify, h]
theorem tbl_get_forget (t : Tbl K V) (p : K → Bool) (j : K) : (t.forget p).get j = if p j then t.rest else t.get j := by
  simp only [Tbl.get, Tbl.forget, lookupEntry_filter (fun k => !p k)]
  by_cases h : p j <;> simp [h]
@[simp] theorem tbl_rest_set (t : Tbl K V) (k : K) (v : V) : (t.set k v).rest = t.rest := rfl
@[simp] theorem tbl_rest_modify (t : Tbl K V) (k : K) (f : V → V) : (t.modify k f).rest = t.rest := rfl

@[simp] theorem map_get_empty (k : K) : (Map.empty : Map K V).get? k = none := rfl
theorem map_get_set (m : Map K V) (k j : K) (v : V) : (m.set k v).get? j = if j = k then some v else m.get? j := lookupEntry_putEntry ..
@[simp] theorem map_get_set_same (m : Map K V) (k : K) (v : V) : (m.set k v).get? k = some v := by simp [map_get_set]
theorem map_get_set_other {k j : K} (h : j ≠ k) (m : Map K V) (v : V) : (m.set k v).get? j = m.get? j := by simp [map_get_set, h]
theorem map_get_erase (m : Map K V) (k j : K) : (m.erase k).get? j = if j = k then none else m.get? j := lookupEntry_dropEntry ..
@[simp] theorem map_get_erase_same (m : Map K V) (k : K) : (m.erase k).get? k = none := by simp [map_get_erase]

end Sys2Proof.Laws
end

