-- ==== Sys2Proof/Tests/Slice0.lean ====
section
/-! SUPPORT. The model's own tests. WellFormed refuses an ill-formed term of each check; for each clause of each statement a
witness: a small state and operands that meet the clause's hypotheses, and what the one step there gives. -/

namespace Sys2Proof.Tests

open Sys2Proof.Machine

set_option Elab.async false

/-! ### Helpers: small states -/

/-- The state a step answers; the reset state where it answers none. -/
def after (c : Instr) (s : State) : State :=
  match exec c s with
  | .next t => t
  | _ => State.reset

/-- Whether a step answers a next state. -/
def runs (c : Instr) (s : State) : Bool :=
  match exec c s with
  | .next _ => true
  | _ => false

/-- The value of an access that passes. -/
def got {A B E : Type} (d : A) (r : Except E A × B) : A :=
  match r.1 with
  | .ok a => a
  | .error _ => d

/-- Whether an access passes. -/
def passes {A B E : Type} (r : Except E A × B) : Bool :=
  match r.1 with
  | .ok _ => true
  | .error _ => false

/-- A die that has been brought up, at TICK 1,000. -/
def upClk : DieClk := { DieClk.reset with supplied := true, tick := 1000, locked := true, aligned := true, step := 10, ready := true, resets := 1 }

/-- A tray in service: four dies up and aligned at TICK 1,000, links and host links up, Warden running. -/
def live : State :=
  let s := State.reset
  { s with
    sys := { s.sys with
      clk := .const upClk
      warden := { s.sys.warden with powered := true, running := true, pulse := true } }
    link := { s.link with links := .const { Link.reset with st := .up32 } }
    io := { s.io with hps := .const { Hp.reset with linkUp := true, perst := false } } }

/-- A register that shows, and that the hardware uses, a value. -/
def withReg (k : RegKey) (v : Nat) (s : State) : State :=
  s.modRegs (fun r => { r with vis := r.vis.set k (BitVec.ofNat 64 v), app := r.app.set k (BitVec.ofNat 64 v) })

/-- A valid page of all permissions for all classes of agents (R229): the 2 MiB of device memory at DPA 0x20000000. -/
def devPage : Nat := 2 ^ 63 + 7 * 2 ^ 52 + 0x2000 * 2 ^ 16 + 127 * 2 ^ 8

/-- A valid page of host memory (R229): port 0, function 0, address 0x40000000. -/
def hostPage : Nat := 2 ^ 63 + 2 ^ 61 + 7 * 2 ^ 52 + 0x4000 * 2 ^ 16 + 127 * 2 ^ 8

/-- Partition 0 owns every node of die 0 and the frames 0x100 to 0x1FF of its first stack; at every node DVA 0 is a page of that memory and
DVA 0x200000 one of the host's. -/
def owned : State :=
  let s := withReg ⟨.netRegion, 0, 0, 0⟩ (2 ^ 63 + 7 * 2 ^ 6 + 5 * 2 ^ 9) (withReg ⟨.memAllot, 0, 0, 0⟩ (2 ^ 63 + 0x1FF * 2 ^ 32 + 0x100) live)
  s.modMem (fun m => { m with nodes := .const ⟨[⟨⟨0, 0, true⟩, devPage, [], false⟩, ⟨⟨0, 0x200000, true⟩, hostPage, [], false⟩], [], []⟩ })

/-- Bytes at DVA `va` of the device page. -/
def withBytes (va : Nat) (bs : List Byte) (s : State) : State := s.pokeMem (0x20000000 + va) bs

/-- The PF of port 0. -/
def pf : FuncRef := ⟨0, 0⟩

/-- A packet of one flit to a node, of partition 0 and request 5. -/
def packet (dst vc : Nat) (rel : Bool) (pl : Payload) : Packet := ⟨7, 9, .node dst, vc, 1, some 0, some 5, rel, none, pl, false, 0, 0, 1⟩

/-- A running request of partition 0 over the first SC and TE of die 0. -/
def request (id : Nat) : Request :=
  { id := id, desc := 1, part := 0, port := 0, func := 0, seqNo := 0, mode := .free, step := .run, model := 0, sprVa := 0, outVa := 0
    outBytes := 0, arg := 0, entry := 0, nodes := [9, 11], pinVa := 0, pinCount := 0, srid := none, progHash := [], placeHash := []
    seed := [], drawn := false, live := false, replicas := 0, lowered := false, takePartial := false, armIndex := none, event := none
    launch := ⟨false, 0, 0, [], [], false, [], []⟩, prog := none, err := none, poisonLogged := false, stalls := [], hostOut := []
    timingOpen := false, inputs := [], linkUsed := 0, linkHalf := 0, launchedAt := some 900, endedAt := none, replay := none
    trailDue := false, declared := [] }

/-- The state with these requests. -/
def withReqs (rs : List Request) (s : State) : State := { s with req := { s.req with requests := rs } }

/-- Core 0 runs request 5 at pc 0x1000. -/
def coreRuns (s : State) : State :=
  (withReqs [request 5] s).modCore 0 (fun k => { k with req := some 5, pc := 0x1000 })

/-! ### WellFormed -/

theorem test_wf_refuses_node : (Instr.flitSend 0x30 .n ⟨0, .clean⟩).wellFormed = false ∧ (Instr.packetEject 0x38).wellFormed = false := by decide
theorem test_wf_refuses_startup_length : (Instr.spindleStartupPass 0 false []).wellFormed = false := by decide
theorem test_wf_refuses_window_length : (Instr.spindleWindowClose 0 false []).wellFormed = false := by decide
theorem test_wf_refuses_line_length : (Instr.rdownGrant 0 0 []).wellFormed = false ∧ (Instr.lanternRereadData 0 0 []).wellFormed = false := by
  decide
theorem test_wf_refuses_memwin_length : (Instr.memwinAccess 0 0 (.write [] false)).wellFormed = false := by decide
theorem test_wf_refuses_descriptor_length : (Instr.doorbellNotice 0 [[0, 0]]).wellFormed = false := by decide
theorem test_wf_refuses_token_length : (Instr.debugUnlock 0 1 true []).wellFormed = false ∧ (Instr.lcTransition .deployed ⟨true, .verified⟩ (some [])).wellFormed = false := by
  decide
theorem test_wf_refuses_one_die_link : (Instr.sundyaHandover 1 1).wellFormed = false ∧ (Instr.tickCheckWord 2 2).wellFormed = false
    ∧ (Instr.linkReplay 0 ⟨0, 0⟩).wellFormed = false ∧ (Instr.linkRetrainEnd 3 3 true true true).wellFormed = false := by decide
theorem test_wf_accepts : (Instr.flitSend 0x2F .n ⟨7, .dataUe⟩).wellFormed = true ∧ (Instr.doorbellNotice 0 [[]]).wellFormed = true
    ∧ Instr.pulseEdge.wellFormed = true := by decide

/-! ### The whole machine -/

theorem witness_front_command : { State.reset with pending := [Instr.pulseEdge] }.pending = Instr.pulseEdge :: [] := by decide +kernel
theorem witness_idle : State.reset.pending = [] := by decide +kernel
theorem witness_memory_canonical : State.reset.mem.mem.wf = true ∧ runs .pulseEdge live = true := by decide +kernel
theorem witness_no_such_node : nodeOk 0x30 = false ∧ nodeOk 0x3F = false ∧ nodeOk 0xF0 = false := by decide

/-! ### Clocks -/

theorem witness_pulse : live.sys.warden.pulse = true ∧ (live.sys.clk.get 3).supplied = true ∧ (live.sys.clk.get 3).locked = true
    ∧ ((after .pulseEdge live).sys.clk.get 3).tick = 1001 := by decide +kernel

/-- A tray in service with a check word and an alignment word due over the link from die 0 to die 1, in which die 2 disagrees with die 0. -/
def worded : State :=
  { live with link := { live.link with
      dirs := live.link.dirs.set (dirKey 0 1) ⟨0, [], [⟨.check, 994, 1000, false⟩, ⟨.align, 993, 999, false⟩], 0, 0⟩
      links := live.link.links.set (linkKey 0 2) { Link.reset with st := .up32, cmpLo := some false } } }

theorem witness_check_word : worded.linkUp 0 1 = true ∧ worded.dueWord 0 1 .check = some ⟨.check, 994, 1000, false⟩
    ∧ ((after (.tickCheckWord 0 1) worded).link.links.get (linkKey 0 1)).cmpHi = some true
    ∧ ((after (.tickCheckWord 0 1) worded).link.dirs.get (dirKey 0 1)).words = [⟨.align, 993, 999, false⟩] := by decide +kernel

theorem witness_tick_align : worded.linkUp 0 1 = true ∧ worded.dueWord 0 1 .align = some ⟨.align, 993, 999, false⟩
    ∧ worded.mem.mem.marks.entries = [] ∧ worded.ras.corrections = []
    ∧ (fun c : DieClk => (c.tick, c.aligned)) ((after (.tickAlign 1) worded).sys.clk.get 1) = (1000, true) := by decide +kernel

/-- Die 2 disagrees with every other die. -/
def split : State :=
  { live with link := { live.link with
      links := [0, 1, 3].foldl (fun t e => t.set (linkKey 2 e) { Link.reset with st := .up32, cmpLo := some false }) live.link.links } }

theorem witness_alignment_decision : split.sys.warden.running = true ∧ 0 ∈ split.alignedDies ∧ 2 ∈ split.alignedDies
    ∧ split.linkUp 0 2 = true ∧ split.agree 0 2 = false
    ∧ [0, 1, 2, 3].map (fun d => ((after .alignmentDecision split).sys.clk.get d).aligned) = [true, true, false, true]
    ∧ split.keptGroup = [0, 1, 3] := by decide +kernel

/-- Die 1 hears of no other alignment word, and a delayed check word is dropped uncompared. -/
theorem witness_delayed_word :
    let s := worded.modDir (dirKey 0 1) (fun x => { x with words := [⟨.check, 994, 1000, true⟩] })
    s.dueWord 0 1 .check = some ⟨.check, 994, 1000, true⟩
      ∧ ((after (.tickCheckWord 0 1) s).link.links.get (linkKey 0 1)).cmpHi = none
      ∧ ((after (.tickCheckWord 0 1) s).link.dirs.get (dirKey 0 1)).words = [] := by decide +kernel

/-! ### Spindles -/

/-- The Spindle of the CTL-N of die 0 in a state, with a pool. -/
def spindleIn (st : SpState) (pool : List Byte) (s : State) : State :=
  s.modSpindle 0 (fun p => { p with st := st, pool := pool })

/-- Samples whose four streams all alternate with period 4, so that no run reaches a cut. -/
def samples (n : Nat) : List Sample := (List.range n).map (fun i => ⟨i % 2 == 0, i / 2 % 2 == 0, i % 4 == 0⟩)

/-- Samples that all agree, so that every run reaches its cut. -/
def stuck (n : Nat) : List Sample := List.replicate n ⟨true, true, true⟩

theorem witness_spindle_enable : (live.comp.spindles.get 0).st = .off ∧ (withReg ⟨.secSpindlectl, 0, 0, 0⟩ 1 live).appF .secSpindlectl 0 0 0 0 0 = 1
    ∧ 6 ≤ (live.sys.clk.get 0).step
    ∧ ((after (.spindleEnable 0 false) (withReg ⟨.secSpindlectl, 0, 0, 0⟩ 1 live)).comp.spindles.get 0).st = .startup := by decide +kernel

theorem witness_spindle_disable : ((spindleIn .run [1, 2] live).comp.spindles.get 0).st ≠ .retired
    ∧ (withReg ⟨.secSpindlectl, 0, 0, 0⟩ 0 live).appF .secSpindlectl 0 0 0 0 0 = 0
    ∧ ((after (.spindleDisable 0 false) (withReg ⟨.secSpindlectl, 0, 0, 0⟩ 0 (spindleIn .run [1, 2] live))).comp.spindles.get 0).st = .off
    ∧ ((after (.spindleDisable 0 false) (withReg ⟨.secSpindlectl, 0, 0, 0⟩ 0 (spindleIn .run [1, 2] live))).comp.spindles.get 0).pool = [] := by
  decide +kernel

/-- Cuts of 30 and 1,000. -/
def cuts : State := withReg ⟨.secSpindlectl, 0, 0, 0⟩ (1 + 30 * 2 ^ 8 + 1000 * 2 ^ 16) live

/-- The tests after `k` blocks of 256 such samples of a window. -/
def blockRun (k : Nat) : HealthRun :=
  ⟨[(false, 1), (false, 2), (false, 3), (false, 1)], [(true, 128 * k), (true, 128 * k), (true, 64 * k), (true, 192 * k)],
    256 * k % 1024, false, List.replicate 4 false, List.replicate 4 false⟩

/-- The tests before the first sample. -/
def freshRun : HealthRun :=
  ⟨List.replicate 4 (false, 0), List.replicate 4 (false, 0), 0, false, List.replicate 4 false, List.replicate 4 false⟩

theorem block_one : (samples 256).foldl (HealthRun.sample 30 1000) freshRun = blockRun 1 := by decide +kernel
theorem block_two : (samples 256).foldl (HealthRun.sample 30 1000) (blockRun 1) = blockRun 2 := by decide +kernel
theorem block_three : (samples 256).foldl (HealthRun.sample 30 1000) (blockRun 2) = blockRun 3 := by decide +kernel
theorem block_four : (samples 256).foldl (HealthRun.sample 30 1000) (blockRun 3) = blockRun 4 := by decide +kernel

/-- A new window counts afresh, so that a window after a window counts as the first does. -/
theorem block_again : (samples 256).foldl (HealthRun.sample 30 1000) (blockRun 4) = blockRun 1 := by decide +kernel

/-- A window of 1,024 samples that passes. -/
def window : List Sample := samples 256 ++ (samples 256 ++ (samples 256 ++ samples 256))

theorem window_first : window.foldl (HealthRun.sample 30 1000) freshRun = blockRun 4 := by
  simp only [window, List.foldl_append, block_one, block_two, block_three, block_four]
theorem window_next : window.foldl (HealthRun.sample 30 1000) (blockRun 4) = blockRun 4 := by
  simp only [window, List.foldl_append, block_again, block_two, block_three, block_four]

theorem cut_values : cuts.rctCut 0 false = 30 ∧ cuts.aptCut 0 false = 1000 := by decide +kernel

theorem health_startup (a b : Nat) (xs : List Sample) : { Spindle.reset with st := .startup }.health a b xs = xs.foldl (HealthRun.sample a b) freshRun := rfl
theorem health_run (a b : Nat) (xs : List Sample) :
    { Spindle.reset with st := .run, pool := [9] }.health a b xs = xs.foldl (HealthRun.sample a b) freshRun := rfl
theorem blockRun_passes : (blockRun 4).failed = false := by decide
theorem window_length : window.length = 1024 := by simp [window, samples]

theorem witness_startup_pass : (spindleIn .startup [] cuts).comp.spindles.get 0 = { Spindle.reset with st := .startup }
    ∧ ({ Spindle.reset with st := .startup }.health (cuts.rctCut 0 false) (cuts.aptCut 0 false) (window ++ window ++ window ++ window)).failed = false
    ∧ (window ++ window ++ window ++ window).length = 4096 := by
  refine ⟨by decide +kernel, ?_, by simp only [List.length_append, window_length]⟩
  rw [cut_values.1, cut_values.2, health_startup]
  simp only [List.foldl_append, window_first, window_next, blockRun_passes]

theorem witness_window_close : (spindleIn .run [9] cuts).comp.spindles.get 0 = { Spindle.reset with st := .run, pool := [9] }
    ∧ ({ Spindle.reset with st := .run, pool := [9] }.health (cuts.rctCut 0 false) (cuts.aptCut 0 false) window).failed = false
    ∧ window.length = 1024 := by
  refine ⟨by decide +kernel, ?_, window_length⟩
  rw [cut_values.1, cut_values.2, health_run, window_first, blockRun_passes]

/-- A pool of 512 bytes takes no more (R103). -/
theorem test_pool_full : ({ Spindle.reset with pool := List.replicate 512 5, bits := List.replicate 7 true }.feed true).pool.length = 512
    ∧ ({ Spindle.reset with pool := List.replicate 511 5, bits := List.replicate 7 true }.feed true).pool.length = 512 := by decide +kernel

theorem witness_spindle_health :
    let h := ((spindleIn .run [9] cuts).comp.spindles.get 0).health (cuts.rctCut 0 false) (cuts.aptCut 0 false) (stuck 30)
    h.early = false ∧ (h.rct.any id || h.apt.any id) = true
      ∧ ((after (.spindleHealth 0 false (stuck 30)) (spindleIn .run [9] cuts)).comp.spindles.get 0).st = .startup
      ∧ ((after (.spindleHealth 0 false (stuck 30)) (spindleIn .run [9] cuts)).comp.spindles.get 0).pool = [] := by decide +kernel

/-- The third failure within 2^28 ticks retires. -/
theorem test_spindle_retires : ((after (.spindleHealth 0 false (stuck 30)) ((spindleIn .run [9] cuts).modSpindle 0 (fun p => { p with
    failTicks := [998, 999] }))).comp.spindles.get 0).st = .retired := by decide +kernel

theorem witness_draws : (live.draw 0 2).1 = .none
    ∧ ((spindleIn .run [1, 2, 3] live).draw 0 2).1 = .bytes [1, 2]
    ∧ (((spindleIn .run [1, 2, 3] live).draw 0 2).2.comp.spindles.get 0).pool = [3]
    ∧ (((spindleIn .run [1, 2, 3] live).modSpindle 1 (fun p => { p with st := .run, pool := [4, 4] })).draw 0 2).1 = .bytes [5, 6]
    ∧ (((live.modSpindle 1 (fun p => { p with st := .run, pool := [4, 4] })).draw 0 2).1 = .bytes [4, 4])
    ∧ ((spindleIn .run [1] live).draw 0 2).1 = .wait := by decide +kernel

/-! ### The mesh -/

/-- A packet to node 12 waits at node 9. -/
def injected (rel : Bool) : State :=
  { owned with net := { owned.net with inject := owned.net.inject.set 9 [packet 12 1 rel (.cmdDone 0)] } }

/-- The packet has entered the router of node 9. -/
def routed (rel : Bool) : State := (injected rel).refill 9 8000

theorem witness_flit_send : nodeOk 9 = true ∧ neighbour 9 .e = some 10 ∧ (routed false).dieFencedB 0 = false
    ∧ ((routed false).portNow 9 .e).nextCycle = 0
    ∧ ((((routed false).refill 9 8001).checkFlit 9 .e 1 .clean).winner 9 .e 1).map (·.1) = some Port.l
    ∧ (((after (.flitSend 9 .e ⟨1, .clean⟩) (routed false)).net.cross.get (10, .w)).map (·.due)) = [8003]
    ∧ (((after (.flitSend 9 .e ⟨1, .corrected⟩) (routed false)).net.linkCe.get 9)) = 1
    ∧ (((after (.flitSend 9 .e ⟨1, .dataUe⟩) (routed false)).net.cross.get (10, .w)).map (·.pkt.poison)) = [true] := by decide +kernel

/-- A free-running packet does not leave its block and its router in one cycle (R290). -/
theorem test_enter_own_router : (((after (.flitSend 9 .e ⟨0, .clean⟩) (injected false)).net.cross.get (10, .w)).map (·.due)) = [] := by
  decide +kernel

/-- A packet that has come to the output `o` of a node. -/
def atOutput (n : Nat) (o : Port) (dst : Nat) : State :=
  { owned with net := { owned.net with bufs := owned.net.bufs.set ⟨n, .n, 1, true⟩ [⟨packet dst 1 true (.cmdDone 0), 0, 7900, [o]⟩] } }

theorem witness_flit_send_out : ((atOutput 9 .l 9).winner 9 .l 0).map (·.1) = some Port.n
    ∧ ((after (.flitSend 9 .l ⟨0, .clean⟩) (atOutput 9 .l 9)).net.eject.get 9).map (·.pkt.id) = [7]
    ∧ ((after (.flitSend 9 .h ⟨0, .clean⟩) (atOutput 9 .h 9)).net.home.get 9).map (·.id) = [7]
    ∧ slLink (slToward 0 1) = some (0, 1)
    ∧ (((after (.flitSend (BitVec.ofNat 8 (slToward 0 1)) .sx ⟨5, .clean⟩) (atOutput (slToward 0 1) .sx 73)).link.dirs.get
        (dirKey 0 1)).flight.map (·.due)) = [8 * 1006] := by decide +kernel

/-- In the guard window a tick-released flit takes the tick after next (R290). -/
theorem test_flit_send_guard : (((after (.flitSend 9 .e ⟨5, .clean⟩) (injected true)).net.cross.get (10, .w)).map (·.due)) = [8008]
    ∧ (((after (.flitSend 9 .e ⟨6, .clean⟩) (injected true)).net.cross.get (10, .w)).map (·.due)) = [8016] := by decide +kernel

/-- A flit that is due at the west input of node 10. -/
def crossing (rel : Bool) : State :=
  { owned with net := { owned.net with cross := owned.net.cross.set (10, .w) [⟨packet 12 1 rel (.cmdDone 0), 0, 8000⟩] } }

theorem witness_handover : (crossing true).dueCross 10 .w true = some ⟨packet 12 1 true (.cmdDone 0), 0, 8000⟩
    ∧ (crossing false).dueCross 10 .w false = some ⟨packet 12 1 false (.cmdDone 0), 0, 8000⟩
    ∧ ((after (.crossingHandover 10 .w) (crossing true)).net.bufs.get ⟨10, .w, 1, true⟩).map (·.outs) = [[Port.e]]
    ∧ ((after (.freeRunningHandover 10 .w) (crossing false)).net.bufs.get ⟨10, .w, 1, false⟩).map (·.outs) = [[Port.e]] := by decide +kernel

/-- A packet on the link from die 0 to die 1. -/
def flying : State :=
  { owned with link := { owned.link with dirs := owned.link.dirs.set (dirKey 0 1) ⟨1, [⟨0, packet 73 1 true (.cmdDone 0), 0, 8000, false, 2, false⟩], [], 0, 0⟩ } }

theorem witness_sundya_handover : flying.dueFlight 0 1 true = some ⟨0, packet 73 1 true (.cmdDone 0), 0, 8000, false, 2, false⟩
    ∧ ((flying.link.dirs.get (dirKey 0 1)).flight.head?.map (·.seq)) = some 0
    ∧ ((after (.sundyaHandover 0 1) flying).link.dirs.get (dirKey 0 1)).flight = []
    ∧ ((after (.sundyaHandover 0 1) flying).net.inject.get (slToward 1 0)).length = 1 := by decide +kernel

/-- Behind its head, a flit of a packet that waits at the SL joins it (R354). -/
theorem witness_landed : landed [] ⟨0, packet 73 1 true (.cmdDone 0), 0, 8000, false, 2, false⟩
      = [{ packet 73 1 true (.cmdDone 0) with start := 8000, first := 0, last := 1 }]
    ∧ landed [{ packet 73 1 true (.cmdDone 0) with flits := 2 }] ⟨1, packet 73 1 true (.cmdDone 0), 1, 8000, false, 0, false⟩
      = [{ packet 73 1 true (.cmdDone 0) with flits := 2, last := 2 }] := by decide +kernel

/-- A dense contribution on the near link from SC 0 to SC 1, and an event at the ejection port of CTL-N. -/
def arriving (part : Nat) : State :=
  { owned with net := { owned.net with
      near := owned.net.near.set (0, 1) [⟨packet 10 2 true (.dense ⟨0, 3, 4, 0, 5⟩), 0, 8000⟩]
      eject := owned.net.eject.set 0 [⟨{ packet 0 1 true (.event ⟨0x21, 1, 0, 9, some 0, 1000, 0, 0, false⟩) with part := some part }, 0, 8000, [.l]⟩] } }

theorem witness_near_packet : cycleReached (8 * (arriving 0).tickOf 0) 8000 = true ∧ (arriving 0).blockUp (scNode 1) = true
    ∧ (arriving 0).foreignAt (scNode 1) (packet 10 2 true (.dense ⟨0, 3, 4, 0, 5⟩)) = false
    ∧ (after (.nearLinkPacket 0 1) (arriving 0)).comp.denseIn.get 1 = [⟨0, 3, 4, 0, 5⟩] := by decide +kernel

theorem witness_packet_eject : ((arriving 0).ejected 0).map (·.1.id) = some 7 ∧ (arriving 0).blockUp 0 = true
    ∧ (arriving 0).foreignAt 0 (packet 0 1 true (.cmdDone 0)) = false
    ∧ ((after (.packetEject 0) (arriving 0)).ras.evtArrivals.get 0).length = 1
    ∧ ((after (.packetEject 0) (arriving 0)).net.eject.get 0) = [] := by decide +kernel

theorem witness_packet_eject_down :
    let s := { arriving 0 with ras := { (arriving 0).ras with dieFenced := (arriving 0).ras.dieFenced.set 0 true } }
    s.blockUp 0 = false ∧ (s.ejected 0).map (·.1.id) = some 7 ∧ ((after (.packetEject 0) s).ras.evtArrivals.get 0) = [] := by decide +kernel

/-- A line's read of CMEM of SC 1 comes over the near link, and bank 0 has served all it can in this tick (R299). -/
def bankBusy : State :=
  { owned with net := { owned.net with
      near := owned.net.near.set (0, 1) [⟨packet 10 2 true (.line false (cmemAddr 1 0) 8 3), 0, 8000⟩]
      bankUsed := owned.net.bankUsed.set 16 (1000, 7) } }

theorem witness_near_waits : (packet 10 2 true (.line false (cmemAddr 1 0) 8 3)).banks 1 = some [0]
    ∧ (bankBusy.askBanks 1 10 7 [0]).1 = false ∧ nodeY (scNode 0) = nodeY (scNode 1)
    ∧ ((after (.nearLinkPacket 0 1) bankBusy).net.near.get (0, 1)).length = 1 := by decide +kernel

/-- A dense contribution of partition 3 at the ejection port of a node of partition 0. -/
def foreign : State :=
  { owned with net := { owned.net with
      eject := owned.net.eject.set 9 [⟨{ packet 9 2 true (.dense ⟨0, 3, 4, 0, 5⟩) with part := some 3 }, 0, 8000, [.l]⟩] } }

theorem witness_foreign : (foreign.ejected 9).isSome = true
    ∧ foreign.foreignAt 9 { packet 9 2 true (.dense ⟨0, 3, 4, 0, 5⟩) with part := some 3 } = true
    ∧ (after (.packetEject 9) foreign).comp.denseIn.get 0 = []
    ∧ ((after (.packetEject 9) foreign).ras.logs.get 0).recs.getLast?.map (·.code) = some Code.netDestFenced.val := by decide +kernel

/-- An access that is not delivered, from node 12. -/
theorem witness_not_delivered :
    let p : Packet := { packet 9 1 true (.mem ⟨.load, 0x20000000, 3, false, 0, 0, none⟩ 24 3) with src := 12 }
    owned.foreignAt 9 p = false ∧ nearPair 9 (.node p.src) 2 = none ∧ p.src ≠ 9
      ∧ ((owned.notDelivered 9 p).net.inject.get 9).map (·.payload) = [.memAns (.fault Code.netDestFenced.val) 24 3] := by decide +kernel

theorem witness_net_flit_ue : ((crossing true).net.cross.get (10, .w)).head?.map (·.pkt.dst) = some (.node 12)
    ∧ ((after (.netFlitUe 10 .w) (crossing true)).net.cross.get (10, .w)) = []
    ∧ (((after (.netFlitUe 10 .w) (crossing true)).ras.logs.get 0).recs.getLast?.map (·.node)) = some 10 := by decide +kernel

/-- An access of core 0 that was issued 65,536 ticks ago. -/
def stale : State :=
  let s := coreRuns owned
  { s with net := { s.net with waiting := [⟨3, .core 0, some 5, 12, 2 ^ 64 + 1000 - 65536, 5, 0x40⟩] } }

theorem witness_net_timeout : 65536 ≤ stale.since 0 (2 ^ 64 + 1000 - 65536)
    ∧ (stale.comp.cores.get 0).req = some 5 ∧ (stale.findReq 5).map (·.step) = some .run ∧ (stale.comp.cores.get 0).wait = .none
    ∧ ((after (.netTimeout 3) stale).comp.cores.get 0).mcause = 5
    ∧ ((after (.netTimeout 3) stale).comp.cores.get 0).mepc = 0x1000
    ∧ ((after (.netTimeout 3) stale).net.waiting) = [] := by decide +kernel

/-- A multicast's flit is lost on its own crossing alone; a block's line ends its request. -/
theorem witness_net_flit_ue_multicast :
    let s := { owned with net := { owned.net with
      cross := owned.net.cross.set (10, .w) [⟨{ packet 12 0 true (.cmdDone 0) with dst := .rect 0 7 0 5 1 none }, 0, 8000⟩] } }
    (s.net.cross.get (10, .w)).length = 1 ∧ ((after (.netFlitUe 10 .w) s).net.cross.get (10, .w)) = [] := by decide +kernel
theorem witness_net_timeout_block :
    let s := { stale with net := { stale.net with waiting := [⟨3, .block 11 (some 5), some 5, 12, 2 ^ 64 + 1000 - 65536, 0, 0⟩] } }
    s.watchHeld 12 3 = false ∧ ((after (.netTimeout 3) s).findReq 5).bind (fun r => r.err.map (·.2.1)) = some Code.netTimeout.val := by decide +kernel

theorem witness_window_start : owned.tickOf 0 % 8 = 0 ∧ owned.net.windowAt.get 0 ≠ some 1000 ∧ owned.net.fromSpent.rest = 0 ∧ owned.net.toSpent.rest = 0
    ∧ ((after (.windowStart 0) { owned with net := { owned.net with fromSpent := owned.net.fromSpent.set (0, 3) 40 } }).net.fromSpent.get (0, 3)) = 0 := by
  decide +kernel

/-- Region 1 runs on port E of node 9: every tick is reserved and takes one flit of the local input. -/
def region : Sched := ⟨1, 0, 1, [(0, 1, 1)], [⟨9, portNo .e, 0, 0xFF, [0x10 + portNo .l]⟩], true, false, some 5, 0, 900, 0, false, false, none⟩

/-- A flit of region 1 waits at node 9, and port E knows phase 0. -/
def scheduled : State :=
  { owned with net := { owned.net with
      scheds := [region]
      phases := owned.net.phases.set (9, .e, 1) ⟨0, 900, none⟩
      schedBufs := owned.net.schedBufs.set (9, .l, .e) [⟨{ packet 12 1 true (.cmdDone 0) with srid := some 1 }, 0, 8000, [.e]⟩] } }

theorem witness_scheduled_tick : scheduled.schedAt 9 .e = some region ∧ ((scheduled.refill 9 8000).portNow 9 .e).nextCycle = 0
    ∧ positionAt (region.pattern 9 .e 0) 100 = (1, some Port.l)
    ∧ scheduled.schedRoom 9 .e { packet 12 1 true (.cmdDone 0) with srid := some 1 } = true
    ∧ ((after (.scheduledTick 9 .e) scheduled).net.schedBufs.get (9, .l, .e)) = []
    ∧ ((after (.scheduledTick 9 .e) scheduled).net.cross.get (10, .w)).map (·.due) = [8008] := by decide +kernel

/-- A phase notice that waits at the port goes ahead of the scheduled flit (R339). -/
theorem witness_notice_first :
    let s : State := { scheduled with net := { scheduled.net with bufs := scheduled.net.bufs.set ⟨9, .w, 0, true⟩ ([⟨packet 12 0 true (.phase 1 1 1010), 0, 7900, [.e]⟩]) } }
    (((s.refill 9 8000).winner 9 .e 0).map (fun x => (x.1, x.2.pkt.isPhase))) = some (.w, true)
      ∧ ((after (.scheduledTick 9 .e) s).net.cross.get (10, .w)).map (·.pkt.isPhase) = [true, false] := by decide +kernel

/-- Port E of node 9 has been told of phase 1 from a tick on. -/
def noticed (T : Nat) (fresh : Bool) : State :=
  { scheduled with net := { scheduled.net with phases := scheduled.net.phases.set (9, .e, 1) ⟨0, 900, some (1, T, fresh)⟩ } }

theorem witness_phase_early : (noticed 1001 true).reached 0 1001 = false
    ∧ ((after (.phaseNoticeArrive 9 .e 1) (noticed 1001 true)).net.phases.get (9, .e, 1)) = ⟨0, 900, some (1, 1001, false)⟩ := by decide +kernel
theorem witness_phase_late : (noticed 1000 true).reached 0 1000 = true
    ∧ ((after (.phaseNoticeArrive 9 .e 1) (noticed 1000 true)).net.phases.get (9, .e, 1)) = ⟨1, 1000, none⟩ := by decide +kernel
theorem witness_phase_begin : (noticed 1000 false).reached 0 1000 = true
    ∧ ((after (.phaseBegin 9 .e 1) (noticed 1000 false)).net.phases.get (9, .e, 1)) = ⟨1, 1000, none⟩ := by decide +kernel

/-! ### Beacon units, locks and cores -/

/-- An operation of core 8 of node 10 has come to a home. -/
def homeOp (n : Nat) (op : BOp) (s : State) : State :=
  { s with net := { s.net with home := s.net.home.set n [{ packet n 0 true (.beacon op (.core 8) 77) with src := 10 }] } }

/-- The value an applied operation answers with, where its answer waits at its home. -/
def answered (n : Nat) (t : State) : List Payload := (t.net.inject.get n).map (·.payload)

/-- Cell 63 of node 9 holds 7. -/
def cell : State := { owned with net := { owned.net with cells := owned.net.cells.set (9, 63) ⟨7, false, false⟩ } }

theorem witness_flag_get : ((homeOp 9 (.get 63) cell).net.home.get 9).length = 1
    ∧ (cell.net.cells.get (9, 63)).ue = false
    ∧ (homeOp 9 (.get 63) cell).foreignAt 9 (packet 9 0 true (.cmdDone 0)) = false
    ∧ answered 9 (after (.beaconOpApply 9) (homeOp 9 (.get 63) cell)) = [.beaconAns (.value 7) (.core 8) 77] := by decide +kernel
theorem witness_flag_wait_holds : (WaitCond.geu 7).holds 7 = true ∧ (WaitCond.geu 7).holds 6 = false
    ∧ answered 9 (after (.beaconOpApply 9) (homeOp 9 (.wait 63 (.geu 7)) cell)) = [.beaconAns (.value 7) (.core 8) 77] := by decide +kernel
theorem witness_flag_set : cell.net.watches = .const none
    ∧ ((after (.beaconOpApply 9) (homeOp 9 (.set 63 0xFFFFFFFF) cell)).net.cells.get (9, 63)).v = 0xFFFFFFFF := by decide +kernel
/-- A notify increment wraps. -/
theorem witness_flag_notify :
    ((after (.beaconOpApply 9) (homeOp 9 (.notify 63) (after (.beaconOpApply 9) (homeOp 9 (.set 63 0xFFFFFFFF) cell)))).net.cells.get (9, 63)).v = 0 := by
  decide +kernel
theorem witness_flag_wait : (WaitCond.eq 8).holds 7 = false
    ∧ ((after (.beaconOpApply 9) (homeOp 9 (.wait 63 (.eq 8)) cell)).net.watches.get (9, 0)).map (·.tag) = some 77 := by decide +kernel

/-- BF.SET satisfies a watch; a wait that finds no free entry is turned away; a bad cell answers poison or 0, and a poisoned operation is not
performed. -/
theorem witness_flag_others :
    let w : Watch := ⟨false, 63, .eq 9, .core 8, 10, 78, some 0, some 5, true, none⟩
    let one : State := { cell with net := { cell.net with watches := cell.net.watches.set (9, 5) (some w) } }
    let full : State := { cell with net := { cell.net with watches := .const (some w) } }
    let bad : State := { cell with net := { cell.net with cells := cell.net.cells.set (9, 63) ⟨7, true, false⟩ } }
    let p : Packet := { packet 9 0 true (.beacon (.set 63 9) (.core 8) 77) with src := 10, poison := true }
    let ill : State := { cell with net := { cell.net with home := cell.net.home.set 9 [p] } }
    (after (.beaconOpApply 9) (homeOp 9 (.set 63 9) one)).net.watches.get (9, 5) = some { w with answer := some 9 }
      ∧ (after (.beaconOpApply 9) (homeOp 9 (.set 63 9) one)).net.answersDue.get 9 = [5]
      ∧ answered 9 (after (.beaconOpApply 9) (homeOp 9 (.wait 63 (.eq 8)) full)) = [.beaconAns .noWatch (.core 8) 77]
      ∧ answered 9 (after (.beaconOpApply 9) (homeOp 9 (.get 63) bad)) = [.beaconAns .poison (.core 8) 77]
      ∧ answered 9 (after (.beaconOpApply 9) (homeOp 9 (.set 63 1) bad)) = [.beaconAns (.value 0) (.core 8) 77]
      ∧ answered 9 (after (.beaconOpApply 9) ill) = [.beaconAns .poison (.core 8) 77] := by decide +kernel

/-- Counter 3 of node 9 at the last generation, with two arrivals of three. -/
def counter : State := { owned with net := { owned.net with counters := owned.net.counters.set (9, 3) ⟨0xFFFF, 2, some 3, false, false⟩ } }

theorem witness_barrier : counter.net.scheds = []
    ∧ ((after (.beaconOpApply 9) (homeOp 9 (.arrive 3 3) counter)).net.counters.get (9, 3)) = ⟨0, 0, none, false, false⟩
    ∧ ((after (.beaconOpApply 9) (homeOp 9 (.arrive 2 3) counter)).net.counters.get (9, 2)) = ⟨0, 1, some 3, false, false⟩
    ∧ answered 9 (after (.beaconOpApply 9) (homeOp 9 (.arrive 3 4) counter)) = [.beaconAns .barrierTrap (.core 8) 77] := by decide +kernel

theorem witness_barrier_wait :
    answered 9 (after (.beaconOpApply 9) (homeOp 9 (.barWait 3 0) counter)) = [.beaconAns (.value 0xFFFF) (.core 8) 77]
      ∧ ((after (.beaconOpApply 9) (homeOp 9 (.barWait 3 0xFFFF) counter)).net.watches.get (9, 0)).map (·.cond) = some (.gen 0xFFFF)
      ∧ answered 9 (after (.beaconOpApply 9) (homeOp 9 (.arrive 3 0) counter)) = [.beaconAns .barrierTrap (.core 8) 77] := by decide +kernel

/-- Locks 0 to 7 of die 0 belong to partition 0; lock 0 is FREE, lock 1 held by core 8, lock 2 BROKEN. -/
def locked : State :=
  let s := withReqs [request 5] (withReg ⟨.glbLockmap, 0, 0, 0⟩ 0x8080808080808080 owned)
  { s with comp := { s.comp with
      locks := (s.comp.locks.set 1 ⟨1, 6, 0, 0, 0, 0, 8, false, false⟩).set 2 ⟨2, 0xFFFFFFFF, 3, 0, 0, 0, 4, false, false⟩ } }

theorem witness_lock_free : locked.lockAssigned 0 0 0 = true
    ∧ ((after (.beaconOpApply 0) (homeOp 0 (.lkAcq 0) locked)).comp.locks.get 0) = ⟨1, 1, 0, 0, 0, 0, 8, false, false⟩ := by decide +kernel
theorem witness_lock_held : (locked.comp.locks.get 1).st = 1
    ∧ answered 0 (after (.beaconOpApply 0) (homeOp 0 (.lkAcq 1) locked)) = [.beaconAns (.value 0x600000001) (.core 8) 77] := by decide +kernel
theorem witness_lock_broken : (locked.comp.locks.get 2).st = 2
    ∧ answered 0 (after (.beaconOpApply 0) (homeOp 0 (.lkAcq 2) locked)) = [.beaconAns (.value (3 * 2 ^ 13 + 4 * 2 ^ 4 + 2)) (.core 8) 77] := by
  decide +kernel
theorem witness_lock_release : ((after (.beaconOpApply 0) (homeOp 0 (.lkRel 1 6) locked)).comp.locks.get 1).st = 0
    ∧ answered 0 (after (.beaconOpApply 0) (homeOp 0 (.lkRel 1 5) locked)) = [.beaconAns (.value 1) (.core 8) 77] := by decide +kernel

theorem witness_lock_foreign : locked.lockAssigned 0 8 0 = false
    ∧ [BOp.lkAcq 8, .lkRel 8 1, .lkInfo 8].all (fun o => decide (answered 0 (after (.beaconOpApply 0) (homeOp 0 o locked))
        = [.beaconAns .targetTrap (.core 8) 77])) = true := by decide +kernel

/-- Watch 4 of node 9 is due; watch 5 waits. -/
def watched : State := { owned with net := { owned.net with
  watches := (owned.net.watches.set (9, 4) (some ⟨false, 1, .eq 1, .core 8, 10, 77, some 0, some 5, true, some 1⟩)).set (9, 5)
    (some ⟨false, 1, .eq 9, .core 8, 10, 78, some 0, some 5, true, none⟩)
  answersDue := owned.net.answersDue.set 9 [4] } }

theorem witness_watch_answer : watched.net.answersDue.get 9 = [4]
    ∧ ((after (.watchAnswer 9) watched).net.watches.get (9, 4)) = none
    ∧ answered 9 (after (.watchAnswer 9) watched) = [.beaconAns (.value 1) (.core 8) 77] := by decide +kernel
theorem witness_watch_cancel : ((after (.watchCancel 9) (homeOp 9 (.cancel 78) watched)).net.watches.get (9, 5)) = none
    ∧ ((after (.watchCancel 9) (homeOp 9 (.cancel 77) watched)).net.watches.get (9, 4)).isSome = true := by decide +kernel

/-- Core 0 with `a` in x5 and `b` in x6. -/
def operands (a b : Word) (s : State) : State := s.modCore 0 (fun k => (k.setReg 5 a).setReg 6 b)

/-- Cell 5 of node 12, and 3. -/
def flagCore : State := operands (12 * 64 + 5) 3 (coreRuns owned)

theorem witness_flag_issue : (flagCore.coreReq 0).map (·.id) = some 5 ∧ flagCore.beaconNode 0 12 = true
    ∧ flagOperand ((flagCore.comp.cores.get 0).reg 5).toNat = some (12, 5) ∧ (flagCore.comp.cores.get 0).stores = 0
    ∧ [Instr.bfGet 0 7 5 false, .bfSet 0 7 5 6 false true, .bfWaitEq 0 7 5 6 false, .bfWaitNe 0 7 5 6 false, .bfWaitGeu 0 7 5 6 false].map
        (fun i => answered 9 (after i flagCore))
      = [BOp.get 5, .set 5 3, .wait 5 (.eq 3), .wait 5 (.ne 3), .wait 5 (.geu 3)].map (fun o => [.beacon o (.core 0) 0]) := by decide +kernel

/-- A flag operand names cell and node with bits 13:0, a barrier operand with bits 11:0, a lock operand with bits 9:0, and a count with
bits 15:0. -/
theorem test_operand_bounds : flagOperand 0x3FFF = some (0xFF, 0x3F) ∧ flagOperand 0x4000 = none ∧ barrierOperand 0xFFF = some (0xFF, 0xF)
    ∧ barrierOperand 0x1000 = none ∧ lockOperand 0x3FF = some (3, 255) ∧ lockOperand 0x400 = none ∧ countOperand 0xFFFF = some 0xFFFF
    ∧ countOperand 0x10000 = none := by decide

theorem witness_barrier_issue :
    let s := operands (12 * 16 + 15) 3 (coreRuns owned)
    barrierOperand ((s.comp.cores.get 0).reg 5).toNat = some (12, 15) ∧ countOperand ((s.comp.cores.get 0).reg 6).toNat = some 3
      ∧ [Instr.barArrive 0 7 5 6, .barWait 0 7 5 6].map (fun i => answered 9 (after i s))
        = [BOp.arrive 15 3, .barWait 15 3].map (fun o => [.beacon o (.core 0) 0]) := by decide +kernel
theorem witness_lock_issue :
    let s := operands 255 3 (coreRuns owned)
    lockOperand ((s.comp.cores.get 0).reg 5).toNat = some (0, 255)
      ∧ [Instr.lkAcq 0 7 5, .lkRel 0 7 5 6, .lkInfo 0 7 5].map (fun i => answered 9 (after i s))
        = [BOp.lkAcq 255, .lkRel 255 3, .lkInfo 255].map (fun o => [.beacon o (.core 0) 0]) := by decide +kernel

/-- Core 0 waits at a flag of node 12 since TICK 1,000 less its limit. -/
def waiting (poll : Bool) : State :=
  (coreRuns owned).modCore 0 (fun k => { k with zwaitlim := 900, wait := .watch 12 5 false (.eq 3) 7 773 (2 ^ 64 + 100) 44 (if poll then some 0 else none) true 0x1000 })

theorem witness_wait_poll : ((coreRuns owned).findReq 5).map (·.step) = some .run
    ∧ answered 9 (after (.waitPoll 0) (waiting true)) = [.beacon (.wait 5 (.eq 3)) (.core 0) 0] := by decide +kernel
theorem witness_wait_timeout : (waiting false).since 0 (2 ^ 64 + 100) = 900
    ∧ ((after (.waitTimeout ⟨0, none⟩) (waiting false)).comp.cores.get 0).mcause = 25
    ∧ ((after (.waitTimeout ⟨0, none⟩) (waiting false)).comp.cores.get 0).mtval = 773
    ∧ answered 9 (after (.waitTimeout ⟨0, none⟩) (waiting false)) = [.beacon (.cancel 44) .none 0] := by decide +kernel

/-- An interrupt ends the wait with a cancel; the core traps at the wait, and its request goes on (R184). -/
theorem witness_wait_interrupt :
    let s := (waiting false).modCore 0 (fun k => { k with mode := .u })
    (s.comp.cores.get 0).loads = []
      ∧ (fun k : Core => (k.mcause, k.mepc, k.mode)) ((after (.waitTimeout ⟨0, some 63⟩) s).comp.cores.get 0)
        = ((0x800000000000003F : Word), (0x1000 : Word), Mode.m)
      ∧ ((after (.waitTimeout ⟨0, some 63⟩) s).findReq 5).map (·.step) = some .run
      ∧ answered 9 (after (.waitTimeout ⟨0, some 63⟩) s) = [.beacon (.cancel 44) .none 0] := by decide +kernel

/-- A wait for a barrier polls with its generation, and a core polls once a tick. -/
theorem witness_wait_poll_barrier :
    let s := (coreRuns owned).modCore 0 (fun k => { k with wait := .watch 12 5 true (.gen 9) 7 773 900 44 (some 999) false 0xFFC })
    answered 9 (after (.waitPoll 0) s) = [.beacon (.barWait 5 9) (.core 0) 0]
      ∧ ((after (.waitPoll 0) (s.modCore 0 (fun k => { k with wait := .watch 12 5 true (.gen 9) 7 773 900 44 (some 1000) false 0xFFC }))).net.inject.get 9)
        = [] := by decide +kernel

theorem witness_tick_read : ((coreRuns owned).coreReq 0).isSome = true ∧ (coreRuns owned).cmdUnderWay 0 = false
    ∧ ((after (.ztTick 0 31) (coreRuns owned)).comp.cores.get 0).reg 31 = 1000
    ∧ ((after (.ztTick 0 0) (coreRuns owned)).comp.cores.get 0).reg 0 = 0
    ∧ [Instr.ztTick 0 0, .zfAll 0, .zfCmd 0, .zfHost 0].all (fun i => decide (((after i (coreRuns owned)).comp.cores.get 0).pc = 0x1004)) = true := by
  decide +kernel

/-- Core 0 of a request on model 2, which lies on SC 2, with the SPR at 0x1000. -/
def commands (tgt : Word) : State :=
  let s := withReqs [{ request 5 with model := 2, sprVa := 0x1000 }] (operands tgt 0x1000 (coreRuns owned))
  let s1 := s.modCore 0 (fun k => (k.setReg 10 tgt).setReg 11 0x1000)
  { s1 with comp := { s1.comp with models := [⟨0, 2, [⟨2, 0, 4096⟩], 1, 0, false, .const 0, []⟩] } }

theorem witness_command_issue :
    let r : Request := { request 5 with model := 2, sprVa := 0x1000 }
    ((commands 11).coreReq 0 = some r) ∧ (commands 11).issueTrap r .te 11 0x1000 = none ∧ (commands 13).issueTrap r .sua 13 0x1000 = none
      ∧ (commands 12).issueTrap r .rlu 12 0x1000 = none
      ∧ targetOperand 12 = some (12, none) ∧ targetOperand (12 + 2 ^ 22) = some (12, some 0) ∧ targetOperand (2 ^ 23) = none
      ∧ nearPair (coreNode 0) (.node 13) 1 = none
      ∧ [(Instr.cmdTe 0 5 6, (11 : Word), CmdKind.te), (.cmdSua 0 5 6, 13, .sua), (.cmdRlu 0 5 6, 12, .rlu)].all (fun (i, n, k) =>
          decide (answered 9 (after i (commands n)) = [.cmd k ⟨0, 5, 0x1000, none, false⟩])) = true := by decide +kernel

/-- Calls of the copy engine and of steering. -/
theorem witness_ecall_issue :
    let r : Request := { request 5 with model := 2, sprVa := 0x1000 }
    (commands 12).issueTrap r .copy 12 0x1000 = none ∧ (commands 2).issueTrap r .steer 2 0x1000 = none
      ∧ answered 9 (after (.copyEcall 0) ((commands 12).modCore 0 (fun k => k.setReg 17 0x0100))) = [.cmd .copy ⟨0, 5, 0x1000, none, false⟩]
      ∧ answered 9 (after (.steerEcall 0) ((commands 2).modCore 0 (fun k => k.setReg 17 0x0101))) = [.cmd .steer ⟨0, 5, 0x1000, none, false⟩] := by
  decide +kernel

/-- A DVA of the device page in x5. -/
def accessing : State := operands 0x100 7 (coreRuns owned)

/-- A form of access with the flags of a plain instruction of 4 bytes. -/
def plain (op : MemOp) : AccessForm := ⟨op, false, false, false⟩

theorem witness_core_load : (accessing.comp.cores.get 0).loads = [] ∧ (accessing.comp.cores.get 0).irq = none
    ∧ ((accessing.mem.nodes.get 9).hit 0 0x108).isSome = true
    ∧ passes (accessing.gate (accessor 0 9 .core (some 5)) .read false 0x108) = true
    ∧ passes (accessing.gate (accessor 0 9 .core (some 5)) .write false 0x108) = true
    ∧ homeNode 0x20000108 ≠ 9 ∧ nearPair 9 (.node (homeNode 0x20000108)) 1 = none
    ∧ answered 9 (after (.coreAccess 0 (plain .load) 3 false 7 5 6 8) accessing) = [.mem ⟨.load, 0x20000108, 3, false, 7, 0x108, none⟩ 0 0]
    ∧ answered 9 (after (.coreAccess 0 (plain .store) 3 false 7 5 6 8) accessing) = [.mem ⟨.store, 0x20000108, 3, false, 7, 0x108, none⟩ 0 0]
    ∧ (fun k : Core => (k.pc, k.loads.length)) ((after (.coreAccess 0 (plain .load) 3 false 7 5 6 8) accessing).comp.cores.get 0) = (0x1004, 1)
    ∧ (fun k : Core => (k.pc, k.stores)) ((after (.coreAccess 0 ⟨.store, true, false, false⟩ 3 false 7 5 6 8) accessing).comp.cores.get 0) = (0x1002, 1)
    ∧ (fun k : Core => (k.pc, decide (k.wait = .none))) ((after (.coreAccess 0 (plain .lr) 3 false 7 5 6 8) accessing).comp.cores.get 0)
      = (0x1000, false) := by
  decide +kernel

/-- DVA 0x400000 is CMEM of SC 0 at node 9. -/
def ownCmem : State :=
  let e : CacheEnt := ⟨⟨0, 0x400000, true⟩, 2 ^ 63 + 7 * 2 ^ 52 + 0x810000 * 2 ^ 16 + 127 * 2 ^ 8, [], false⟩
  (operands 0x400000 7 (coreRuns owned)).modMem (fun m => { m with nodes := .const ⟨[e], [], []⟩ })

/-- An access to the core's own CMEM is performed once its bank serves it, and waits while it does not. -/
theorem witness_core_cmem : homeNode (cmemAddr 0 0) = coreNode 0 ∧ placeOf (cmemAddr 0 0) = .cmem 0 0 ∧ cmemBanks 0 8 = [0]
    ∧ passes (ownCmem.gate (accessor 0 9 .core (some 5)) .write false 0x400000) = true
    ∧ (ownCmem.askBanks 0 0 0x1000 [0]).1 = true
    ∧ (after (.coreAccess 0 (plain .store) 3 false 7 5 6 0) ownCmem).mem.mem.bytes (cmemAddr 0 0) 8 = [7, 0, 0, 0, 0, 0, 0, 0]
    ∧ ((after (.coreAccess 0 (plain .store) 3 false 7 5 6 0) ownCmem).comp.cores.get 0).pc = 0x1004
    ∧ (let busy : State := { ownCmem with net := { ownCmem.net with bankUsed := ownCmem.net.bankUsed.set 0 (1000, 7) } }
       (busy.askBanks 0 0 0x1000 [0]).1 = false
         ∧ ((after (.coreAccess 0 (plain .store) 3 false 7 5 6 0) busy).comp.cores.get 0).pc = 0x1000) := by decide +kernel

/-- Core 0 holds the line of its CMEM in both caches. -/
def cached : State :=
  ownCmem.modCore 0 (fun k => { k with
    pc := 0x400000
    icache := [⟨cmemAddr 0 0, [0x13, 0, 0, 0] ++ List.replicate 60 0, false⟩], dcache := [⟨cmemAddr 0 0, List.replicate 64 0xFF, false⟩] })

theorem witness_core_caches :
    ((after (.coreAccess 0 (plain .load) 3 true 7 5 6 0) cached).comp.cores.get 0).reg 7 = BitVec.allOnes 64
      ∧ ((after (.coreAccess 0 (plain .fetch) 0 false 0 0 0 0) cached).comp.cores.get 0).fetched = some (0x400000, [0x13, 0, 0, 0])
      ∧ (cached.comp.cores.get 0).fenceOk 0xFF = true
      ∧ ((after (.coreAccess 0 (plain .fence) 0 false 0 0 0 0xFF) cached).comp.cores.get 0).pc = 0x400004 := by decide +kernel

theorem witness_core_misaligned : (accessing.coreReq 0).isSome = true
    ∧ ((after (.coreAccess 0 (plain .load) 3 false 7 5 6 4) accessing).comp.cores.get 0).mcause = 4
    ∧ ((after (.coreAccess 0 (plain .store) 3 false 7 5 6 4) accessing).comp.cores.get 0).mcause = 6
    ∧ ((after (.coreAccess 0 (plain .store) 3 false 7 5 6 4) accessing).comp.cores.get 0).mtval = 0x104 := by decide +kernel

/-- A store to a page that may not be written fails its check with mcause 15. -/
theorem witness_core_page_fault :
    let s := ownCmem.modMem (fun m => { m with nodes := .const ⟨[⟨⟨0, 0x400000, true⟩, 2 ^ 63 + 4 * 2 ^ 52 + 0x810000 * 2 ^ 16 + 127 * 2 ^ 8, [], false⟩], [], []⟩ })
    passes (s.gate (accessor 0 9 .core (some 5)) .write false 0x400000) = false
      ∧ ((after (.coreAccess 0 (plain .store) 3 false 7 5 6 0) s).comp.cores.get 0).mcause = 15 := by decide +kernel

theorem witness_illegal : encodingLegal .m 0 = false ∧ encodingLegal .u 0x13 = true
    ∧ ((after (.illegalInstruction 0 0) accessing).comp.cores.get 0).mcause = 2
    ∧ ((after (.illegalInstruction 0 0) accessing).comp.cores.get 0).mepc = 0x1000 := by decide +kernel

/-- Encodings of the RISC-V base: ADDI x7, x5, -1; its compressed form C.ADDI x5, -1. In M-mode, CSRRS of mscratch
and MRET. -/
theorem test_computations : ((accessing.comp.cores.get 0).holds 0xFFF28393) = true ∧ encodingLegal .u 0xFFF28393 = true
    ∧ ((after (.illegalInstruction 0 0xFFF28393) accessing).comp.cores.get 0).reg 7 = 0xFF
    ∧ (fun k : Core => (k.reg 5, k.pc)) ((after (.illegalInstruction 0 0x12FD) accessing).comp.cores.get 0) = (0xFF, 0x1002) := by decide +kernel
theorem test_machine_mode :
    let s := accessing.modCore 0 (fun k => { k with mode := .m, mepc := 0x2000, mscratch := 5 })
    ((after (.illegalInstruction 0 0x340023F3) s).comp.cores.get 0).reg 7 = 5
      ∧ ((after (.illegalInstruction 0 0x30200073) s).comp.cores.get 0).pc = 0x2000 := by decide +kernel

/-- Operands with a bit outside their fields, a count of 0 and a command for a foreign node trap with their own causes, and the request ends. -/
theorem witness_operand_traps :
    let bad := operands 0x4000 3 (coreRuns owned)
    let none_ := operands (12 * 16 + 15) 0 (coreRuns owned)
    [Instr.bfGet 0 7 5 false, .bfSet 0 7 5 6 false false, .bfWaitEq 0 7 5 6 true, .bfWaitNe 0 7 5 6 true, .bfWaitGeu 0 7 5 6 true,
        .barArrive 0 7 5 6, .barWait 0 7 5 6, .lkAcq 0 7 5, .lkRel 0 7 5 6, .lkInfo 0 7 5].all
        (fun i => decide ((fun k : Core => (k.mcause, k.mtval)) ((after i bad).comp.cores.get 0) = ((24 : Word), (0x4000 : Word)))) = true
      ∧ ((after (.barArrive 0 7 5 6) none_).comp.cores.get 0).mcause = 26
      ∧ ((after (.cmdTe 0 5 6) (commands 13)).findReq 5).map (·.step) = some .ending
      ∧ ((after (.cmdSua 0 5 6) (commands 11)).findReq 5).map (·.step) = some .ending
      ∧ ((after (.cmdRlu 0 5 6) (commands 11)).findReq 5).map (·.step) = some .ending := by decide +kernel

/-! ### Tensor engines -/

/-- Fields (offset, bytes, value) of a record at a DVA of the device page. -/
def withRecord (va : Nat) (fields : List (Nat × Nat × Nat)) (s : State) : State :=
  fields.foldl (fun s f => withBytes (va + f.1) (leBytes f.2.1 f.2.2) s) s

/-- A descriptor of a 1 by 1 matrix of a type at a base (R266, R267). -/
def matrix (va ty base : Nat) (s : State) : State :=
  withRecord va [(0, 1, ty), (1, 1, 2), (8, 8, base), (64, 4, 1), (68, 4, 1), (96, 4, 1), (100, 4, 1)] s

/-- Core 0's request has a command at DVA 0x1000 in the queue of TE 0. -/
def teQueued (s : State) : State := (coreRuns s).modTe 0 (fun t => { t with queue := [⟨0, 5, 0x1000, none, false⟩] })

/-- 3 times -2 of INT8 into an INT32 at 0x1480: the record, three descriptors, two elements. -/
def product : State :=
  teQueued (withBytes 0x1440 [0xFE] (withBytes 0x1400 [3] (matrix 0x1300 9 0x1480 (matrix 0x1200 1 0x1440 (matrix 0x1100 1 0x1400
    (withRecord 0x1000 [(0, 1, 1), (1, 1, 1), (2, 1, 1), (4, 1, 2), (8, 4, 1), (12, 4, 1), (16, 4, 1), (24, 8, 0x1100), (32, 8, 0x1200),
      (40, 8, 0x1300), (64, 8, 0x14C0)] owned))))))

/-- The command that TE 0 executes. -/
def teCur (s : State) : TeRun := ((s.comp.tes.get 0).cur).getD ⟨⟨0, 0, 0, none, false⟩, [], none, none, none, none, [], none, [], [], [], [], 0, [],
  0, .none, false, .const RowSum.empty, [], 0, none⟩

/-- TICK of die 0 moves to a value. -/
def atTick (t : Word) (s : State) : State := { s with sys := { s.sys with clk := s.sys.clk.modify 0 (fun c => { c with tick := t }) } }

theorem witness_te_arrive :
    let x : CmdRef := ⟨0, 5, 0x1000, none, false⟩
    let s := { owned with net := { owned.net with inbox := owned.net.inbox.set 11 [packet 11 1 true (.cmd .te x)] } }
    ((s.takeInbox 11 (Packet.isCmd .te)).map (fun y => y.1.payload)) = some (.cmd .te x)
      ∧ ((after (.teCommandArrive 0) s).comp.tes.get 0).queue = [x] := by decide +kernel

theorem witness_matmul :
    let x : CmdRef := ⟨0, 5, 0x1000, none, false⟩
    let r := product.readRecord (product.teAcc 0 x) x 128 64
    (product.comp.tes.get 0).cur = none ∧ product.cmdHeld x = false
      ∧ (match r.1 with
         | .ok b => decide (byteAt b 0 = 1) && passes (r.2.loadMatmul 0 x b)
         | _ => false) = true
      ∧ (teCur (after (.matmul 0) product)).next = 0 ∧ ((after (.matmul 0) product).comp.tes.get 0).queue.length = 1 := by decide +kernel

/-- The command begun, and its tile streaming since TICK 1,000. -/
def begun : State := after (.matmul 0) product
def streaming : State := after (.tileStreamStart 0 0) begun

theorem witness_tile_stream :
    let r := teCur begun
    let c := parseTe r.record
    r.code = none ∧ c.op = 1 ∧ r.next < c.tileCount ∧ r.inFlight = [] ∧ (begun.comp.tes.get 0).lastStream < begun.teCycle 0 0
      ∧ r.preTd = none ∧ r.aTd.isSome = true ∧ r.bTd.isSome = true
      ∧ (match begun.tileOperands (begun.teAcc 0 r.cmd) r c (r.aTd.getD (parseTd 0 [])) (r.bTd.getD (parseTd 0 [])) [0] [0] with
         | (.ok (a, b, _), _, s1) => decide (a.length = 1) && decide (b.length = 1) && decide ((s1.comp.tes.get 0).cur = some r)
         | _ => false) = true
      ∧ (teCur streaming).inFlight.map (fun t => (t.start, t.accs)) = [(5000, [.i48 (-6)])] := by decide +kernel

theorem witness_tile_complete :
    let s := atTick 1003 streaming
    (teCur s).inFlight.map (fun t => (t.complete, decide (t.start + (parseTe (teCur s).record).streamLen + 11 ≤ s.teCycle 0 0))) = [(none, true)]
      ∧ (teCur (after (.tileComplete 0 0) s)).inFlight.map (·.complete) = [some 5015]
      ∧ (teCur (after (.tileComplete 0 0) (atTick 1002 streaming))).inFlight.map (·.complete) = [none] := by decide +kernel

/-- The tile complete, in the tick after. -/
def complete : State := atTick 1004 (after (.tileComplete 0 0) (atTick 1003 streaming))

theorem witness_tile_drain :
    let r := teCur complete
    let tile := r.inFlight.headD ⟨0, 0, 0, none, [], [], .none⟩
    let acc := complete.teAcc 0 r.cmd
    r.code = none ∧ tile.complete = some 5015 ∧ 5015 < complete.teCycle 0 0 ∧ (complete.comp.tes.get 0).lastDrain < complete.teCycle 0 0
      ∧ r.quantBuf = [] ∧ (parseTe r.record).outFmt ≠ 5 ∧ r.chain = none
      ∧ (match complete.placeAll acc (r.outTd.getD (parseTd 0 [])) (drainPlain (parseTe r.record) [0] [0] tile r.rowSums).elems r.owners [] with
         | (.ok l, _, s1) => decide ((s1.flushBytes acc l).1 = none)
         | _ => false) = true
      ∧ (teCur (after (.tileDrainStart 0 0) complete)).tilesDone = 1
      ∧ (after (.tileDrainStart 0 0) complete).mem.mem.bytes 0x20001480 4 = [0xFA, 0xFF, 0xFF, 0xFF] := by decide +kernel

/-- The tile of a DENSE command, complete; its drain sends values and writes no memory. -/
def denseTile : State := complete.modTe 0 (fun t => { t with cur := t.cur.map (fun r => { r with record := r.record.set 4 5 }) })

theorem witness_tile_drain_dense : (parseTe (teCur denseTile).record).outFmt = 5 ∧ (teCur denseTile).code = none
    ∧ (teCur (after (.tileDrainStart 0 0) denseTile)).tilesDone = 1 ∧ (teCur (after (.tileDrainStart 0 0) denseTile)).inFlight = []
    ∧ (after (.tileDrainStart 0 0) denseTile).mem.mem.bytes 0x20001480 4 = [0, 0, 0, 0] := by decide +kernel

/-- A second tile streams while the first has not drained, and a third does not. -/
theorem witness_tile_second :
    let wide (n : Nat) (s : State) : State := s.modTe 0 (fun t => { t with cur := t.cur.map (fun r => { r with record := r.record.set 12 (BitVec.ofNat 8 n) }) })
    let s := atTick 1100 (wide 250 streaming)
    (parseTe (teCur s).record).tileCount = 2 ∧ (teCur s).inFlight.length = 1 ∧ (s.comp.tes.get 0).lastDrain < s.teCycle 0 0
      ∧ (teCur (after (.tileStreamStart 0 0) s)).inFlight.length = 2
      ∧ (teCur (after (.tileStreamStart 0 0) (atTick 1200 (after (.tileStreamStart 0 0) s)))).inFlight.length = 2 := by decide +kernel

/-- The tile done, after its drain. -/
def drained : State := atTick 2000 (after (.tileDrainStart 0 0) complete)

theorem witness_te_end :
    let r := teCur drained
    r.code = none ∧ r.next ≠ 0 ∧ r.inFlight = [] ∧ r.quantBuf = [] ∧ r.lastWrite < drained.teCycle 0 0 ∧ r.tilesDone ≠ 0
      ∧ (parseTe r.record).statusVa % 16 = 0 ∧ r.cmd.notify = none
      ∧ (drained.agWriteCode (drained.teAcc 0 r.cmd) 0x14C0 (teStatus 0 .none false 1 0)).1 = none
      ∧ ((after (.teCommandEnd 0 0) drained).comp.tes.get 0).cur = none
      ∧ (after (.teCommandEnd 0 0) drained).mem.mem.bytes 0x200014C4 4 = [1, 0, 0, 0] := by decide +kernel

/-- The end of a command: one that failed, one with no tile done, and its notify increment. -/
theorem witness_te_end_others :
    let failed := begun.modTe 0 (fun t => { t with cur := t.cur.map (fun r => { r with code := some Code.teCmdFormat.val }) })
    ((after (.teCommandEnd 0 0) failed).comp.tes.get 0).cur = none
      ∧ (after (.teCommandEnd 0 0) failed).mem.mem.bytes 0x200014C8 8 = leBytes 8 1000
      ∧ (answered 11 (drained.endCmd 11 ⟨0, 5, 0x1000, some 0x305, false⟩)).getLast? = some (.beacon (.notify 5) (.notify 0 5) drained.net.nextId)
      ∧ ((drained.endCmd 11 ⟨0, 5, 0x1000, none, false⟩).comp.cores.get 0).cmds = (drained.comp.cores.get 0).cmds - 1 := by decide +kernel

/-- A held tile of a QUANT, due now: one FP8 value at 0x1480 with its scale at 0x14A0. -/
def held : State := begun.modTe 0 (fun t => { t with cur := some { teCur begun with
  quantBuf := [⟨5000, 0, 0, [XVal.zero], 0x14A0, 0x3F800000⟩] } })

theorem witness_quant_write :
    let r := teCur held
    let acc := held.teAcc 0 r.cmd
    r.code = none ∧ r.outTd.isSome = true
      ∧ (match held.placeAll acc (r.outTd.getD (parseTd 0 [])) [([0, 0], leVal (stageBytes 6 XVal.zero))] r.owners [] with
         | (.ok l, _, s1) => (match s1.placePlain acc 0x14A0 (leBytes 4 0x3F800000) l with
           | (.ok l1, s2) => decide ((s2.flushBytes acc l1).1 = none)
           | _ => false)
         | _ => false) = true
      ∧ (teCur (after (.quantTileWrite 0 0) held)).quantBuf = []
      ∧ (after (.quantTileWrite 0 0) held).mem.mem.bytes 0x200014A0 4 = [0, 0, 0x80, 0x3F] := by decide +kernel

/-- A COMBINE of one value of INT48, -6. -/
def combining : State :=
  teQueued (withBytes 0x1400 (leBytes 8 (2 ^ 64 - 6)) (matrix 0x1300 9 0x1480
    (withRecord 0x1100 [(0, 1, 10), (1, 1, 3), (8, 8, 0x1400), (64, 4, 1), (68, 4, 1), (96, 4, 1), (100, 4, 1), (128, 4, 1), (132, 4, 1)]
    (withRecord 0x1000 [(0, 1, 2), (1, 1, 10), (4, 1, 2), (8, 4, 1), (12, 4, 1), (16, 4, 1), (24, 8, 0x1100), (40, 8, 0x1300), (64, 8, 0x14C0)]
      owned))))

theorem witness_combine :
    let x : CmdRef := ⟨0, 5, 0x1000, none, false⟩
    let r := combining.readRecord (combining.teAcc 0 x) x 128 64
    (match r.1 with
     | .ok b => decide (byteAt b 0 = 2) && passes (r.2.loadCombine 0 x (parseTe b))
     | _ => false) = true
      ∧ (teCur (after (.combine 0) combining)).tilesDone = 1
      ∧ (after (.combine 0) combining).mem.mem.bytes 0x20001480 4 = [0xFA, 0xFF, 0xFF, 0xFF] := by decide +kernel

theorem witness_integer_fast : accumulate .int16 (.i48 0) [(XVal.ofInt 3, XVal.ofInt (-2))] = (.i48 (-6), .none) := by decide +kernel

/-! ### Stochastic unit arrays -/

/-- Fields (offset, bytes, value) in the coupling store of SC 0. -/
def withCst (fields : List (Nat × Nat × Nat)) (s : State) : State :=
  fields.foldl (fun s f => s.pokeMem (cstAddr 0 f.1) (leBytes f.2.1 f.2.2)) s

/-- A program of 4 sweeps on model 2 in 2 replicas, with one step of inverse temperatures (R72). -/
def program : Program :=
  { model := 2, spr := leBytes 2 2 ++ [2, 1] ++ leBytes 4 4 ++ zeros 8 ++ [2] ++ zeros 5 ++ [1] ++ zeros 105, betas := leBytes 8 1 ++ zeros 16, replicas := 2
    n := 0, sweeping := false, full := false, clsDone := .const 0, sent := .const 0, exch := .const .idle, seqPos := .const 0, repSent := .const 0, owed := [], pos := [0, 1], energies := [], energyAt := none
    roundDue := false, restarts := 0, exchRounds := 0, attempts := [0], accepts := [0], samples := 0, samplesFull := false, trace := 0
    traceFull := false, counted := 0, margSat := false, marg := .const 0, best := none, nonGibbs := false, liveKey := none, finished := false
    endTick := 0, stopAt := none, stopped := false }

/-- Request 5 runs `g` on model 2, which lies on SC 0: two binary units in two classes, the second a dense target (R44, R45). `order` is the
update order of its header. -/
def sampling (order : Nat) (g : Program) : State :=
  let s := withReqs [{ request 5 with model := 2, prog := some g, seed := zeros 16 }] (withCst [(0, 1, 2), (6, 1, 2), (7, 1, order), (8, 1, 2), (12, 1, 2), (24, 1, 64),
    (28, 1, 96), (32, 1, 96), (36, 1, 96), (40, 1, 96), (44, 1, 112), (86, 1, 1), (87, 1, 2), (116, 1, 1)] owned)
  { s with comp := { s.comp with
      models := [⟨0, 2, [⟨0, 0, 128⟩], 2, 2, false, .const 0, [0, 1]⟩]
      suas := s.comp.suas.set 0 { Sua.reset with running := some 5, fields := Sua.reset.fields.set 1 10, shadows := Sua.reset.shadows.set 1 4 } } }

/-- The program of request 5. -/
def prog (s : State) : Program := ((s.findReq 5).bind (·.prog)).getD program

/-- Model 2 of partition 0 and its site. -/
def model (s : State) : Model := (s.findModel 0 2).getD ⟨0, 0, [], 0, 0, false, .const 0, []⟩
def site (s : State) : Site := s.siteOf ⟨0, 0, 128⟩

/-- The program in its first sweep. -/
def sweeping (g : Program) : Program := { g with n := 1, sweeping := true, full := true }

theorem witness_dense :
    let s := sampling 0 program
    let t := { s with comp := { s.comp with denseIn := s.comp.denseIn.set 0 [⟨0, 2, 1, 0, 7⟩] } }
    s.denseSlot 0 0 2 1 0 = some 1 ∧ s.denseSlot 0 0 2 0 0 = none ∧ s.denseSlot 0 0 2 2 0 = none ∧ s.denseSlot 0 0 2 1 2 = none
      ∧ ((after (.denseContribution 0) t).comp.suas.get 0).fields.get 1 = 13
      ∧ ((after (.denseContribution 0) t).comp.suas.get 0).shadows.get 1 = 7 := by decide +kernel

/-- A contribution without a slot, and none at all. -/
theorem witness_dense_none :
    let s := sampling 0 program
    let t := { s with comp := { s.comp with denseIn := s.comp.denseIn.set 0 [⟨0, 2, 0, 0, 7⟩] } }
    (after (.denseContribution 0) t).comp.denseIn.get 0 = [] ∧ ((after (.denseContribution 0) t).comp.suas.get 0).fields.get 1 = 10
      ∧ s.comp.denseIn.get 0 = [] ∧ runs (.denseContribution 0) s = true := by decide +kernel

/-- A flip record at SC 0: halo index 3, replica 1, state 1. -/
def flipped (order : Nat) : State :=
  let s := sampling order { sweeping program with sent := (Tbl.const 0).set 0 1 }
  { s with net := { s.net with inbox := s.net.inbox.set 9 [packet 9 2 true (.flip 2 5 (2 ^ 28 + 2 ^ 22 + 3))] } }

theorem witness_flip : ((flipped 0).takeInbox 9 Packet.isFlip).isSome = true ∧ (site (flipped 0)).h.order = 0
    ∧ ((flipped 0).modelOn (model (flipped 0)) 0) = some (site (flipped 0)) ∧ (model (flipped 0)).id = 2
    ∧ (model (after (.flipRecordReceive 0) (flipped 0))).halo.get (0, 3, 1) = 1
    ∧ (prog (after (.flipRecordReceive 0) (flipped 0))).sent.get 0 = 0 := by decide +kernel
theorem witness_flip_owed : (site (flipped 2)).h.order = 2 ∧ (prog (flipped 2)).clsDone.get 0 = 0
    ∧ (prog (after (.flipRecordReceive 0) (flipped 2))).owed = [⟨0, 3, 1, 1⟩] := by decide +kernel

/-- A poisoned flip record, none at all, and an uncorrectable error in the stores of the SUA. -/
theorem witness_flip_ends :
    let poisoned := { flipped 0 with net := { (flipped 0).net with
      inbox := (flipped 0).net.inbox.set 9 [{ packet 9 2 true (.flip 2 5 (2 ^ 28 + 2 ^ 22 + 3)) with poison := true }] } }
    let bad := { flipped 0 with comp := { (flipped 0).comp with
      suas := (flipped 0).comp.suas.set 0 { (flipped 0).comp.suas.get 0 with ue := true } } }
    (((after (.flipRecordReceive 0) poisoned).findReq 5).bind (·.err)).isSome = true
      ∧ (((after (.flipRecordReceive 0) bad).findReq 5).bind (·.err)).isSome = true
      ∧ (sampling 0 program).takeInbox 9 Packet.isFlip = none ∧ runs (.flipRecordReceive 0) (sampling 0 program) = true := by decide +kernel

theorem witness_sweep_start :
    let s := sampling 0 { program with n := 1 }
    (prog s).n + 1 ≤ (parseSpr (prog s).spr).sweeps ∧ s.sitesReady 5 (model s) = true ∧ s.mapArrived 5 = true
      ∧ (prog s).endTick < s.extTick 0 ∧ (parseSpr (prog s).spr).segStart 2 ≠ 2
      ∧ (prog (after (.sweepStart 5) s)).n = 2 ∧ (prog (after (.sweepStart 5) s)).sweeping = true := by decide +kernel

/-- The first sweep of a segment evaluates in full from the states of the ZCG; a REPLAY of step 0 stops. -/
theorem witness_segment_start :
    let s := sampling 0 program
    let r := (s.findReq 5).getD (request 5)
    let t := after (.sweepStart 5) s
    (parseSpr (prog s).spr).segStart 1 = 1 ∧ (model s).sites = [⟨0, 0, 128⟩] ∧ (site s).h.nLocal = 2 ∧ (prog t).full = true
      ∧ t.unitState (site s) 1 1 = initState (site s).h (zcgUnitWord .init ((prog s).key r) (s.gidx (site s) 1) 1 1) % 16
      ∧ (prog (after (.sweepStart 5) (sampling 0 { program with stopAt := some 0 }))).stopped = true := by decide +kernel

theorem witness_class_phase :
    let s := sampling 0 (sweeping program)
    (s.comp.suas.get 0).running = some 5 ∧ (s.comp.suas.get 0).ue = false ∧ s.modelOn (model s) 0 = some (site s) ∧ (site s).sc = 0
      ∧ (site s).h.order = 0 ∧ (site s).h.potts = false ∧ (site s).h.classes = 2 ∧ s.mem.mem.marks.entries = []
      ∧ s.classUnits (site s) 0 = [0] ∧ s.classUnits (site s) 1 = [1]
      ∧ (prog (after (.classPhaseStart 0 0) s)).clsDone.get 0 = 1
      ∧ (after (.classPhaseStart 0 0) s).unitState (site s) 1 1 = 0 := by decide +kernel

/-- A phase of the synchronous and of the sequential order, and one of an SUA whose stores hold an uncorrectable error. -/
theorem witness_class_phase_orders :
    let s (order : Nat) := sampling order (sweeping program)
    let bad := { s 0 with comp := { (s 0).comp with suas := (s 0).comp.suas.set 0 { (s 0).comp.suas.get 0 with ue := true } } }
    (s 0).phaseDue (prog (s 0)) (model (s 0)) (site (s 0)) 0 = true ∧ (s 2).phaseDue (prog (s 2)) (model (s 2)) (site (s 2)) 0 = true
      ∧ (s 1).phaseDue (prog (s 1)) (model (s 1)) (site (s 1)) 0 = true
      ∧ (prog (after (.classPhaseStart 0 0) (s 2))).clsDone.get 0 = 64 ∧ (prog (after (.classPhaseStart 0 0) (s 2))).nonGibbs = true
      ∧ (prog (after (.classPhaseStart 0 0) (s 1))).clsDone.get 0 = 64 ∧ (prog (after (.classPhaseStart 0 0) (s 1))).seqPos.get 1 = 2
      ∧ (((after (.classPhaseStart 0 0) bad).findReq 5).bind (·.err)).isSome = true := by decide +kernel

theorem witness_sweep_end :
    let s := sampling 0 { sweeping program with clsDone := (Tbl.const 0).set 0 2 }
    let p := parseSpr (prog s).spr
    (∀ x ∈ (model s).sites, (s.siteOf x).h.classes ≤ (prog s).clsDone.get x.sc ∧ s.exchanged (prog s) (model s) x.sc = true)
      ∧ s.seqDone (prog s) (model s) = true ∧ p.energyPoint 1 = false ∧ p.counted 1 = false
      ∧ p.sampled 1 = false ∧ p.exchEvery = 0 ∧ p.segStart 2 ≠ 2 ∧ (prog (after (.sweepEnd 5) s)).sweeping = false := by decide +kernel

/-- The end of a sweep that is an energy point, of one with a round due, of the last one, and of one at which a REPLAY stops. -/
theorem witness_sweep_end_others :
    let g := { sweeping program with clsDone := (Tbl.const 0).set 0 2 }
    let s (g : Program) := after (.sweepEnd 5) (sampling 0 g)
    let round := { g with spr := leBytes 2 2 ++ [2, 1] ++ leBytes 4 4 ++ zeros 4 ++ [1] ++ zeros 9 ++ [1] ++ zeros 105 }
    (prog (s { g with n := 4 })).finished = true ∧ (prog (s { g with n := 4 })).counted = 1
      ∧ (prog (s { g with n := 4 })).energies.length = 2 ∧ (prog (s { g with n := 4 })).energyAt = some 4
      ∧ (prog (s round)).roundDue = true ∧ (prog (s round)).finished = false
      ∧ (prog (s { g with stopAt := some 1 })).stopped = true := by decide +kernel

/-- The program with an exchange round after every sweep, due after the first. -/
def exchanging : Program :=
  { program with spr := leBytes 2 2 ++ [2, 1] ++ leBytes 4 4 ++ zeros 4 ++ [1] ++ zeros 9 ++ [1] ++ zeros 105, n := 2, roundDue := true, energies := [0, 0]
                 energyAt := some 2 }

theorem witness_exchange :
    let s := sampling 0 exchanging
    (parseSpr (prog s).spr).exchEvery = 1 ∧ (prog s).n < (parseSpr (prog s).spr).sweeps ∧ (parseSpr (prog s).spr).segStart 3 ≠ 3
      ∧ exchangePairs 2 2 = [0] ∧ (prog (after (.exchangeRound 5) s)).exchRounds = 1
      ∧ (prog (after (.exchangeRound 5) s)).attempts = [1] := by decide +kernel

/-- A round after the last sweep finishes the program. -/
theorem witness_exchange_last :
    (prog (after (.exchangeRound 5) (sampling 0 { exchanging with n := 4 }))).finished = true
      ∧ (prog (after (.exchangeRound 5) (sampling 0 exchanging))).finished = false := by decide +kernel

/-- Adjacent positions swap; the others stay. -/
theorem test_swap_positions : swapPos [0, 1, 2, 3] [0, 2] = [1, 0, 3, 2] ∧ exchangePairs 1 4 = [1] := by decide +kernel

/-! ### Memories, row logic and copies -/

/-- The four refresh commands, in a quiet tick and in another. -/
theorem witness_hbm_refresh :
    let busy := { owned with mem := { owned.mem with hbmBusy := owned.mem.hbmBusy.set 0 (some (1000, 5, 9)) } }
    let next (k : HbmRef) (s : State) : Nat := (after (.hbmRefresh 0 31 k 31) s).mem.hbmNext.get 31
    owned.unitUp 0 28 = true ∧ owned.quiet 0 = true ∧ next .perBank owned = 32 ∧ next (.allBank false) owned = 0
      ∧ busy.quiet 0 = false
      ∧ next (.allBank false) busy = 0 ∧ next .management owned = 0 := by decide +kernel

theorem witness_hbm_temperature :
    let t := after (.hbmTemperatureReadout 1 90) owned
    t.mem.hbmTemp.get 1 = 90 ∧ (t.sys.warden.sensors.get 18).1 = 90 := by decide +kernel

/-- The first refresh of a bank is due in the cycle of its bank number times 2; a held bank postpones it. -/
theorem witness_edram_refresh :
    let held := owned.modRlu 0 (fun r => { r with running := [⟨⟨0, 5, 0, none, false⟩, [], [], 31, 0, 0, [], [], [], false, none, 0⟩] })
    refreshCycle 0 31 = 62 ∧ 62 ≤ 4 * owned.tickOf 0 ∧ 4 * (atTick 14 owned).tickOf 0 + 3 < 62
      ∧ owned.bankHeld 0 31 = false ∧ held.bankHeld 0 31 = true ∧ owned.ras.corrections = []
      ∧ ((after (.edramRefresh 0 31 3) owned).mem.edramBusy.get 31) = 4011
      ∧ ((after (.edramRefresh 0 31 3) held).comp.rlus.get 0).postponed.get 31 = 1 := by decide +kernel

/-- A word of the coupling store of SC 0 with an error, and a correction of it in the queue. -/
def marked (e : ErrMark) (poison : Bool) : State :=
  let w := wordAt (cstAddr 0 0x3FFFF8)
  { owned with
    mem := { owned.mem with mem := { owned.mem.mem with marks := owned.mem.mem.marks.set w e } }
    ras := { owned.ras with corrections := [⟨corrBank w, [w], poison⟩] } }

theorem witness_correction : ((marked .ce false).ras.corrections.find? (fun x => x.bank == corrBank (cstAddr 0 0x3FFFF8))).isSome = true
    ∧ (after (.correctionWrite (.cst 0 0x3FFFF8)) (marked .ce false)).mem.mem.marks.get? (wordAt (cstAddr 0 0x3FFFF8)) = none
    ∧ (after (.correctionWrite (.cst 0 0x3FFFF8)) (marked .ue true)).mem.mem.marks.get? (wordAt (cstAddr 0 0x3FFFF8)) = some .poison := by
  decide +kernel
theorem witness_scrub : (marked .ce false).unitUp 0 0 = true
    ∧ (after (.scrubVisit (.cst 0 0x3FFFF8)) (marked .ce false)).mem.mem.marks.get? (wordAt (cstAddr 0 0x3FFFF8)) = none
    ∧ ((after (.scrubVisit (.cst 0 0x3FFFF8)) (marked .ce false)).ras.units.get 0).ce = 1
    ∧ (marked .ce false).mem.mem.marks.get? (wordAt (cstAddr 0 0)) = none
    ∧ ((after (.scrubVisit (.cst 0 0)) (marked .ce false)).ras.units.get 0).ce = 0 := by decide +kernel

/-- An uncorrectable error with no limit set, in the line of a model and in a free line; a scrub of an eDRAM word by a correction does
nothing. -/
theorem witness_scrub_ue :
    let w := wordAt (cstAddr 0 64)
    let free (s : State) : State := withReg ⟨.rasScrubctl, 0, 0, 0⟩ 0 s
    let s := free { sampling 0 program with mem := { (sampling 0 program).mem with mem := { (sampling 0 program).mem.mem with
      marks := (sampling 0 program).mem.mem.marks.set w .ue } } }
    s.lineOwner w = .part 0 ∧ (marked .ue false).lineOwner (wordAt (cstAddr 0 0x3FFFF8)) = .free ∧ s.appF .rasScrubctl 0 0 0 63 56 = 0
      ∧ (after (.scrubVisit (.cst 0 64)) s).mem.mem.marks.get? w = some .poison
      ∧ (after (.scrubVisit (.cst 0 0x3FFFF8)) (free (marked .ue false))).mem.mem.marks.get? (wordAt (cstAddr 0 0x3FFFF8)) = none
      ∧ placeOf (refAddr (.dpa (edramAddr 0 64))) = .edram 0 64 := by decide +kernel

/-- Page tables of partition 0 on die 0 in which DVA 0 is the page of `devPage`; core 0 waits for it. -/
def walking : State :=
  let put (off e : Nat) (s : State) : State := s.pokeMem (sysBase 0 + off) (leBytes 8 e)
  let s := put 0x7000 devPage (put 0x6000 (2 ^ 63 + 2 ^ 62 + 0x7000) (put 0x5000 (2 ^ 63 + 2 ^ 62 + 0x6000) (put 0x4000 (2 ^ 63 + 2 ^ 62 + 0x5000)
    (withReg ⟨.memPtbase, 0, 0, 0⟩ (2 ^ 63 + 0x4000) (coreRuns live)))))
  { s with mem := { s.mem with nodes := s.mem.nodes.set 9 ⟨[], [⟨0, 0x40, 0, [], 0⟩], []⟩ } }

theorem witness_table_walk : (walking.mem.nodes.get 9).walks = [⟨0, 0x40, 0, [], 0⟩] ∧ walking.walk 0 0 0x40 = .page devPage true
    ∧ (walking.mem.nodes.get 9).cache.length = 0
    ∧ ((after (.tableWalk 9) walking).comp.cores.get 0).xlat = some (⟨0, 0, true⟩, devPage, 0) := by decide +kernel

/-- No walk, and one whose first entry is not there. -/
theorem witness_table_walk_others :
    let lost := withReg ⟨.memPtbase, 0, 0, 0⟩ (2 ^ 63 + 0x9000) walking
    (walking.mem.nodes.get 11).walks = [] ∧ lost.walk 0 0 0x40 = .unmapped
      ∧ ((after (.tableWalk 9) lost).comp.cores.get 0).xlat = some ((WalkRes.unmapped).forCore 0 0x40)
      ∧ ((after (.tableWalk 9) lost).mem.nodes.get 9).cache = [] := by decide +kernel

/-- A command of core 0 at node 12. -/
def atSlice (k : CmdKind) : State :=
  { owned with net := { owned.net with inbox := owned.net.inbox.set 12 [packet 12 1 true (.cmd k ⟨0, 5, 0x1000, none, false⟩)] } }

theorem witness_slice_queue : ((atSlice .rlu).takeInbox 12 (Packet.isCmd .rlu)).isSome = true
    ∧ ((atSlice .copy).takeInbox 12 (Packet.isCmd .copy)).isSome = true
    ∧ ((after (.rluCommandArrive 0) (atSlice .rlu)).comp.rlus.get 0).queue.length = 1
    ∧ ((after (.copyArrive 0) (atSlice .copy)).comp.copies.get 0).queue.length = 1 := by decide +kernel

/-- A queue of 16: the next command is refused. -/
theorem witness_slice_queue_full :
    let x : CmdRef := ⟨0, 5, 0x1000, none, false⟩
    let s (k : CmdKind) : State := let s := withRecord 0x1000 [(8, 8, 0x1480), (16, 8, 0x1480)] (atSlice k)
      { s with comp := { s.comp with rlus := s.comp.rlus.set 0 { Rlu.reset with queue := List.replicate 16 x }
                                     copies := s.comp.copies.set 0 ⟨List.replicate 16 x, none⟩ } }
    passes ((s .rlu).agReadClean ((s .rlu).rluAcc 0 x) 0x1008 8) = true ∧ passes ((s .copy).agReadClean ((s .copy).copyAcc 0 x) 0x1010 8) = true
      ∧ ((after (.rluCommandArrive 0) (s .rlu)).comp.rlus.get 0).queue.length = 16
      ∧ (after (.rluCommandArrive 0) (s .rlu)).mem.mem.bytes 0x20001480 2 = leBytes 2 Code.rluQueueFull.val.toNat
      ∧ (after (.copyArrive 0) (s .copy)).mem.mem.bytes 0x20001480 2 = leBytes 2 Code.copyQueueFull.val.toNat := by decide +kernel

/-- DVA 0x400000 is a page of the first slice of die 0. -/
def sliced : State :=
  (coreRuns owned).modMem (fun m => { m with nodes := m.nodes.modify 12 (fun n => { n with
    cache := n.cache ++ [⟨⟨0, 0x400000, true⟩, 2 ^ 63 + 7 * 2 ^ 52 + edramAddr 0 0 + 127 * 2 ^ 8, [], false⟩] }) })

/-- A row command of one copy in the queue of MS 0: row 0 of bank 0 to row 1 of it. -/
def rowQueued : State :=
  (withRecord 0x1000 [(0, 1, 1), (1, 1, 2), (8, 8, 0x1480), (64, 8, 0x400000), (72, 8, 0x408000), (80, 1, 1), (82, 1, 1)] sliced).modRlu 0
    (fun r => { r with queue := [⟨0, 5, 0x1000, none, false⟩] })

theorem witness_row_start :
    let x : CmdRef := ⟨0, 5, 0x1000, none, false⟩
    let s := { rowQueued with mem := { rowQueued.mem with edramNext := rowQueued.mem.edramNext.set 0 500 } }
    let acc := s.rluAcc 0 x
    (match (s.readRecord acc x 64 8).1 with
     | .ok h => decide (byteAt h 1 + byteAt h 0 = 3)
     | _ => false) = true
      ∧ ((s.agReadClean acc 0x1000 88).1.toOption.map (fun b => passes (s.loadRlu 0 x b))) = some true
      ∧ s.cmdHeld x = false ∧ s.bankHeld 0 0 = false ∧ 4003 < refreshCycle 500 0 ∧ s.mem.edramBusy.get 0 ≤ 4003
      ∧ ((after (.rluCommandStart 0 3) s).comp.rlus.get 0).running.map (fun r => (r.bank, r.ready, r.rows))
        = [(0, 4003, [edramAddr 0 0, edramAddr 0 32768])] := by decide +kernel

/-- A head that fails a check, one whose bank is held, and an empty queue. -/
theorem witness_row_start_others :
    let bad := withRecord 0x1000 [(2, 1, 1)] rowQueued
    let run : RluRun := ⟨⟨0, 5, 0x2000, none, false⟩, [], [], 0, 0, 0, [], [], [], false, none, 0⟩
    let held := rowQueued.modRlu 0 (fun r => { r with running := [run] })
    let bad := withRecord 0x1000 [(80, 1, 99)] bad
    bad.rowsRun = false ∧ ((after (.rluCommandStart 0 3) bad).comp.rlus.get 0).queue = []
      ∧ (after (.rluCommandStart 0 3) bad).mem.mem.bytes 0x20001480 2 = leBytes 2 Code.rluFormat.val.toNat
      ∧ held.bankHeld 0 0 = true ∧ ((after (.rluCommandStart 0 3) held).comp.rlus.get 0).queue.length = 1 ∧ (owned.comp.rlus.get 1).queue = [] := by decide +kernel

/-- A run of one operation on rows 0 and 1 of bank 0 of MS 0, ready in cycle 4,000; the first byte of row 0 is 0xA5. -/
def rowRun (op dst : Nat) : State :=
  let r : RluRun := ⟨⟨0, 5, 0x1000, none, false⟩, [1, 2] ++ zeros 6 ++ leBytes 8 0x1480 ++ zeros 64 ++ [BitVec.ofNat 8 op, 0, BitVec.ofNat 8 dst] ++ zeros 5,
    [rowAddr 0 0 0, rowAddr 0 0 1], 0, 0, 4000, zeros 1024, [], List.replicate 16 (some 0), false, none, 0⟩
  let s := sliced.pokeMem (rowAddr 0 0 0) [0xA5]
  { s with mem := { s.mem with edramNext := s.mem.edramNext.set 0 500 }, comp := { s.comp with rlus := s.comp.rlus.set 0 { Rlu.reset with running := [r] } } }

theorem witness_row_operation : ((rowRun 1 1).rluRunOf 0 0).map (fun r => (rluOps r.record)[0]?) = some (some ⟨1, false, false, 1, 0, 0, 0⟩)
    ∧ 4000 ≤ 4 * (rowRun 1 1).tickOf 0 + 3 ∧ 4000 < refreshCycle 500 0 ∧ ((rowRun 1 1).comp.rlus.get 0).postponed.get 0 < 7
    ∧ (rowRun 1 1).mem.mem.marks.entries = [] ∧ (rowRun 1 1).mem.mem.wf = true ∧ (zeros 1024).length = 1024
    ∧ (after (.rluCopy 0 0) (rowRun 1 1)).mem.mem.bytes (rowAddr 0 0 1) 2 = [0xA5, 0]
    ∧ ((after (.rluCopy 0 0) (rowRun 1 1)).rluRunOf 0 0).map (fun r => (r.next, r.ready)) = some (1, 4008) := by decide +kernel
theorem witness_popcount : ((rowRun 9 15).rluRunOf 0 0).map (fun r => (rluOps r.record)[0]?) = some (some ⟨9, false, false, 15, 0, 0, 0⟩)
    ∧ ((after (.rluPopcount 0 0) (rowRun 9 15)).rluRunOf 0 0).map (fun r => r.counts.getD 15 none) = some (some 4) := by decide +kernel

/-- A poisoned source of a copy poisons the word copied, one of a POPCOUNT its count. -/
theorem witness_row_poison :
    let p (op dst : Nat) : State := let s := rowRun op dst
      { s with mem := { s.mem with mem := { s.mem.mem with marks := s.mem.mem.marks.set (rowAddr 0 0 0 + 8) .poison } } }
    (after (.rluCopy 0 0) (p 1 1)).mem.mem.marks.get? (rowAddr 0 0 1 + 8) = some .poison
      ∧ ((after (.rluCopy 0 0) (p 1 1)).rluRunOf 0 0).map (·.saBad) = some [1]
      ∧ ((after (.rluPopcount 0 0) (p 9 15)).rluRunOf 0 0).map (fun r => r.counts.getD 15 (some 1)) = some none := by decide +kernel

/-- The results of R244 on a byte. -/
theorem test_row_bytes : [1, 2, 3, 4, 5, 6, 7, 8].map (fun op => rowByte op 0xCC 0xAA 0xF0)
    = [0xCC, 0, 0x33, 0x88, 0xEE, 0x66, 0x99, 0xE8] := by decide

theorem witness_row_end :
    let s := (rowRun 1 1).modRluRun 0 0 (fun r => { r with next := 1 })
    let x : CmdRef := ⟨0, 5, 0x1000, none, false⟩
    (s.rluRunOf 0 0).map (fun r => (decide ((parseRlu r.record).ops ≤ r.next), (parseRlu r.record).countVa, (parseRlu r.record).statusVa, r.poisonVa))
      = some (true, 0, 0x1480, none)
      ∧ (s.agWriteCode (s.rluAcc 0 x) 0x1480 (rluStatus 0 false false 1 0 999)).1 = none
      ∧ ((after (.rluCommandEnd 0 0) s).comp.rlus.get 0).running = []
      ∧ (after (.rluCommandEnd 0 0) s).mem.mem.bytes 0x20001480 16 = [0, 0, 0, 0, 1, 0, 0, 0, 0xE7, 3, 0, 0, 0, 0, 0, 0] := by decide +kernel

/-- The end of a command with a count slot, and of one with poison. -/
theorem witness_row_end_others :
    let done (f : RluRun → RluRun) : State := (rowRun 1 1).modRluRun 0 0 (fun r => f { r with next := 1 })
    let counted := done (fun r => { r with record := r.record.take 16 ++ leBytes 8 0x1500 ++ r.record.drop 24, counts := some 5 :: List.replicate 15 (some 0) })
    let bad := done (fun r => { r with poisonVa := some 0x400000 })
    ((counted.rluRunOf 0 0).map (fun r => (parseRlu r.record).countVa)) = some 0x1500
      ∧ (after (.rluCommandEnd 0 0) counted).mem.mem.bytes 0x20001500 4 = [5, 0, 0, 0]
      ∧ (after (.rluCommandEnd 0 0) bad).mem.mem.bytes 0x20001480 2 = leBytes 2 Code.memPoison.val.toNat := by decide +kernel

/-- A copy of one byte from 0x1400 to 0x1440 in the queue of MS 0. -/
def copyQueued : State :=
  let s := withBytes 0x1400 [0xA5] (matrix 0x1300 1 0x1440 (matrix 0x1200 1 0x1400
    (withRecord 0x1000 [(0, 8, 0x1200), (8, 8, 0x1300), (16, 8, 0x1480)] (coreRuns owned))))
  s.modCopy 0 (fun c => { c with queue := [⟨0, 5, 0x1000, none, false⟩] })

/-- The copy that MS 0 runs. -/
def copyCur (s : State) : CopyRun :=
  ((s.comp.copies.get 0).cur).getD ⟨⟨0, 0, 0, none, false⟩, [], parseTd 0 [], parseTd 0 [], [], 0, 0, false, 0, none⟩

theorem witness_copy_start :
    let x : CmdRef := ⟨0, 5, 0x1000, none, false⟩
    let acc := copyQueued.copyAcc 0 x
    copyQueued.cmdHeld x = false
      ∧ (match copyQueued.readRecord acc x 64 16 with
         | (.ok b, s1) => (match s1.readTds acc [fieldLe b 0 8, fieldLe b 8 8] with
           | (.ok [a, d], _) => copyOk a d
           | _ => false)
         | _ => false) = true
      ∧ ((after (.copyStart 0) copyQueued).comp.copies.get 0).cur.isSome = true := by decide +kernel

/-- The copy begun, and its one batch done. -/
def copying : State := after (.copyStart 0) copyQueued
def copied : State := atTick 1001 (after (.copyBatch 0) copying)

theorem witness_copy_batch :
    let r := copyCur copying
    let acc := copying.copyAcc 0 r.cmd
    let is := (upFrom 0 1).map r.src.indexOf
    r.code = none ∧ r.src.windowSize = 1 ∧ r.ready ≤ copying.extTick 0
      ∧ (match copying.copyReads acc r.src is ⟨r.owners, []⟩ with
         | (.ok vs, ow, s1) => (match s1.copyPlaces acc r.dst (is.zip vs) ow.owners [] 0 with
           | (.ok (l, _), _, s2) => decide ((s2.flushBytes acc l).1 = none)
           | _ => false)
         | _ => false) = true
      ∧ (copyCur copied).batch = 1 ∧ copied.mem.mem.bytes 0x20001440 1 = [0xA5] := by decide +kernel

theorem witness_copy_end :
    let r := copyCur copied
    r.code = none ∧ r.src.windowSize ≤ 256 * r.batch ∧ r.ready ≤ copied.extTick 0 ∧ r.poison = false ∧ fieldLe r.record 16 8 = 0x1480
      ∧ r.cmd.notify = none ∧ (copied.agWriteCode (copied.copyAcc 0 r.cmd) 0x1480 (copyStatus 0 false 0 1001)).1 = none
      ∧ ((after (.copyEnd 0) copied).comp.copies.get 0).cur = none := by decide +kernel

/-- A copy refused, one whose source is not mapped, and a busy or empty engine. -/
theorem witness_copy_others :
    let bad := matrix 0x1300 2 0x1440 copyQueued
    let lost := matrix 0x1200 1 0x800000 copyQueued
    let failed := after (.copyBatch 0) (after (.copyStart 0) lost)
    ((after (.copyStart 0) bad).comp.copies.get 0).cur = none
      ∧ (after (.copyStart 0) bad).mem.mem.bytes 0x20001480 2 = leBytes 2 Code.copyFormat.val.toNat
      ∧ (copyCur failed).code.isSome = true ∧ ((after (.copyEnd 0) failed).comp.copies.get 0).cur = none
      ∧ (copying.comp.copies.get 0).cur.isSome = true ∧ (owned.comp.copies.get 1).queue = [] := by decide +kernel

/-! ### Links and launch -/

/-- Two flits in flight from die 0 to die 1, the first of which has been resent `n` times, over a link at full width. -/
def replaying (n : Nat) : State :=
  let flit (seq due r : Nat) : LinkFlit := ⟨seq, packet 73 1 true (.cmdDone 0), 0, due, false, r, false⟩
  { owned with link := { owned.link with
      dirs := owned.link.dirs.set (dirKey 0 1) ⟨2, [flit 0 (2 ^ 67 - 8) n, flit 1 8004 0], [⟨.check, 999, 1010, false⟩], 0, 0⟩
      links := owned.link.links.set (linkKey 0 1) { Link.reset with st := .up32 } } }

/-- The direction from die 0 to die 1, and its link. -/
def dir01 (s : State) : LinkDir := s.link.dirs.get (dirKey 0 1)
def link01 (s : State) : Link := s.link.links.get (linkKey 0 1)

/-- A replay of the second of two flits delays it and the word behind it; one of the first, across the wrap of TICK, both flits. -/
theorem witness_link_replay : (replaying 7).linkUp 0 1 = true
    ∧ (dir01 (after (.linkReplay 0 ⟨1, 1⟩) (replaying 7))).flight.map (fun f => (f.due, f.replays)) = [(2 ^ 67 - 8, 7), (8052, 1)]
    ∧ (dir01 (after (.linkReplay 0 ⟨1, 1⟩) (replaying 7))).words = [⟨.check, 999, 1016, true⟩]
    ∧ (dir01 (after (.linkReplay 0 ⟨1, 0⟩) (replaying 7))).flight.map (fun f => (f.due, f.replays)) = [(40, 8), (8052, 0)]
    ∧ (link01 (after (.linkReplay 0 ⟨1, 1⟩) (replaying 7))).replaysHi = 1
    ∧ runs (.linkReplay 0 ⟨1, 2⟩) (replaying 7) = true ∧ runs (.linkReplay 0 ⟨0, 0⟩) (replaying 7) = true := by decide +kernel
theorem witness_link_degrade :
    let half := { replaying 8 with link := { (replaying 8).link with
      links := (replaying 8).link.links.set (linkKey 0 1) { Link.reset with st := .up16 } } }
    (link01 (after (.linkReplay 0 ⟨1, 0⟩) (replaying 8))).st = .training ∧ (link01 (after (.linkReplay 0 ⟨1, 0⟩) (replaying 8))).degrades = 1
      ∧ half.linkUp 0 1 = true ∧ (link01 (after (.linkReplay 0 ⟨1, 0⟩) half)).st = .down := by decide +kernel

/-- RETRAIN of link 1 of die 0 is set. -/
def retrainSet : State := withReg ⟨.netLinkctl, 0, 1, 0⟩ 1 (replaying 0)

theorem witness_retrain : retrainSet.appF .netLinkctl 0 1 0 0 0 = 1 ∧ (retrainSet.link.links.get (linkKey 0 1)).up = true
    ∧ retrainSet.dieFencedB 0 = false ∧ retrainSet.dieFencedB 1 = false
    ∧ ((after (.retrain 0 0) retrainSet).link.links.get (linkKey 0 1)).st = .training := by decide +kernel

/-- RETRAIN clear; and at die 0 the retrain of a link that is off. -/
theorem witness_retrain_idle : (replaying 0).appF .netLinkctl 0 1 0 0 0 = 0 ∧ (link01 (after (.retrain 0 0) (replaying 0))).st = .up32
    ∧ (link01 (after (.retrain 0 0) (withReg ⟨.netLinkctl, 0, 1, 0⟩ 1 State.reset))).st = .off := by decide +kernel

/-- A retrain of the link between dies 0 and 1 that began 2,048 ticks ago, with these errors of its halves. -/
def training (lo hi : Nat) : State :=
  let l : Link := { Link.reset with st := .training, retrainStart := some (2 ^ 64 + 1000 - 2048), errLo := lo, errHi := hi }
  { owned with link := { owned.link with links := owned.link.links.set (linkKey 0 1) l } }

theorem witness_retrain_end : (training 1 0).since 0 (2 ^ 64 + 1000 - 2048) = 2048 ∧ (training 1 0).halfOnly 0 1 = false
    ∧ [(true, true, true), (false, true, true), (false, true, false), (false, false, true), (false, false, false)].map (fun (f, l, h) =>
        let y := (after (.linkRetrainEnd 0 1 f l h) (training 1 0)).link.links.get (linkKey 0 1)
        (y.st, y.half))
      = [(.up32, false), (.up16, true), (.up16, false), (.up16, true), (.down, false)] := by decide +kernel

/-- One tick short of the 2,048. -/
theorem witness_retrain_end_early :
    let s := atTick 999 (training 1 0)
    s.since 0 (2 ^ 64 + 1000 - 2048) = 2047 ∧ (link01 (after (.linkRetrainEnd 0 1 true true true) s)).st = .training := by decide +kernel

/-- Request 5 over SCs of dies 0 and 1, launched for tick T. -/
def launching (l : Launch) (s : State) : State := withReqs [{ request 5 with nodes := [9, 11, 73], step := .launch, launch := l }] s

theorem witness_launch_notice :
    let s := launching ⟨false, 900, 2000, [], [], false, [], []⟩ owned
    let s1 := { s with net := { s.net with inbox := s.net.inbox.set 64 [packet 64 0 true (.launch 5 2000)] } }
    (s1.takeInbox (ctlNode 1) Packet.isLaunch).isSome = true ∧ s1.admitDie 0 = some 0
      ∧ ((after (.launchNotice 1) s1).net.inject.get 64).map (·.payload) = [.launchArmed 5 1] := by decide +kernel

/-- The notice of a barrier launch. -/
theorem witness_launch_notice_barrier :
    let s := launching ⟨true, 900, 0, [0], [], false, [], []⟩ owned
    let s1 := { s with net := { s.net with inbox := s.net.inbox.set 64 [packet 64 0 true (.launch 5 0)] } }
    ((after (.launchNotice 1) s1).findReq 5).map (·.launch.armed) = some [0, 1] := by decide +kernel

/-- At T less 16. -/
theorem witness_launch_go :
    let s (armed : List Nat) := launching ⟨false, 900, 1016, armed, [], false, [], []⟩ owned
    (s []).reached 0 ((1016 + 2 ^ 64 - 16) % 2 ^ 64) = true ∧ (launching ⟨false, 900, 1017, [], [], false, [], []⟩ owned).reached 0 1001 = false
      ∧ ((s []).findReq 5).map (·.dies) = some [0, 1]
      ∧ ((after (.launchGo 5) (s [0, 1])).findReq 5).map (fun q => (q.launch.goSent, q.step)) = some (true, .launch)
      ∧ ((after (.launchGo 5) (s [0])).findReq 5).map (·.step) = some .ending := by decide +kernel

theorem witness_launch_late :
    let s := launching ⟨false, 900, 1000, [0, 1], [], true, [], []⟩ owned
    let s1 := { s with net := { s.net with inbox := s.net.inbox.set 64 [packet 64 0 true (.launchGo 5 1000)] } }
    (s1.takeInbox (ctlNode 1) (Packet.isGo 5)).isSome = true
      ∧ ((after (.launchLate 5 1) s1).findReq 5).map (fun q => (q.step, q.err.map (·.2.1))) = some (.ending, some Code.launchLate.val) := by
  decide +kernel

theorem witness_launch_start :
    let s := launching ⟨false, 900, 1000, [0, 1], [0], true, [], []⟩ owned
    s.reached 0 1000 = true ∧ ((after (.launchStart 5 0) s).findReq 5).map (fun q => (q.step, q.launch.started)) = some (.run, [(0, 1000)])
      ∧ ((after (.launchStart 5 0) s).comp.cores.get 7).req = some 5 ∧ ((after (.launchStart 5 0) s).comp.cores.get 8).req = none := by
  decide +kernel

/-- Before T; and a replay whose stream input has a copy at DVA 0x5000. -/
theorem witness_launch_start_others :
    let s (q : Option ReplayOf) := withReqs [{ request 5 with
      nodes := [9, 11, 73], step := .launch, launch := ⟨false, 900, 1000, [0, 1], [0], true, [], []⟩, replay := q }] owned
    (s none).reached 0 1000 = true ∧ (atTick 999 (s none)).reached 0 1000 = false
      ∧ ((after (.launchStart 5 0) (atTick 999 (s none))).findReq 5).map (·.step) = some .launch
      ∧ ((after (.launchStart 5 0) (s (some ⟨0, 900, false, 0, 0, 0, some 0x5000⟩))).comp.cores.get 7).x.get 10 = 0x5000 := by decide +kernel

/-- At barrier, with READY of die 1 in hand. -/
theorem witness_launch_fire :
    let s := launching ⟨true, 900, 0, [0, 1], [], false, [(0, 900)], []⟩ owned
    let s := { s with link := { s.link with dirs := s.link.dirs.set (dirKey 1 0) ⟨0, [], [⟨.ready 5, 994, 1000, false⟩], 0, 0⟩ } }
    ((s.findReq 5).map (fun r => s.mayFire r 0)) = some true
      ∧ ((after (.launchFire 5 0) s).findReq 5).map (fun q => (q.step, q.launch.started)) = some (.run, [(0, 1000)]) := by decide +kernel
theorem witness_launch_not_fired :
    let s := launching ⟨true, 900, 0, [0, 1], [], false, [(0, 900)], []⟩ owned
    ((s.findReq 5).map (fun r => s.mayFire r 0)) = some false
      ∧ ((after (.launchFire 5 0) s).findReq 5).map (·.step) = some .launch := by decide +kernel
theorem witness_launch_ready :
    let s := launching ⟨true, 900, 0, [0, 1], [], false, [], []⟩ owned
    ((after (.launchReady 5 0) s).findReq 5).map (fun q => q.launch.selfReady) = some [(0, 1006)]
      ∧ (dir01 (after (.launchReady 5 0) s)).words = [⟨.ready 5, 1000, 1006, false⟩] := by decide +kernel

/-- A descriptor of request 5 with CQ 0 of partition 0 ACTIVE. -/
def described (r : Request) : State :=
  let s := withReqs [r] owned
  { s with req := { s.req with
      descs := [⟨1, 0, 0, 0, 1, zeros 64, 0x77, false, 0, 0, true, false, []⟩]
      rings := s.req.rings.set (ringKey 0 true 0) { Ring.reset with st := 1 } } }

theorem witness_request_end_error :
    let r : Request := { request 5 with step := .ending, err := some (1000, Code.coreTrap.val, 0, 0) }
    let s := described r
    let u := s.dropCmds 5
    u.reqBusy 5 = false ∧ u.findReq 5 = some r ∧ (u.req.descs.find? (fun x => x.id == 1)).map (·.orphan) = some false ∧ (u.ring 0 true 0).st = 1
      ∧ (r.err.map (fun e => decide (e.2.1 ≠ Code.schedAbsent.val ∧ e.2.1 ≠ 0))) = some true := by decide +kernel
theorem witness_request_end :
    let r : Request := { request 5 with launch := ⟨false, 0, 0, [], [], true, [], [(0, 900)]⟩ }
    let s := described r
    s.reqBusy 5 = false ∧ s.reqOver r = true ∧ r.prog = none ∧ (s.ring 0 true 0).st = 1 := by decide +kernel

/-- A program that has finished, with its model on SC 0. -/
theorem witness_request_end_program :
    let g := { program with finished := true, n := 4 }
    let r : Request := { request 5 with model := 2, prog := some g, outVa := 0x2000, outBytes := 0x1000, launch := ⟨false, 0, 0, [], [], true, [], [(0, 900)]⟩ }
    let s := { sampling 0 g with req := (described r).req }
    s.reqBusy 5 = false ∧ s.reqOver r = true ∧ (s.findModel 0 2).isSome = true ∧ r.step = .run := by decide +kernel

/-- A replay that has stopped, with its model on SC 0. -/
theorem witness_replay_stop :
    let g := { program with stopped := true, stopAt := some 0 }
    let r : Request := { request 5 with model := 2, prog := some g, replay := some ⟨0, 900, false, 0, 0, 0, none⟩ }
    let s := { sampling 0 g with req := (described r).req }
    let halted := r.cores.foldl State.haltCore (s.dropCmds 5)
    r.halted = true ∧ halted.reqBusy 5 = false ∧ (halted.findModel 0 2).isSome = true := by decide +kernel

/-- A trail ring of 2 records at DVA 0x10000 of which 1 or 2 are filled. -/
def trailed (write : Nat) : State :=
  withReg ⟨.detTrailbase, 0, 0, 0⟩ 0x10000 (withReg ⟨.detTrailctl, 0, 0, 0⟩ (2 ^ 63 + 1) (withReg ⟨.detTrailidx, 0, 0, 0⟩ (write * 2 ^ 32)
    (withReqs [{ request 5 with step := .done, trailDue := true }] owned)))

theorem witness_trail_room : (trailed 1).req.due = [] ∧ (trailed 1).admitDie 0 = some 0
    ∧ bitsOf ((trailed 1).appWord ⟨.detTrailidx, 0, 0, 0⟩) 63 32 = 1 ∧ (trailed 1).appF .detTrailbase 0 0 0 56 10 * 1024 = 0x10000
    ∧ ((trailed 1).agWriteCode (accessor 0 (ctlNode 0) .dma none) 0x10400 (zeros 1024)).1 = none := by decide +kernel
theorem witness_trail_full : bitsOf ((trailed 2).appWord ⟨.detTrailidx, 0, 0, 0⟩) 63 32 = 2
    ∧ ((after (.trailWrite 5) (trailed 2)).findReq 5) = none
    ∧ bitsOf ((after (.trailWrite 5) (trailed 2)).visWord ⟨.detTrailctl, 0, 0, 0⟩) 47 16 = 1 := by decide +kernel

/-- In a full ring with WRAP the oldest record makes room; a record whose address is not mapped is lost; one that is not due is not written. -/
theorem witness_trail_others :
    let wrap := withReg ⟨.detTrailctl, 0, 0, 0⟩ (2 ^ 63 + 2 ^ 8 + 1) (trailed 2)
    let lost := withReg ⟨.detTrailbase, 0, 0, 0⟩ 0x800000 (trailed 1)
    let off := withReqs [{ request 5 with step := .done, trailDue := false }] (trailed 1)
    (after (.trailWrite 5) wrap).appWord ⟨.detTrailidx, 0, 0, 0⟩ = 3 * 2 ^ 32 + 1
      ∧ (lost.agWriteCode (accessor 0 (ctlNode 0) .dma none) 0x800400 (zeros 1024)).1.isSome = true
      ∧ (after (.trailWrite 5) lost).findReq 5 = none
      ∧ (after (.trailWrite 5) off).appWord ⟨.detTrailidx, 0, 0, 0⟩ = 2 ^ 32 ∧ (after (.trailWrite 5) off).findReq 5 = none := by decide +kernel

/-! ### Stream ports and PTP -/

/-- An enabled SP 0 that takes raw frames of type 0x88B5, its link up, with a quota of 4,096 bytes for partition 0. -/
def port : State :=
  let s := withReg ⟨.strRxquota, 0, 0, 0⟩ 1 (withReg ⟨.strPortctl, 0, 0, 0⟩ (2 ^ 63 + 0x88B5 * 2 ^ 16 + 4) owned)
  s.modSp 0 (fun k => { k with linkUp := true })

/-- A frame of 64 bytes to the port with fragment `frag` of 3 of event 9 of stream 7, 10 bytes of payload. -/
def detFrame (dst version frag : Nat) : List Byte :=
  beBytes 6 dst ++ zeros 6 ++ [0x88, 0xB5] ++ leBytes 1 version ++ [0] ++ leBytes 2 10 ++ leBytes 4 7 ++ leBytes 8 9 ++ leBytes 2 frag ++ leBytes 2 3
    ++ zeros 8 ++ leBytes 4 0xFFFFFFFF ++ List.replicate 10 0xA5 ++ zeros 8

/-- The event 9 of three fragments, the first held, with storage at offset 0x40 and a deadline. -/
def event9 (got : List Nat) (deadline : Nat) : Event :=
  ⟨9, 3, false, 2, 0x40, got, 10, false, false, 0, 990, 990, 0, deadline, zeros 192⟩

/-- Stream 7 of SP 0, bound 100 ticks ago and silent since, with storage at DVA 0x4000 and records at 0x2000. -/
def stream7 (open_ : List Event) (closed : List ClosedEvent) : Binding :=
  { sp := 0, stream := 7, part := 0, ctxVa := 0x3000
    half := leBytes 4 7 ++ [0, 0, 4, 1] ++ leBytes 4 10 ++ leBytes 4 500 ++ leBytes 4 100 ++ [3, 0] ++ leBytes 2 (0x8000 + 12 * 64 + 5) ++ leBytes 8 0x2000
      ++ leBytes 8 0x4000 ++ leBytes 8 0x1000 ++ zeros 16
    haveEvent := true, stalled := false, lastEvent := 9, nextSeq := 0xFFFFFFFF, recWrite := 3, dataWrite := 0x80, lastRx := 900
    counters := List.replicate 16 0, writtenBack := zeros 192, refusalLogged := false, boundAt := 900, recRead := 0, dataRead := 0, unbound := false
    open_ := open_, closed := closed, armed := [] }

/-- SP 0 with this binding. -/
def bound (b : Binding) : State := { port with io := { port.io with bindings := [b] } }

/-- The binding of stream 7 after a step. -/
def now7 (s : State) : Option Binding := s.io.bindings.head?

/-- The count of a frame register of SP 0. -/
def counted (n : RegName) (s : State) : Nat := bitsOf (s.visWord ⟨n, 0, 0, 0⟩) 63 0

theorem witness_frame_port : bitOf (port.appWord ⟨.strPortctl, 0, 0, 0⟩) 63 = true ∧ (port.io.sps.get 0).linkUp = true ∧ port.dieServes 0 = true := by
  decide +kernel
theorem witness_frame_length : counted .strRxlen (after (.frameReceive 0 (zeros 63) true 1000) port) = 1
    ∧ counted .strRxlen (after (.frameReceive 0 (detFrame 0 1 0) true 1000) port) = 0 := by decide +kernel
theorem witness_frame_fcs : counted .strRxfcs (after (.frameReceive 0 (zeros 64) false 1000) port) = 1 := by decide +kernel
theorem witness_frame_pause : counted .strRxpause (after (.frameReceive 0 (zeros 12 ++ [0x88, 0x08] ++ zeros 50) true 1000) port) = 1 := by decide +kernel
theorem witness_frame_not_mine : counted .strRxnotmine (after (.frameReceive 0 (detFrame 1 1 0) true 1000) port) = 1 := by decide +kernel
theorem witness_frame_parse : frameHeader (0x88B5 * 2 ^ 16 + 4) (zeros 12 ++ [0x88, 0xB6] ++ zeros 50) = none
    ∧ counted .strRxparse (after (.frameReceive 0 (zeros 12 ++ [0x88, 0xB6] ++ zeros 50) true 1000) port) = 1 := by decide +kernel
theorem witness_frame_header : frameHeader (0x88B5 * 2 ^ 16 + 4) (detFrame 0 2 0) = some 14 ∧ (parseDet ((detFrame 0 2 0).drop 14)).inRange 14 = false
    ∧ counted .strRxhdr (after (.frameReceive 0 (detFrame 0 2 0) true 1000) port) = 1 := by decide +kernel
theorem witness_frame_unbound : (parseDet ((detFrame 0 1 0).drop 14)).inRange 14 = true ∧ port.binding 0 7 = none
    ∧ counted .strRxunbound (after (.frameReceive 0 (detFrame 0 1 0) true 1000) port) = 1 := by decide +kernel

/-- A fragment of an open event at the last tick before its deadline, with the quota filled exactly. -/
theorem witness_frame_fragment :
    let b := stream7 [event9 [0] 1001] []
    let s := (bound b).modSp 0 (fun k => { k with held := k.held.set 0 4032 })
    s.binding 0 7 = some b ∧ (s.io.sps.get 0).held.get 0 + 64 = s.rxQuota 0 0 ∧ atOrAfter 1000 1001 = false ∧ atOrAfter 1001 1001 = true
      ∧ (s.streamWrite (s.streamAgent 0 0) (b.storage (event9 [0] 1001) + 10) (List.replicate 10 0xA5)).1 = 0
      ∧ ((now7 (after (.frameReceive 0 (detFrame 0 1 1) true 1000) s)).map (fun k => (k.open_.map (·.got), k.nextSeq, k.lastRx))) = some ([[0, 1]], 0, 1000)
      ∧ (after (.frameReceive 0 (detFrame 0 1 1) true 1000) s).mem.mem.bytes 0x2000404A 1 = [0xA5] := by decide +kernel

/-- A frame of stream 7 with these flags, `len` bytes of payload, fragment `frag` of `count`, of event `event`. -/
def sent7 (flags len frag count event : Nat) : List Byte :=
  zeros 12 ++ [0x88, 0xB5, 1] ++ leBytes 1 flags ++ leBytes 2 len ++ leBytes 4 7 ++ leBytes 8 event ++ leBytes 2 frag ++ leBytes 2 count
    ++ zeros 8 ++ leBytes 4 0xFFFFFFFF ++ zeros 18

/-- A frame beyond the quota, a heartbeat, a wrong length, a refused event, another count, a fragment held, an old event, and a new one. -/
theorem witness_frame_counts :
    let b := stream7 [event9 [0] 2000] []
    let refused := stream7 [{ event9 [0] 2000 with refused := true }] []
    let go (b : Binding) (held : Nat) (f : List Byte) : Option Binding :=
      now7 (after (.frameReceive 0 f true 1000) ((bound b).modSp 0 (fun k => { k with held := k.held.set 0 held })))
    let count (n : Nat) (k : Option Binding) : Nat := (k.map (fun k => k.counters.getD n 0)).getD 0
    count 13 (go b 4033 (sent7 0 10 1 3 9)) = 1 ∧ count 0 (go b 0 (sent7 32 0 0 0 9)) = 1 ∧ count 10 (go b 0 (sent7 0 9 1 3 9)) = 1
      ∧ count 12 (go refused 0 (sent7 0 10 1 3 9)) = 1 ∧ count 11 (go b 0 (sent7 0 10 1 2 9)) = 1 ∧ count 9 (go b 0 (sent7 0 10 0 3 9)) = 1
      ∧ count 8 (go b 0 (sent7 0 10 0 3 8)) = 1
      ∧ (go (stream7 [] []) 0 (sent7 0 10 0 3 10)).map (fun k => (k.lastEvent, k.open_.map (·.fragCount))) = some (10, [3]) := by decide +kernel

/-- A PTP frame at a port with PTP_EN. -/
theorem witness_frame_ptp :
    let s := withReg ⟨.strPortctl, 0, 0, 0⟩ (2 ^ 63 + 2 ^ 8 + 4) port
    counted .strRxptp (after (.frameReceive 0 (beBytes 6 0x011B19000000 ++ zeros 6 ++ [0x88, 0xF7] ++ zeros 50) true 1000) s) = 1 := by decide +kernel

theorem witness_event_deadline : (bound (stream7 [event9 [0] 1000] [])).reached 0 1000 = true ∧ (event9 [0] 1000).complete = false
    ∧ ((now7 (after (.eventDeadline 0 7 9) (bound (stream7 [event9 [0] 1000] [])))).map (fun k => (k.open_, k.closed.map (·.status)))) = some ([], [2]) := by
  decide +kernel
theorem witness_event_close : (event9 [2, 0, 1] 2000).complete = true
    ∧ ((now7 (after (.eventClose 0 7 9) (bound (stream7 [event9 [2, 0, 1] 2000] [])))).map (fun k => (k.open_, k.closed.map (·.status)))) = some ([], [0]) := by
  decide +kernel

/-- Before the deadline, and with a fragment missing. -/
theorem witness_event_open :
    let b := bound (stream7 [event9 [0] 1001] [])
    b.reached 0 1001 = false ∧ ((now7 (after (.eventDeadline 0 7 9) b)).map (fun k => k.open_.length)) = some 1
      ∧ (event9 [0] 1001).complete = false ∧ ((now7 (after (.eventClose 0 7 9) b)).map (fun k => k.open_.length)) = some 1 := by decide +kernel

/-- The event closed, its record written or not. -/
def closed9 (written : Bool) : ClosedEvent := ⟨event9 [2, 0, 1] 2000, 0, 995, written, false⟩

theorem witness_event_record :
    let b := stream7 [] [closed9 false]
    ((bound b).closedBinding 0 7 (fun _ x => x.ev.num == 9 && !x.written)) = some b
      ∧ ((bound b).streamWrite ((bound b).streamAgent 0 0) (b.recordVa 2) (b.record (closed9 false))).1 = 0
      ∧ ((now7 (after (.eventRecordWrite 0 7 9) (bound b))).map (fun k => k.closed.map (·.written))) = some [true]
      ∧ (after (.eventRecordWrite 0 7 9) (bound b)).mem.mem.bytes 0x20002080 9 = [7, 0, 0, 0, 1, 0, 0, 0, 9] := by decide +kernel
theorem witness_event_notice :
    let b := stream7 [] [closed9 true]
    ((bound b).closedBinding 0 7 Binding.announces) = some b ∧ (bound b).admitDie 0 = some 0 ∧ bitOf b.h.notify 15 = true
      ∧ ((now7 (after (.eventNotice 0 7) (bound b))).map (fun k => k.closed.map (·.noticed))) = some [true]
      ∧ ((after (.eventNotice 0 7) (bound b)).net.inject.get 2).map (·.payload) = [.beacon (.notify 5) .none 0, .eventNotice 0 7 9 2] := by decide +kernel
theorem witness_stream_gap : (stream7 [] []).h.gap = 100 ∧ (bound (stream7 [] [])).since 0 900 = 100
    ∧ ((now7 (after (.strGap 0 7) (bound (stream7 [] [])))).map (fun k => (k.stalled, k.counters.getD 15 0))) = some (true, 1) := by decide +kernel

/-- A steering request of stream 7 at DVA 0x1000 has come to SP 0. -/
def steering : State :=
  let s := withRecord 0x1000 [(0, 1, 7), (40, 8, 0x1480)] (coreRuns (bound (stream7 [] [])))
  { s with net := { s.net with inbox := s.net.inbox.set 2 [packet 2 1 true (.cmd .steer ⟨0, 5, 0x1000, none, false⟩)] } }

theorem witness_steer_arrive :
    let x : CmdRef := ⟨0, 5, 0x1000, none, false⟩
    (steering.takeInbox 2 Packet.isSteer).isSome = true
      ∧ (match (steering.readRecord (steering.streamAgent 0 (steering.cmdPartition x)) x 64 40) with
         | (.ok b, s2) => s2.steerOk 0 0 b
         | _ => false) = true
      ∧ ((after (.steerArrive 0) steering).io.sps.get 0).steer.length = 1 := by decide +kernel
/-- A request that is not in form, one that finds 64, and one that comes while the link is down. -/
theorem witness_steer_refused :
    let q : SteerReq := ⟨⟨0, 5, 0x1000, none, false⟩, []⟩
    let bad := withRecord 0x1000 [(0, 1, 8)] steering
    let full := steering.modSp 0 (fun k => { k with steer := List.replicate 64 q })
    let down := steering.modSp 0 (fun k => { k with linkUp := false })
    (after (.steerArrive 0) bad).mem.mem.bytes 0x20001480 2 = leBytes 2 Code.strSteerFormat.val.toNat
      ∧ (after (.steerArrive 0) full).mem.mem.bytes 0x20001480 2 = leBytes 2 Code.strSteerFull.val.toNat
      ∧ (after (.steerArrive 0) down).mem.mem.bytes 0x20001480 2 = leBytes 2 Code.strTxDown.val.toNat
      ∧ counted .strTxdrop (after (.steerArrive 0) down) = 1 := by decide +kernel
theorem witness_steer_transmit :
    let q : SteerReq := ⟨⟨0, 5, 0x1000, none, false⟩, leBytes 4 7 ++ zeros 36 ++ leBytes 8 0x1480 ++ zeros 16⟩
    let s := steering.modSp 0 (fun k => { k with steer := [q], steerSeq := 0xFFFFFFFF })
    s.cmdHeld q.cmd = false ∧ fieldLe q.bytes 32 4 = 0 ∧ fieldLe q.bytes 40 8 % 16 = 0
      ∧ ((after (.steerTransmit 0) s).io.sps.get 0).steerSeq = 0 ∧ ((after (.steerTransmit 0) s).io.sps.get 0).steer = [] := by decide +kernel
theorem witness_stream_link : ((after (.strLinkDown ⟨0, true⟩) steering).io.sps.get 0).linkUp = false
    ∧ counted .strRxfcs (after (.strLinkDown ⟨0, true⟩) steering) = 1 ∧ counted .strRxfcs (after (.strLinkDown ⟨0, false⟩) steering) = 0
    ∧ (owned.io.sps.get 0).linkUp = false ∧ (owned.sys.clk.get 0).supplied = true
    ∧ ((after (.strLinkUp 0) owned).io.sps.get 0).linkUp = true := by decide +kernel
theorem witness_digest :
    let g : DigestDue := ⟨5, 0, 7, 9, 0, zeros 192, 0x4000, 1⟩
    let s := coreRuns (bound (stream7 [] []))
    let s1 := { s with io := { s.io with digests := [g] } }
    passes (s.agReadClean { (s1.streamAgent 0 0) with req := some 5 } 0x4000 1) = true ∧ g ∉ ([] : List DigestDue)
      ∧ (s1.findReq 5).map (·.inputs) = some [] := by decide +kernel

/-- A digest whose bytes are not mapped, or poisoned, ends its request. -/
theorem witness_digest_fails :
    let g (va : Nat) : DigestDue := ⟨5, 0, 7, 9, 0, zeros 192, va, 1⟩
    let s (va : Nat) : State := { coreRuns (bound (stream7 [] [])) with io := { (bound (stream7 [] [])).io with digests := [g va] } }
    let bad : State := { s 0x4000 with mem := { (s 0x4000).mem with mem := { (s 0x4000).mem.mem with
      marks := (s 0x4000).mem.mem.marks.set 0x20004000 .poison } } }
    let err (s : State) : Option Half := ((after (.digestFinal 0 7 9) s).findReq 5).bind (fun q => q.err.map (·.2.1))
    (s 0x4000).rowsRun = false ∧ err bad = some Code.memPoison.val ∧ (err (s 0x800000)).isSome = true ∧ err (s 0x4000) = none := by decide +kernel

/-- The PTP instance of die 0 enabled on SP 0, whose port takes PTP frames. -/
def ptpOn : State :=
  let s := withReg ⟨.strPtpctl, 0, 0, 0⟩ (2 ^ 63) (withReg ⟨.strPortctl, 0, 0, 0⟩ (2 ^ 63 + 2 ^ 8) port)
  { s with io := { s.io with ptp := s.io.ptp.set 0 { Ptp.reset with gen := 0xFFFF, syncTs := some (999, 7), delayReq := some (998, 6) } } }

/-- An Announce of grandmaster `gm` with first priority `p`, from sender `n`; die 0's instance after a message of domain 0. -/
def announce (p : Byte) (gm : Word) (n : Nat) : PtpBody := .announce ⟨p, 0, 0, 0, 0, gm, 0, n⟩
def ptpAfter (bs : List PtpBody) : Ptp := (bs.foldl (fun s b => after (.ptpMessage 0 ⟨0, b⟩) s) ptpOn).io.ptp.get 0

/-- The better Announce is the grandmaster's; a worse one changes nothing else; another domain counts only. -/
theorem witness_ptp : bitOf (ptpOn.appWord ⟨.strPtpctl, 0, 0, 0⟩) 63 = true ∧ (ptpOn.io.sps.get 0).linkUp = true
    ∧ (ptpAfter [announce 5 3 1]).grandmaster = 3 ∧ (ptpAfter [announce 5 3 1, announce 6 2 2]).grandmaster = 3
    ∧ (ptpAfter [announce 5 3 1, announce 4 2 2]).grandmaster = 2 ∧ (ptpAfter [announce 5 3 1, announce 6 2 2]).announces.length = 2
    ∧ ((after (.ptpMessage 0 ⟨1, announce 5 3 1⟩) ptpOn).io.ptp.get 0).grandmaster = 0
    ∧ counted .strRxptp (after (.ptpMessage 0 ⟨1, announce 5 3 1⟩) ptpOn) = 1
    ∧ counted .strRxptp (after (.ptpMessage 0 ⟨0, .other⟩) ptpOn) = 1 ∧ counted .strRxptp (after (.ptpMessage 0 ⟨0, .other⟩) port) = 0 := by
  decide +kernel
theorem witness_ptp_follow_up : (ptpOn.io.ptp.get 0).syncTs = some (999, 7) ∧ (ptpAfter [.followUp 5]).mapTick = 999
    ∧ (ptpAfter [.followUp 5]).gen = 0 ∧ (ptpAfter [.sync 990 1 5 false]).mapTick = 990 ∧ (ptpAfter [.sync 990 1 5 true]).syncTs = some (990, 1)
    ∧ (ptpAfter [.delayResp 8]).delay = some (998, 6, 8) := by decide +kernel
theorem witness_ptp_holdover : 2 ^ 28 ≤ ({ ptpOn with io := { ptpOn.io with ptp := ptpOn.io.ptp.set 0 { Ptp.reset with
      lastSync := 2 ^ 64 + 1000 - 2 ^ 28 } } } : State).since 0 (2 ^ 64 + 1000 - 2 ^ 28) ∧ (Ptp.reset).state ≠ 3 := by decide +kernel
theorem witness_delay_req : ((after (.delayReqTransmit 0 990 3) ptpOn).io.ptp.get 0).delayReq = some (990, 3)
    ∧ (after (.delayReqTransmit 0 990 3) ptpOn).io.outputs = [.delayReq 0] := by decide +kernel

/-! ### Host ports, Lantern and completion lines -/

/-- Port 0 runs CXL or not; function 0 serves partition 0. -/
def hosted (cxl : Bool) : State :=
  (withReg ⟨.hpFuncctl, 0, 0, 0⟩ (2 ^ 63) owned).modHp 0 (fun h => { h with cxl := cxl })

/-- Port 0 holds line 16 of doorbells, whose word 2 rings SQ 3 of partition 0. -/
def armed (cxl rereading : Bool) : State :=
  (hosted cxl).modHp 0 (fun h => { h with lantern := [⟨0, 16, [⟨2, 0, 3, false, 4⟩], rereading, 1000, false⟩] })

/-- A line whose word 2 holds 5. -/
def bell : List Byte := zeros 16 ++ leBytes 8 5 ++ zeros 40

/-- The notice that the doorbell makes. -/
def noticeOf (t : State) : List Payload := (t.net.inject.get (hpNode 0)).map (·.payload)

theorem witness_lantern_snoop : ((armed true false).io.hps.get 0).cxl = true ∧ ((armed true false).io.hps.get 0).linkUp = true
    ∧ (after (.lanternSnoop 0 16 .inv) (armed true false)).io.outputs = [.cxlRsp 0 "RspIHitSE" 16, .cxlReq 0 "RdShared" 16]
    ∧ (after (.lanternSnoop 0 16 .data) (armed true false)).io.outputs = [.cxlRsp 0 "RspSHitSE" 16] := by decide +kernel
/-- A line with an uncorrectable error is read again; one being re-read is not held; one that Lantern does not hold has been released. -/
theorem witness_lantern_snoop_others :
    let bad := (hosted true).modHp 0 (fun h => { h with lantern := [⟨0, 16, [⟨2, 0, 3, false, 4⟩], false, 1000, true⟩] })
    (after (.lanternSnoop 0 16 .data) bad).io.outputs = [.cxlRsp 0 "RspSHitSE" 16, .cxlReq 0 "RdShared" 16]
      ∧ (after (.lanternSnoop 0 16 .cur) (armed true true)).io.outputs = [.cxlRsp 0 "RspIHitI" 16]
      ∧ (after (.lanternSnoop 0 17 .inv) (armed true true)).io.outputs = [.cxlRsp 0 "RspIHitSE" 17]
      ∧ (after (.lanternSnoop 0 16 .inv) (armed false false)).io.outputs = []
      ∧ ((after (.lanternRereadData 0 16 bell) (armed false true)).io.hps.get 0).lantern.map (·.rereading) = [true] := by decide +kernel
theorem witness_lantern_reread : lineWord bell 2 ≠ 4 ∧ (armed true true).admitDie 0 = some 0 ∧ (armed true true).pathUp 0 0 = true
    ∧ noticeOf (after (.lanternRereadData 0 16 bell) (armed true true)) = [.doorbell ⟨0, 0, 0, 3, false, 5, 1000⟩] := by decide +kernel
theorem witness_lantern_poll_data :
    let s := (armed false false).modHp 0 (fun h => { h with reads := [⟨8, 0, 1024, 64, .poll 16, 990⟩] })
    ((s.io.hps.get 0).reads.find? (fun x => x.id == 8)).map (·.why) = some (.poll 16)
      ∧ noticeOf (after (.hostReadCompletion 0 8 (.data bell)) s) = [.doorbell ⟨0, 0, 0, 3, false, 5, 1000⟩] := by decide +kernel
theorem witness_lantern_poll : ((armed false false).io.hps.get 0).lastPoll = none ∧ (armed false false).reached 0 1000 = true
    ∧ (after (.lanternPoll 0 16) (armed false false)).io.outputs = [.hostRead 0 0 1024 64 0] := by decide +kernel

theorem witness_lantern_poll_idle : (after (.lanternPoll 0 17) (armed false false)).io.outputs = []
    ∧ (after (.lanternPoll 0 16) (armed true false)).io.outputs = [] := by decide +kernel

/-- SQ 63 of partition 0 is ACTIVE, and a PAGE ring. -/
def paged : State :=
  let s := withReg ⟨.ringSqctl, 0, 63, 0⟩ (2 ^ 5) (hosted false)
  { s with req := { s.req with rings := s.req.rings.set (ringKey 0 false 63) { Ring.reset with st := 1 } } }

theorem witness_page_doorbell : paged.funcPart 0 0 = some 0 ∧ paged.dieServes 0 = true ∧ (paged.req.rings.get (ringKey 0 false 63)).st ≠ 0
    ∧ bitOf (paged.appWord ⟨.ringSqctl, 0, 63, 0⟩) 5 = true
    ∧ noticeOf (after (.pageDoorbellWrite pf 0x1F8 4 0x100000007) paged) = [.doorbell ⟨0, 0, 0, 63, false, 7, 1000⟩]
    ∧ [(0x1FC, 8), (0x1F8, 2), (0x1F0, 8), (0x400, 8)].map (fun (o, n) =>
        ((after (.pageDoorbellWrite pf o n 7) paged).io.hps.get 0).dbDrop) = [1, 1, 1, 1] := by decide +kernel

/-- The doorbell of port 1, whose link to the admitting die is down; one behind a write that waits; and one of a function not enabled. -/
theorem witness_page_doorbell_others :
    let far := (withReg ⟨.hpFuncctl, 1, 0, 0⟩ (2 ^ 63) paged)
    let far := { far with link := { far.link with links := far.link.links.set (linkKey 0 1) { Link.reset with st := .down } } }
    let behind := paged.modMem (fun m => { m with parked := [.notice 0 0 0 1 false 0 0] })
    far.pathUp 1 0 = false ∧ ((after (.pageDoorbellWrite ⟨1, 0⟩ 0x1F8 8 7) far).io.hps.get 1).nDrop = 1
      ∧ behind.writesWait 0 = true ∧ (after (.pageDoorbellWrite pf 0x1F8 8 7) behind).mem.parked.length = 2
      ∧ ((after (.pageDoorbellWrite ⟨0, 1⟩ 0x1F8 8 7) paged).io.hps.get 0).dbDrop = 0 := by decide +kernel

/-- Port 0 holds this completion line. -/
def lined (c : CcLine) : State := (hosted true).modHp 0 (fun h => { h with lines := [c] })

/-- Completion line 32 of CQ 1 of partition 0 in a state. -/
def line32 (st : Mesi) : CcLine := ⟨0, 0, 1, 32, st, List.replicate 64 7, none, false, false, false, false, false⟩

theorem witness_cache_snoop : (lined (line32 .m)).lineAt 0 32 (fun x => !x.evicting) = some (line32 .m)
    ∧ ((after (.cacheLineSnoop 0 32 .inv) (lined (line32 .m))).io.hps.get 0).lines.map (fun l => (l.st, l.asking)) = [(.i, true)]
    ∧ (after (.cacheLineSnoop 0 32 .data) (lined (line32 .e))).io.outputs = [.cxlReq 0 "RdOwn" 32, .cxlRsp 0 "RspIHitSE" 32]
    ∧ (after (.cacheLineSnoop 0 32 .cur) (lined (line32 .i))).io.outputs = [.cxlRsp 0 "RspIHitI" 32] := by decide +kernel
theorem witness_evicting :
    let c : CcLine := { line32 .m with evicting := true }
    let o : CcLine := { c with orphan := true, snooped := true }
    (lined c).lineAt 0 32 (fun x => x.evicting) = some c ∧ ((lined c).ring 0 true 1).st ≠ 1
      ∧ ((after (.evictCrossingSnoop 0 32 .inv) (lined c)).io.hps.get 0).lines.map (·.snooped) = [true]
      ∧ (after (.goWritepull 0 32 false) (lined c)).io.outputs = [.cxlData 0 32 (List.replicate 64 7) false false]
      ∧ (after (.goWritepull 0 32 false) (lined o)).io.outputs = [.cxlData 0 32 (List.replicate 64 7) false true] := by decide +kernel
/-- A shared line; a modified one with an uncorrectable error, whose ring fails; a line released with its ring ACTIVE; and no line. -/
theorem witness_lines_others :
    let active (c : CcLine) : State := { lined c with req := { (lined c).req with
      rings := (lined c).req.rings.set (ringKey 0 true 1) { Ring.reset with st := 1 } } }
    let bad : CcLine := { line32 .m with ue := true }
    let gone : CcLine := { line32 .m with evicting := true }
    let s := withReg ⟨.ringCqbase, 0, 1, 0⟩ 0x200000 (active gone)
    (after (.cacheLineSnoop 0 32 .data) (lined (line32 .s))).io.outputs = [.cxlRsp 0 "RspIHitSE" 32]
      ∧ ((after (.cacheLineSnoop 0 32 .data) (active bad)).ring 0 true 1).st = 2
      ∧ ((after (.cacheLineSnoop 0 32 .data) (active bad)).ring 0 true 1).code = Code.memUe.val
      ∧ ((after (.evictCrossingSnoop 0 32 .cur) (active { bad with evicting := true })).ring 0 true 1).st = 2
      ∧ passes (s.gate (s.ringAgent 0 0) .write false (s.slotVa 0 true 1 0)) = true
      ∧ ((after (.goWritepull 0 32 true) s).io.hps.get 0).lines.map (·.asking) = [true]
      ∧ (after (.cacheLineSnoop 0 33 .data) (lined (line32 .s))).io.outputs = [] := by decide +kernel
theorem witness_rdown_grant_orphan :
    let c : CcLine := { line32 .i with asking := true, orphan := true }
    (after (.rdownGrant 0 32 (List.replicate 64 9)) (lined c)).io.outputs = [.cxlReq 0 "DirtyEvict" 32] := by decide +kernel
theorem witness_rdown_grant :
    let c : CcLine := { line32 .i with asking := true }
    (lined c).lineAt 0 32 (fun x => x.asking) = some c
      ∧ ((after (.rdownGrant 0 32 (List.replicate 64 9)) (lined c)).io.hps.get 0).lines.map (fun l => (l.st, l.asking)) = [(.e, false)] := by decide +kernel
theorem witness_hold_expiry :
    let c : CcLine := { line32 .m with holdDue := some 1000 }
    (lined c).reached 0 1000 = true ∧ (lined c).lineAt 0 32 (fun x => !x.evicting && !x.asking && x.holdDue.any (fun t => (lined c).reached 0 t)) = some c
      ∧ (after (.ccHoldExpiry 0 32) (lined c)).io.outputs = [.cxlReq 0 "DirtyEvict" 32] := by decide +kernel

theorem witness_bar4_off : owned.funcPart 0 1 = none ∧ (after (.bar4Access ⟨0, 1⟩ 0 (.read 4)) owned).io.outputs = [.hostUr 0 1]
    ∧ ({ hosted false with ras := { owned.ras with dieFenced := owned.ras.dieFenced.set 0 true } } : State).dieServes 0 = false := by decide +kernel
theorem witness_bar4 :
    let s := hosted false
    let x : Accessor := { (s.ringAgent 0 0) with cls := .host }
    s.funcPart 0 0 = some 0 ∧ s.dieServes 0 = true ∧ passes (s.readLine x 60 4) = true ∧ passes (s.writeLine x 60 [1, 2, 3, 4]) = true
      ∧ (after (.bar4Access pf 60 (.write [1, 2, 3, 4])) s).mem.mem.bytes 0x2000003C 4 = [1, 2, 3, 4] := by decide +kernel

/-- A read of two lines, one whose check fails, and one of a bank that a row command holds. -/
theorem witness_bar4_reads :
    let s := withBytes 60 [1, 2, 3, 4, 5, 6, 7, 8] (hosted false)
    let held := (withReg ⟨.hpAperture, 0, 0, 0⟩ 0 sliced).modMem (fun m => { m with nodes := m.nodes.set (hpNode 0) (m.nodes.get 12) })
    let held := (withReg ⟨.hpFuncctl, 0, 0, 0⟩ (2 ^ 63) held).modRlu 0
      (fun r => { r with running := [⟨⟨0, 5, 0, none, false⟩, [], [], 0, 0, 0, [], [], [], false, none, 0⟩] })
    (after (.bar4Access pf 60 (.read 8)) s).io.outputs = [.hostData 0 0 [1, 2, 3, 4] false, .hostData 0 0 [5, 6, 7, 8] false]
      ∧ (after (.bar4Access pf 0x800000 (.read 8)) s).io.outputs = [.hostCa 0 0]
      ∧ (after (.bar4Access pf 0x400000 (.read 8)) held).mem.parked.length = 1 := by decide +kernel

/-- A CXL.mem window of 256 MiB at port 0. -/
def window0 (up : Bool) : State :=
  let s := (withReg ⟨.hpMemwin, 0, 0, 0⟩ (2 ^ 63 + 2 ^ 8) (hosted true)).modHp 0 (fun h => { h with decoder := some 0 })
  if up then s else s.modUnit 0 28 (fun u => { u with st := .fenced })

theorem witness_memwin : (window0 true).windowLine 0 0x3FFFFF = some 0xFFFFFC0 ∧ (window0 true).windowLine 0 0x400000 = none
    ∧ (addrUnit 0xFFFFFC0).any (fun x => (window0 true).unitUp x.1 x.2) = true ∧ (window0 true).mem.mem.marks.entries = []
    ∧ (window0 true).mem.mem.wf = true ∧ (List.replicate 64 (5 : Byte)).length = 64
    ∧ (after (.memwinAccess 0 0x3FFFFF (.write (List.replicate 64 5) false)) (window0 true)).mem.mem.bytes 0xFFFFFC0 2 = [5, 5] := by decide +kernel
/-- A poisoned write, and a line outside the window. -/
theorem witness_memwin_poison :
    (after (.memwinAccess 0 0x3FFFFF (.write (List.replicate 64 5) true)) (window0 true)).mem.mem.marks.get? 0xFFFFFE0 = some .poison
      ∧ (after (.memwinAccess 0 0x400000 (.write (List.replicate 64 5) true)) (window0 true)).mem.mem.cells = []
      ∧ (after (.memwinAccess 0 0 .read) (window0 true)).io.outputs = [.hostData 0 0 (zeros 64) false]
      ∧ ((hosted false).io.hps.get 0).cxl = false := by decide +kernel
theorem witness_memwin_fenced : (window0 false).windowLine 0 0 = some 0 ∧ (addrUnit 0).any (fun x => (window0 false).unitUp x.1 x.2) = false
    ∧ ((after (.memwinAccess 0 0 (.write (List.replicate 64 5) false)) (window0 false)).mem.mem.cells) = [] := by decide +kernel
theorem witness_decoder : ((hosted true).io.hps.get 0).cxl = true ∧ ((after (.hdmDecoderCommit 0 0x1000 true) (hosted true)).io.hps.get 0).decoder = some 0x1000 := by
  decide +kernel

/-- Outstanding reads of port 0: one of a core, one that flushes CQ 1, issued 50,000 ticks ago. -/
def reading : State :=
  let s := (coreRuns (hosted false)).modHp 0 (fun h => { h with reads := [⟨8, 0, 0x40000000, 4, .core 0 33, 2 ^ 64 + 1000 - 50000⟩, ⟨9, 0, 0, 0, .flush 0 1, 2 ^ 64 + 1000 - 50000⟩] })
  { s with req := { s.req with due := [⟨1, 0, 1, zeros 32, false, true, true, some 9⟩] } }

theorem witness_host_read : ((reading.io.hps.get 0).reads.find? (fun x => x.id == 8)).map (·.why) = some (.core 0 33)
    ∧ noticeOf (after (.hostReadCompletion 0 8 (.data [1, 2, 3, 4])) reading) = [.memAns (.value 0x04030201) 0 33]
    ∧ 50000 ≤ reading.since 0 (2 ^ 64 + 1000 - 50000)
    ∧ noticeOf (after (.hpCplTimeout 0 8) reading) = [.memAns (.fault Code.hpCplTimeout.val) 0 33]
    ∧ noticeOf (after (.hostReadCompletion 0 8 .abort) reading) = [.memAns (.fault Code.hpUr.val) 0 33] := by decide +kernel
theorem witness_host_flush : ((reading.io.hps.get 0).reads.find? (fun x => x.id == 9)).map (·.why) = some (.flush 0 1)
    ∧ (after (.hostReadCompletion 0 9 (.data [])) reading).req.due.map (·.flushId) = [none]
    ∧ ((after (.hpCplTimeout 0 9) reading).ring 0 true 1).st = 2 := by decide +kernel

/-- One tick short of the timeout, and a read that is not outstanding; a poll that times out ends. -/
theorem witness_host_read_others :
    let s := atTick 999 reading
    let polled := reading.modHp 0 (fun h => { h with reads := [⟨8, 0, 0x40000000, 4, .poll 16, 2 ^ 64 + 1000 - 50000⟩] })
    s.since 0 (2 ^ 64 + 1000 - 50000) = 49999 ∧ ((after (.hpCplTimeout 0 8) s).io.hps.get 0).reads.length = 2
      ∧ ((after (.hpCplTimeout 0 7) reading).io.hps.get 0).reads.length = 2
      ∧ ((after (.hpCplTimeout 0 8) polled).io.hps.get 0).reads = [] := by decide +kernel

/-- A running request of function 0 of port 0, a lock that its core holds, and a ring of it. -/
theorem witness_function_reset :
    let s := { paged with req := { paged.req with requests := [request 5] }
                          comp := { paged.comp with locks := paged.comp.locks.set 1023 ⟨1, 6, 0, 0, 0, 0, 8, false, false⟩ } }
    (s.findReq 5).map (fun r => (r.running, r.port, r.func)) = some (true, 0, 0) ∧ (s.comp.locks.get 1023).st = 1
      ∧ (s.req.rings.get 63).st ≠ 0 ∧ ringKey 0 false 63 = 63 ∧ (s.io.hps.get 0).linkUp = true ∧ 4 ≤ (s.sys.clk.get 0).step
      ∧ (State.reset.io.hps.get 0).linkUp = false := by decide +kernel

theorem witness_host_link_down :
    ((after (.hpLinkDown 0) reading).io.hps.get 0).linkUp = false ∧ ((after (.hpLinkDown 0) reading).io.hps.get 0).reads = [] := by decide +kernel

/-! ### Rings, descriptors and requests -/

/-- `n` bytes with these fields (offset, bytes, value). -/
def bytesOf (n : Nat) (fields : List (Nat × Nat × Nat)) : List Byte := fields.foldl (fun b f => overlay b f.1 (leBytes f.2.1 f.2.2)) (zeros n)

/-- A descriptor of partition 0, taken from SQ 0, with TAG 0x77. -/
def desc (kind : Nat) (fields : List (Nat × Nat × Nat)) : Desc := ⟨1, 0, 0, 0, kind, bytesOf 64 fields, 0x77, false, 0, 0, false, false, []⟩

/-- The state with these descriptors taken, and CQ 0 of partition 0 ACTIVE. -/
def asked (ds : List Desc) (s : State) : State :=
  { s with req := { ReqSys.reset with descs := ds, nextDesc := 2, rings := ReqSys.reset.rings.set (ringKey 0 true 0) { Ring.reset with st := 1 } } }

/-- The same with descriptor 1 begun. -/
def acted (ds : List Desc) (s : State) : State :=
  let r := (asked ds s).req
  { asked ds s with req := { r with descs := mapWhere (fun x => x.id == 1) (fun x => { x with started := true }) r.descs } }

/-- A descriptor that is the only one taken may be acted on. -/
theorem witness_may_act (k : Nat) (f : List (Nat × Nat × Nat)) (s : State) : (asked [desc k f] s).mayAct (desc k f) k (acted [desc k f] s) :=
  ⟨rfl, rfl, rfl, rfl, rfl, rfl, rfl⟩

/-- SQ 0 and CQ 0 of partition 0 are ACTIVE rings of 16 in the host page; a notice of SQ 0 or CQ 0 waits at die 0. -/
def ringing (cq : Bool) (value : Word32) : State :=
  let s := withReg ⟨.ringSqbase, 0, 0, 0⟩ 0x200000 (withReg ⟨.ringCqctl, 0, 0, 0⟩ (2 ^ 63 + 4) (withReg ⟨.ringSqctl, 0, 0, 0⟩ (2 ^ 63 + 4) (asked [] owned)))
  { s with req := { s.req with
      notices := s.req.notices.set 0 [⟨0, 0, cq, value, false⟩]
      rings := (s.req.rings.set (ringKey 0 false 0) { Ring.reset with st := 1, head := 0xFFFFFFFF, tail := 0xFFFFFFFF }).set (ringKey 0 true 0)
        { Ring.reset with st := 1, write := 3 } } }

theorem witness_notice_head : (ringing true 3).ringSize 0 true 0 = 16 ∧ (ringing true 3).admitDie 0 = some 0 ∧ (ringing true 3).ras.noService = false
    ∧ ((3 : Word32) - 0xFFFFFFF3).toNat = 16 ∧ ((3 : Word32) - 0xFFFFFFF2).toNat = 17
    ∧ ((after (.doorbellNotice 0 []) (ringing true 0xFFFFFFF3)).ring 0 true 0).head = 0xFFFFFFF3
    ∧ ((after (.doorbellNotice 0 []) (ringing true 0xFFFFFFF2)).ring 0 true 0).st = 2 := by decide +kernel
theorem witness_notice_overrun : ((0x10 : Word32) - 0xFFFFFFFF).toNat = 17
    ∧ ((after (.doorbellNotice 0 []) (ringing false 0x10)).ring 0 false 0).code = Code.ringOverrun.val := by decide +kernel
/-- A NOP descriptor at the wrap of the running count. -/
theorem witness_notice_taken :
    let s := ringing false 0
    let s0 := s.modRing (ringKey 0 false 0) (fun r => { r with tail := 0 })
    let raw := bytesOf 64 [(0, 1, 10), (8, 8, 0x77)]
    (0 : Word32) = 0xFFFFFFFF + 1 ∧ raw.length = 64 ∧ descOk raw = true ∧ byteAt raw 2 = 0
      ∧ (match s0.gate (s0.ringAgent 0 0) .read false (s0.slotVa 0 false 0 0xFFFFFFFF) with
         | (.ok (.host p f a _ _), s1) => decide ((p, f, a) = (0, 0, 0x40000000 + 15 * 64)) && s1.pathUp 0 p && (s1.io.hps.get p).linkUp
             && decide (s1.req = s0.req) && decide (s1.admitDie 0 = some 0)
         | _ => false) = true
      ∧ (s.ring 0 true 0).st = 1 ∧ bitOf (s.visWord (ringCtl 0 true 0)) 63 = true ∧ s.cqReserved 0 0 < 16 ∧ s.req.descs = []
      ∧ (after (.doorbellNotice 0 [raw]) s).req.descs.map (fun k => (k.id, k.kind, k.tag)) = [(2, 10, 0x77)]
      ∧ ((after (.doorbellNotice 0 [raw]) s).ring 0 false 0).head = 0 := by decide +kernel

/-- A notice in NO_SERVICE; a ring whose page is not mapped, is device memory, or whose host port has no link; a descriptor cut short, one with a
completion ring that is not ACTIVE, and one not in form. -/
theorem witness_notice_others :
    let raw (cq : Nat) (kind : Nat) := bytesOf 64 [(0, 1, kind), (2, 1, cq)]
    let s := ringing false 0
    let code (r : List Byte) (s : State) : Half := ((after (.doorbellNotice 0 [r]) s).ring 0 false 0).code
    let quiet := { s with ras := { s.ras with noService := true } }
    code (raw 0 10) (withReg ⟨.ringSqbase, 0, 0, 0⟩ 0x800000 s) ≠ 0
      ∧ code (raw 0 10) (withReg ⟨.ringSqbase, 0, 0, 0⟩ 0 s) = Code.ringFormat.val
      ∧ code (raw 0 10) (s.modHp 0 (fun h => { h with linkUp := false })) = Code.hpLinkDown.val
      ∧ code (zeros 63) s = Code.hpUr.val ∧ code (raw 1 10) s = Code.ringFormat.val ∧ code (raw 64 10) s = Code.ringFormat.val
      ∧ ((after (.doorbellNotice 0 [raw 0 99]) s).req.due.map (fun e => fieldLe e.bytes 8 2)) = [Code.descFormat.val.toNat]
      ∧ (after (.doorbellNotice 0 [raw 0 10]) quiet).req.notices.get 0 = []
      ∧ ((after (.doorbellNotice 0 []) s).req.notices.get 0).map (·.seen) = [true] := by decide +kernel

/-- A full completion ring, and a FENCE of the ring, hold a descriptor back; the notice of a head that has not moved brings none. -/
theorem witness_notice_waits :
    let raw := bytesOf 64 [(0, 1, 10)]
    let s := ringing false 0
    let full := { s with req := { s.req with descs := List.replicate 13 (desc 10 []) } }
    let fenced := { s with req := { s.req with descs := [desc 8 []] } }
    full.cqReserved 0 0 = 16 ∧ (after (.doorbellNotice 0 [raw]) full).req.descs.length = 13
      ∧ ((after (.doorbellNotice 0 [raw]) full).req.notices.get 0).map (·.seen) = [true]
      ∧ (after (.doorbellNotice 0 [raw]) fenced).req.descs.length = 1
      ∧ (after (.doorbellNotice 0 [raw]) (ringing false 0xFFFFFFFF)).req.descs = [] := by decide +kernel

/-- A FENCE of its own ring waits for an earlier descriptor of that ring, and completes where there is none. -/
theorem witness_fence :
    let f := desc 8 []
    let x : Desc := { desc 10 [] with id := 0, started := true }
    (asked [x, f] owned).fresh f = true ∧ (asked [x, f] owned).armedDesc x = false
      ∧ (after (.fence 1) (asked [x, f] owned)).req.descs.length = 2 ∧ (after (.fence 1) (asked [f] owned)).req.descs = [] := by decide +kernel

theorem witness_nop : (after (.nop 1) (asked [desc 10 []] owned)).req.descs = []
    ∧ (after (.nop 1) (asked [desc 10 []] owned)).req.due.map (fun e => (fieldLe e.bytes 0 8, fieldLe e.bytes 8 2)) = [(0x77, 0)] := by decide +kernel

/-- A program record of 4 sweeps of model 2 in 2 replicas at DVA 0x1000, its schedule at 0x1100, a container on node 9 at 0x1200. -/
def programmed (s : State) : State :=
  withRecord 0x1300 [(0, 1, 9)] (withRecord 0x1200 [(0, 4, 0x5A524831), (4, 2, 1), (8, 8, 0x8000), (16, 8, 0x1300), (24, 2, 1)]
    (withRecord 0x1100 [(0, 4, 1)] (withRecord 0x1000 [(0, 2, 2), (2, 1, 2), (3, 1, 1), (4, 4, 4), (22, 1, 1), (24, 4, 2), (32, 8, 0x1100),
      (40, 8, 0x10000), (48, 4, 0x1000)] s)))

/-- A RUN of it with a seed, or one that asks for a seed. -/
def running (drawn : Nat) : List Desc := [desc 1 [(17, 1, drawn), (20, 4, 0x55), (24, 8, 0x1000), (32, 8, 0x1200), (48, 8, 7)]]

/-- The state in which RUN is asked for, with model 2 resident. -/
def runState (drawn : Nat) : State := acted (running drawn) (programmed (sampling 0 program))

/-- How a RUN is admitted. -/
def admitted (drawn : Nat) (s : State) : Bool :=
  match s.readProgram 0 0x1000 with
  | (.ok p, s2) => (match s2.readContainer 0 0x1200 with
    | (.ok c, s3) => (match s3.admitRun ⟨0, 0, .free, false, c, none, decide (drawn = 1), none⟩ (parseSpr p.1) with
      | (.ok x, s4) => decide (x.1.pinCount = 0) && decide (x.1.srid = none) && (s4.findReq s4.req.nextReq).isNone && decide (s4.admitDie 0 = some 0)
      | _ => false)
    | _ => false)
  | _ => false

theorem witness_run : admitted 0 (runState 0) = true := by decide +kernel

/-- A RUN that asks for a seed needs a Spindle in RUN. -/
theorem witness_run_drawn : admitted 1 ((runState 1).modSpindle 0 (fun p => { p with st := .run })) = true ∧ admitted 1 (runState 1) = false := by
  decide +kernel

/-- A RUN whose program record is not mapped, whose container is not in form, and whose model is absent. -/
theorem witness_run_fails :
    let code (k : List Desc) (s : State) : Option Nat := ((after (.run 1) (asked k s)).req.due.map (fun e => fieldLe e.bytes 8 2)).head?
    let s := programmed (sampling 0 program)
    (code [desc 1 [(24, 8, 0x800000), (32, 8, 0x1200)]] s).isSome = true
      ∧ code [desc 1 [(24, 8, 0x1000), (32, 8, 0x1200)]] (withRecord 0x1200 [(0, 4, 0)] s) = some Code.progFormat.val.toNat
      ∧ code (running 0) (programmed owned) = some Code.modelAbsent.val.toNat := by decide +kernel

/-- What a RUN waits for in a program that declares no resident regions. -/
theorem witness_run_regions (a b : List Byte) (h : Config.declaredResident a b = []) (s : State) :
    s.digestRegions 0 (Config.declaredResident a b) = (.ok [], s) := by rw [h]; rfl

/-- A request that need not wait, and one whose region runs another. -/
theorem witness_run_waits :
    let q : Request := { request 5 with model := 2, seed := zeros 16, step := .arm, srid := some 1 }
    let s := withReqs [q] (sampling 0 program)
    let busy := withReqs [{ request 4 with srid := some 1 }, q] (sampling 0 program)
    s.mustWait q = false ∧ busy.mustWait q = true ∧ s.islandsReady q = true ∧ (q.seed.isEmpty && q.drawn) = false
      ∧ s.findReq 5 = some q := by decide +kernel

/-- A record of mode Fixed with the program as its one input at DVA 0x1800, and what is supplied for it at 0x1C00. -/
def replayState : State :=
  let s := programmed (sampling 0 program)
  let digest := sha256 (s.mem.mem.bytes 0x20001000 128 ++ s.mem.mem.bytes 0x20001100 24)
  acted [desc 7 [(16, 8, 0x1800), (24, 8, 0x1200), (32, 8, 0x1C00), (40, 4, 4)]]
    (withRecord 0x1C00 [(0, 1, 3), (8, 8, 0x1000)] (withBytes 0x18D0 digest
      (withRecord 0x1800 [(0, 8, 33), (8, 1, 1), (14, 1, 2), (15, 1, 1), (16, 4, 4), (32, 8, 120007), (64, 8, 7), (192, 1, 3)] s)))

theorem witness_replay :
    let d := desc 7 [(16, 8, 0x1800), (24, 8, 0x1200), (32, 8, 0x1C00), (40, 4, 4)]
    let read (va n : Nat) : List Byte := match (replayState.jobRead (replayState.steward 0 .dma) va n).1 with
      | .ok b => b
      | .error _ => []
    let r := parseRecord (read 0x1800 1024)
    r.mode = 1 ∧ r.steps = 4 ∧ r.inputs = 1 ∧ r.seed.length = 16
      ∧ (match replayState.suppliedInputs d [] (read 0x1800 1024) (read 0x1C00 16) [0] with
         | (.ok sup, s2) => decide (sup = (some 0x1000, none)) && (match s2.readProgram 0 0x1000 with
           | (.ok p, s3) => (match s3.readContainer 0 0x1200 with
             | (.ok c, s4) => passes (s4.admitRun ⟨0, 0, .fixed, false, c, none, false, some r.replicas⟩ (parseSpr p.1))
             | _ => false)
           | _ => false)
         | _ => false) = true := by decide +kernel

/-- A LOAD_MODEL of the image of model 2 at DVA 0x1800. -/
def loading : Desc := desc 2 [(24, 8, 0x1000), (32, 8, 0x1700), (40, 2, 1)]
def loadState : State :=
  acted [loading] (withRecord 0x1700 [(8, 8, 0x1800)] (withRecord 0x1800 [(0, 1, 2), (6, 1, 2), (8, 1, 2), (12, 1, 2), (24, 1, 64), (28, 1, 96),
    (32, 1, 96), (36, 1, 96), (40, 1, 96), (44, 1, 112), (86, 1, 1), (87, 1, 2), (116, 1, 1)] (programmed owned)))

theorem witness_load : (match loadState.loadChecks loading with
    | (.ok (k, [i], r), s2) => decide ((k.modelId, r, i.off) = (2, 2, 0)) && decide (i.off + i.bytes.length ≤ 0x400000) && decide (10 ≤ i.bytes.length)
        && decide (i.sc < 64) && s2.mem.mem.wf && decide (s2.req = loadState.req)
    | _ => false) = true := by decide +kernel

/-- Model 2 is resident, and no request has it. -/
theorem witness_unload : ((acted [] (sampling 0 program)).findModel 0 2).isSome = true ∧ (acted [] (sampling 0 program)).req.requests = []
    ∧ ((after (.unload 1) (asked [desc 2 [(16, 1, 1), (18, 2, 2)]] (sampling 0 program))).findModel 0 2) = none := by decide +kernel

/-- The codes with which the descriptors taken complete after a step. -/
def codes (c : Instr) (s : State) : List Nat := (after c s).req.due.map (fun e => fieldLe e.bytes 8 2)

/-- An image not in form; a model that is not there; one that a request runs; and one that only an armed request has. -/
theorem witness_models_others :
    let armedRun := { request 5 with model := 2, step := .waitEvent }
    let s (r : Request) := withReqs [r] (asked [desc 2 [(16, 1, 1), (18, 2, 2)]] (sampling 0 program))
    codes (.loadModel 1) (asked [loading] loadState) = [0]
      ∧ (codes (.loadModel 1) (asked [loading] (withRecord 0x1800 [(10, 1, 1)] loadState))) = [Code.cstFormat.val.toNat]
      ∧ codes (.unload 1) (asked [desc 2 [(16, 1, 1), (18, 2, 3)]] (sampling 0 program)) = [Code.modelAbsent.val.toNat]
      ∧ codes (.unload 1) (s { armedRun with step := .run }) = [] ∧ codes (.unload 1) (s armedRun) = [0]
      ∧ (((after (.unload 1) (s armedRun)).findReq 5).bind (fun q => q.err.map (·.2.1))) = some Code.modelAbsent.val := by decide +kernel

/-- Coefficient 0 of model 2 becomes -5. -/
def updating : State :=
  acted [desc 3 [(16, 2, 2), (24, 8, 0x1700), (32, 4, 1)]] (withRecord 0x1700 [(8, 8, 2 ^ 64 - 5)] (sampling 0 program))

theorem witness_update :
    (match updating.jobRead (updating.steward 0 .sua) 0x1700 16 with
     | (.ok e, s2) => updateOk (s2.residentImages (model s2)) e 0 && decide (updateEntry e 0 = (0, 0, -5)) && decide (s2.req = updating.req)
         && s2.mem.mem.wf && decide ((s2.modelOn (model s2) 0).map (fun t => (t.sc, t.h.coefBytes)) = some (0, 2))
     | _ => false) = true := by decide +kernel

/-- A model that is not there, an entry not in form, an update that waits for a running request, and one that has waited. -/
theorem witness_update_others :
    let d := desc 3 [(16, 2, 2), (24, 8, 0x1700), (32, 4, 1)]
    let s (n : Nat) (q : List Request) := withReqs q (asked [d] (withRecord 0x1700 [(0, 1, n), (8, 8, 2 ^ 64 - 5)] (sampling 0 program)))
    let busy := { request 5 with model := 2 }
    let waited := { after (.updateCouplings 1) (s 0 [busy]) with req := { (after (.updateCouplings 1) (s 0 [busy])).req with requests := [] } }
    codes (.updateCouplings 1) (asked [d] (withRecord 0x1700 [] owned)) = [Code.modelAbsent.val.toNat]
      ∧ codes (.updateCouplings 1) (s 1 []) = [Code.cstFormat.val.toNat] ∧ codes (.updateCouplings 1) (s 0 [busy]) = []
      ∧ (after (.updateCouplings 1) (s 0 [busy])).req.descs.map (fun x => x.data.length) = [16]
      ∧ codes (.updateCouplings 1) waited = [0] ∧ ((after (.updateCouplings 1) waited).findModel 0 2).map (·.fullNext) = some true := by
  decide +kernel

/-- READ_STATE of model 2 to DVA 0x2000: every line of its output may be written. -/
theorem witness_read_state :
    let s := acted [desc 6 [(16, 2, 2), (24, 8, 0x2000), (32, 4, 0x400)]] (sampling 0 program)
    (s.findModel 0 2).isSome = true ∧ 64 + 2 * recordBytes 2 (s.modelKind (model s)).1 ≤ 0x400
      ∧ (let f := s.openBytes 5
         let map := f.2.positionMap (model s).pos
         (map.2.agWriteCode (map.2.steward 0 .sua) 0x2000 (map.1 ++ map.2.stateRecords (model s) (model s).pos 2 (leVal (f.1.take 4)) 2
            (bitOf (byteAt f.1 4) 0) false)).1) = none := by decide +kernel

/-- READ_STATE of no model, into too few bytes, and of a model that a request runs. -/
theorem witness_read_state_others :
    let d (id n : Nat) := desc 6 [(16, 2, id), (24, 8, 0x2000), (32, 4, n)]
    codes (.readState 1) (asked [d 3 0x400] (sampling 0 program)) = [Code.modelAbsent.val.toNat]
      ∧ codes (.readState 1) (asked [d 2 64] (sampling 0 program)) = [Code.descFormat.val.toNat]
      ∧ codes (.readState 1) (withReqs [{ request 5 with model := 2 }] (asked [d 2 0x400] (sampling 0 program))) = [] := by decide +kernel

/-- BIND_STREAM of a context at 0x3000 to SP 0. -/
def binding : State :=
  acted [desc 4 [(16, 8, 0x3000)]] (withRecord 0x3000 [(0, 4, 7), (6, 1, 8), (8, 4, 9472), (12, 4, 1), (20, 1, 4), (24, 8, 0x2000), (32, 8, 0x10000), (40, 8, 0x10000)]
    port)

theorem witness_bind : passes (binding.checkBind (desc 4 [(16, 8, 0x3000)])) = true
    ∧ (binding.checkBind (desc 4 [(16, 8, 0x3000)])).2.req = binding.req := by decide +kernel
theorem witness_unbind : let b := { stream7 [] [] with ctxVa := 0x3000 }
    (port.io.bindings.find? (fun b => b.part == 0 && b.ctxVa == 0x3000 && !b.unbound)) = none ∧ (bound b).mem.mem.marks.entries = []
      ∧ (after (.unbindStream 1) (asked [desc 5 [(16, 8, 0x3000)]] (bound b))).io.bindings = [] := by decide +kernel

/-- A context not in form, one that is not bound, and an armed RUN of a stream unbound. -/
theorem witness_bind_others :
    let d := desc 4 [(16, 8, 0x3000)]
    let b := { stream7 [] [] with ctxVa := 0x3000, armed := [5] }
    let s := withReqs [{ request 5 with step := .waitEvent }] (asked [desc 5 [(16, 8, 0x3000)]] (bound b))
    codes (.bindStream 1) (asked [d] binding) = [0] ∧ codes (.bindStream 1) (asked [d] (withRecord 0x3000 [(6, 1, 0)] binding)) ≠ [0]
      ∧ codes (.unbindStream 1) (asked [desc 5 [(16, 8, 0x3000)]] port) = [Code.strUnbound.val.toNat]
      ∧ (((after (.unbindStream 1) s).findReq 5).bind (fun q => q.err.map (·.2.1))) = some Code.strUnbound.val := by decide +kernel

/-- REG_WRITE of HP_APERTURE of port 0. -/
theorem witness_reg_write :
    let d (off : Nat) := desc 9 [(16, 1, 4), (24, 8, 2 ^ 30), (32, 4, off)]
    owned.barTarget 0 0 128 = .reg ⟨.hpAperture, 0, 0, 0⟩ ∧ ((acted [d 128] owned).regWrite 0 0 ⟨.hpAperture, 0, 0, 0⟩ .full (2 ^ 30)).1 = none
      ∧ (after (.regWrite 1) (asked [d 128] owned)).req.due.map (fun e => (fieldLe e.bytes 8 2, fieldLe e.bytes 16 8)) = [(0, 128)]
      ∧ (after (.regWrite 1) (asked [d 132] owned)).req.due.map (fun e => (fieldLe e.bytes 8 2)) = [Code.cfgDenied.val.toNat] := by decide +kernel

/-- An image of region 1 with one block at port E of node 9, at DVA 0x1800. -/
def installing : State :=
  acted [desc 9 [(16, 1, 2), (24, 8, 0x1800)]]
    (withRecord 0x1800 [(0, 1, 1), (2, 1, 1), (3, 1, 1), (4, 4, 1), (80, 1, 9), (81, 1, portNo .e), (83, 1, 1), (84, 1, 0xFF), (88, 1, 0x10)] owned)

theorem witness_sched_install : passes (installing.checkSched (installing.steward 0 .dma) 0x1800) = true
    ∧ (installing.checkSched (installing.steward 0 .dma) 0x1800).2.findSched 1 = none := by decide +kernel
theorem witness_sched_remove :
    let s := { owned with net := { owned.net with scheds := [{ region with running := none }] } }
    (s.findSched 1).map (fun c => (c.part, c.active, c.removing)) = some (0, true, none)
      ∧ (after (.schedRemove 1) (asked [desc 9 [(16, 1, 3), (17, 1, 1)]] s)).net.scheds = [] := by decide +kernel

/-- The image comes into effect at the next tick that is a multiple of 8, and the descriptor completes after that tick. -/
theorem witness_sched_installed :
    let s := after (.schedInstall 1) (asked [desc 9 [(16, 1, 2), (24, 8, 0x1800)]] installing)
    let on := after (.schedInstall 1) (atTick 1008 s)
    (s.findSched 1).map (·.active) = some false ∧ codes (.schedInstall 1) (atTick 1007 s) = []
      ∧ ((after (.schedInstall 1) (atTick 1007 s)).findSched 1).map (·.active) = some false
      ∧ (on.findSched 1).map (·.active) = some true ∧ on.req.due = [] ∧ codes (.schedInstall 1) (atTick 1009 on) = [0] := by decide +kernel

/-- No such image; one that a request runs; and a RUN that waits for the region. -/
theorem witness_sched_remove_others :
    let d := desc 9 [(16, 1, 3), (17, 1, 1)]
    let s (q : List Request) := withReqs q (asked [d] { owned with net := { owned.net with scheds := [{ region with running := none }] } })
    codes (.schedRemove 1) (asked [d] owned) = [Code.schedAbsent.val.toNat]
      ∧ codes (.schedRemove 1) (s [{ request 5 with srid := some 1 }]) = []
      ∧ ((after (.schedRemove 1) (s [{ request 5 with srid := some 1 }])).findSched 1).map (·.removing) = some (some 1)
      ∧ (((after (.schedRemove 1) (s [{ request 5 with srid := some 1, step := .waitRegion }])).findReq 5).bind (fun q => q.err.map (·.2.1)))
        = some Code.schedAbsent.val := by decide +kernel

/-- Page tables of partition 0 on die 0, four small ones at offsets 0x4000 to 0x7000. -/
def tabled (s : State) : State :=
  let put (off e : Nat) (s : State) : State := s.pokeMem (sysBase 0 + off) (leBytes 8 e)
  let s := put 0x7000 devPage (put 0x6000 (2 ^ 63 + 2 ^ 62 + 0x7000) (put 0x5000 (2 ^ 63 + 2 ^ 62 + 0x6000) (put 0x4000 (2 ^ 63 + 2 ^ 62 + 0x5000)
    (withReg ⟨.memPtbase, 0, 0, 0⟩ (2 ^ 63 + 0x4000) s))))
  { s with mem := { s.mem with tables := [⟨0, 0x4000, true⟩, ⟨0, 0x5000, true⟩, ⟨0, 0x6000, true⟩, ⟨0, 0x7000, true⟩] } }

/-- A PT_UPDATE that maps DVA 0x400000 to host memory. -/
def mapping : State := acted [desc 9 [(16, 1, 1), (24, 8, 0x1800), (32, 4, 1)]] (withRecord 0x1800 [(0, 8, 0x400001), (8, 8, hostPage)] (tabled owned))

theorem witness_pt_update :
    (match mapping.jobRead (mapping.steward 0 .dma) 0x1800 16 with
     | (.ok b, s2) => decide ((List.range 1).map (ptEntry b) = [some ⟨0x400000, true, hostPage⟩]) && decide (s2.mem.held = [])
         && !s2.mustHold 0 [⟨0x400000, true, hostPage⟩]
         && (s2.changeTables 0 [⟨0x400000, true, hostPage⟩]).any (fun s3 => !s3.inFlight 0 [⟨0x400000, true, hostPage⟩] && decide (s3.req = s2.req)
           && decide (s3.walk 0 0 0x400000 = .page hostPage true))
     | _ => false) = true := by decide +kernel
theorem witness_held_pt :
    let s := { tabled owned with mem := { (tabled owned).mem with held := [⟨none, 0, [⟨0x400000, true, hostPage⟩], false⟩] } }
    s.mustHold 0 [⟨0x400000, true, hostPage⟩] = false
      ∧ (({ s with mem := { s.mem with held := [] } } : State).changeTables 0 [⟨0x400000, true, hostPage⟩]).isSome = true := by decide +kernel

/-- An entry not in form; no change held; and a change held that has been applied and waits no more. -/
theorem witness_pt_others :
    let d := desc 9 [(16, 1, 1), (24, 8, 0x1800), (32, 4, 1)]
    let held (a : Bool) : State := { asked [{ d with started := true }] (tabled owned) with mem := { (tabled owned).mem with
      held := [⟨some 1, 0, [⟨0x400000, true, hostPage⟩], a⟩] } }
    codes (.ptUpdate 1) (asked [d] (withRecord 0x1800 [(0, 8, 0x410001), (8, 8, hostPage)] (tabled owned))) = [Code.ghTableFormat.val.toNat]
      ∧ codes (.ptUpdate 1) (asked [d] mapping) = [0] ∧ codes (.ptUpdate 1) (held false) = [] ∧ codes (.ptUpdate 1) (held true) = [0]
      ∧ (held true).releasable 0 [] (held true).mem.held = none ∧ (after (.heldPtUpdateApply 0) (held false)).mem.held = [] := by decide +kernel

/-- An entry of CQ 0 that has come to port 0; MSI-X vector 3 of function 0 unmasked or not. -/
def dueEntry (masked : Bool) : State :=
  let s := withReg ⟨.ringCqbase, 0, 0, 0⟩ 0x200000 (withReg ⟨.ringCqctl, 0, 0, 0⟩ (2 ^ 63 + 3 * 2 ^ 8 + 2 ^ 7 + 4) (asked [] owned))
  let s1 := s.modHp 0 (fun h => { h with masked := .const masked, pendingMsi := h.pendingMsi.set (0, 64) true })
  { s1 with req := { s1.req with
      due := [⟨1, 0, 0, zeros 32, false, true, false, none⟩]
      rings := s1.req.rings.set (ringKey 0 true 0) { Ring.reset with st := 1, write := 16, unannounced := 1, oldest := 900 } } }

theorem witness_completion_write :
    let s := dueEntry false
    let s1 := { s with req := { s.req with due := [] } }
    (s.req.due.find? (fun e => s.entryReady 0 e)).isSome = true ∧ (s.io.hps.get 0).linkUp = true
      ∧ (match s1.gate (s1.ringAgent 0 0) .write false (s1.slotVa 0 true 0 16) with
         | (.ok (.host _ _ a _ _), s2) => decide (a = 0x40000000) && decide (s2.req = s1.req) && !bitOf (s2.ringCtlWord 0 true 0) 6
         | _ => false) = true
      ∧ (after (.completionWrite 0) s).io.outputs = [.hostWrite 0 0 0x40000000 (zeros 31 ++ [0]) false false false] := by decide +kernel
theorem witness_interrupt : (dueEntry false).irqDue 0 0 = true
    ∧ (after (.cqInterrupt 0 0) (dueEntry false)).io.outputs = [.msix 0 0 3 0 0]
    ∧ ((after (.cqInterrupt 0 0) (dueEntry true)).io.hps.get 0).pendingMsi.get (0, 3) = true := by decide +kernel
theorem witness_unmask : ((dueEntry true).io.hps.get 0).linkUp = true ∧ (after (.msixUnmask pf 64) (dueEntry true)).io.outputs = [.msix 0 0 64 0 0] := by
  decide +kernel

/-- EN of CQ 63 of partition 0 is written; its 16 entries lie in the host page. -/
def enabling : State :=
  let s := withReg (ringCtl 0 true 63) (2 ^ 5 + 4) (withReg ⟨.ringCqbase, 0, 63, 0⟩ 0x200000 (asked [] owned))
  let s1 := s.modRegs (fun r => { r with vis := r.vis.set (ringCtl 0 true 63) (BitVec.ofNat 64 (2 ^ 63 + 2 ^ 5 + 4)) })
  { s1 with sys := { s1.sys with sec := s1.sys.sec.modify 0 (fun k => { k with lc := some .deployed }) } }

theorem witness_ring_enable :
    let k := ringCtl 0 true 63
    let s1 := enabling.applyBoundary k (fun _ => true)
    enabling.admitDie 0 = some 0 ∧ bitOf (enabling.visWord k) 63 = true ∧ bitOf (enabling.appWord k) 63 = false ∧ enabling.ringIdle 0 true 63 = true
      ∧ enabling.dieUp 0 = true ∧ enabling.settled k = true ∧ enabling.dataService 0 = true ∧ s1.slotVa 0 true 63 0 = 0x200000
      ∧ (match s1.checkRingPages (accessor 0 (ctlNode 0) .dma none) .write [0x200000] none with
         | (.ok pf, s2) => decide (pf = (0, 0)) && bitOf (s2.ringCtlWord 0 true 63) 5 && !bitOf (s2.ringCtlWord 0 true 63) 6
         | _ => false) = true
      ∧ ((after (.ringEnable 0 true 63) enabling).ring 0 true 63).st = 1 := by decide +kernel
theorem witness_ring_denied :
    let s : State := { enabling with sys := { enabling.sys with sec := enabling.sys.sec.modify 0 (fun k => { k with lc := some .returned }) } }
    s.dieUp 0 = true ∧ s.dataService 0 = false
      ∧ ((after (.ringEnable 0 true 63) s).ring 0 true 63).code = Code.lcDenied.val := by decide +kernel
theorem witness_ring_disable :
    let k := ringCtl 0 true 63
    let s := (after (.ringEnable 0 true 63) enabling).modRegs (fun r => { r with vis := r.vis.set k 0 })
    bitOf (s.visWord k) 63 = false ∧ bitOf (s.appWord k) 63 = true ∧ s.ringIdle 0 true 63 = true ∧ s.settled k = true
      ∧ ((after (.ringDisable 0 true 63) s).ring 0 true 63).st = 0 := by decide +kernel

/-- No entry is ready; the host link is down; the ring's page is not mapped, or is device memory. -/
theorem witness_completion_others :
    let s := dueEntry false
    let code (s : State) : Half := ((after (.completionWrite 0) s).ring 0 true 0).code
    let down := after (.completionWrite 0) (s.modHp 0 (fun h => { h with linkUp := false }))
    (owned.req.due.find? (fun e => owned.entryReady 0 e)).isNone = true ∧ down.req.due = [] ∧ down.io.outputs = []
      ∧ code (withReg ⟨.ringCqbase, 0, 0, 0⟩ 0x800000 s) ≠ 0 ∧ code (withReg ⟨.ringCqbase, 0, 0, 0⟩ 0 s) = Code.ringFormat.val := by decide +kernel

/-- Entry 16 of a CACHE ring goes into its line, and one that ends the line sends it. -/
theorem witness_completion_line :
    let s (w : Word32) : State := let s := withReg ⟨.ringCqctl, 0, 0, 0⟩ (2 ^ 63 + 2 ^ 6 + 4) (dueEntry false)
      let s := { s with req := { s.req with rings := s.req.rings.set (ringKey 0 true 0) { Ring.reset with st := 1, write := w } } }
      s.modHp 0 (fun h => { h with cxl := true, lines := [⟨0, 0, 0, 0x1000000, .e, zeros 64, none, false, false, false, false, false⟩] })
    ((after (.completionWrite 0) (s 16)).io.hps.get 0).lines.map (fun l => (l.st, l.evicting)) = [(.m, false)]
      ∧ ((after (.completionWrite 0) (s 17)).io.hps.get 0).lines.map (fun l => (l.st, l.evicting)) = [(.m, true)]
      ∧ (after (.completionWrite 0) (s 17)).io.outputs = [.cxlReq 0 "DirtyEvict" 0x1000000] := by decide +kernel

/-- No message is due; a CACHE ring asks for its first line, and has none at a port of another kind or without room; a Lantern without room. -/
theorem witness_ring_others :
    let cache (cxl : Bool) (n : Nat) : State :=
      let s := enabling.modRegs (fun r => { r with vis := r.vis.set (ringCtl 0 true 63) (BitVec.ofNat 64 (2 ^ 63 + 2 ^ 6 + 2 ^ 5 + 4)) })
      let s := s.modRegs (fun r => { r with app := r.app.set (ringCtl 0 true 63) (BitVec.ofNat 64 (2 ^ 6 + 2 ^ 5 + 4)) })
      s.modHp 0 (fun h => { h with cxl := cxl, lines := List.replicate n ⟨0, 0, 1, 32, .m, [], none, false, false, false, false, false⟩ })
    let word (n : Nat) : State :=
      let s := enabling.modRegs (fun r => { r with vis := r.vis.set (ringCtl 0 true 63) (BitVec.ofNat 64 (2 ^ 63 + 4)) })
      let s := s.modRegs (fun r => { r with app := r.app.set (ringCtl 0 true 63) (BitVec.ofNat 64 4) })
      s.modHp 0 (fun h => { h with lantern := List.replicate n ⟨1, 16, [], false, 1000, false⟩ })
    let ring (s : State) : Nat × Half := let t := after (.ringEnable 0 true 63) s
      ((t.ring 0 true 63).st, (t.ring 0 true 63).code)
    (after (.cqInterrupt 0 1) (dueEntry false)).io.outputs = [] ∧ ring (cache false 0) = (0, Code.ringFormat.val)
      ∧ ring (cache true 64) = (0, Code.hpCacheFull.val) ∧ ring (cache true 63) = (1, 0) ∧ ring (word 512) = (0, Code.lanternFull.val)
      ∧ ring (word 511) = (1, 0) ∧ (ring (withReg ⟨.ringCqbase, 0, 63, 0⟩ 0x800000 enabling)).2 ≠ 0
      ∧ (ring owned).1 = 0 := by decide +kernel

/-! ### Registers and faults -/

/-- Port 0 may write the tray's registers. -/
def admin : State := withReg ⟨.glbAdmin, 0, 0, 0⟩ 1 owned

/-- The low word that a register shows after a write of function 0 of port 0. -/
def shown (k : RegKey) (c : Instr) : Nat := (after c admin).visWord k

theorem witness_register_write :
    let k : RegKey := ⟨.hpAperture, 0, 0, 0⟩
    admin.barTarget 0 0 128 = .reg k ∧ admin.unreachable 0 k = none ∧ admin.mayWrite 0 0 k = true
      ∧ (presented (admin.visWord k) (admin.sys.regs.holds.get? (0, 0, k)) (fieldsOf k.name) .full (2 ^ 64 - 1)).1 = 2 ^ 64 - 1
      ∧ admin.lockedHit k (admin.visWord k) (2 ^ 64 - 1) = false
      ∧ admin.reservedWord k (writeFields (admin.visWord k) (2 ^ 64 - 1) (fieldsOf k.name) (fun _ => false)) = none
      ∧ (fieldsOf k.name).all (fun x => !admin.reservedField 0 k x (bitsOf (2 ^ 64 - 1) x.hi x.lo)) = true
      ∧ shown k (.registerWrite pf 128 .full (BitVec.ofNat 64 (2 ^ 64 - 1))) = (2 ^ 27 - 1) * 2 ^ 30 := by decide +kernel
theorem witness_share_write :
    let k : RegKey := ⟨.netShare, 0, 0, 0⟩
    admin.barTarget 0 0 1081344 = .reg k ∧ admin.unreachable 0 k = none ∧ admin.mayWrite 0 0 k = true
      ∧ admin.lockedHit k (admin.visWord k) 1 = false
      ∧ admin.reservedWord k (writeFields (admin.visWord k) 1 (fieldsOf k.name) (fun _ => false)) = none := by decide +kernel
theorem witness_exact_write :
    let k : RegKey := ⟨.teModectl, 0, 0, 0⟩
    admin.barTarget 0 0 1056768 = .reg k ∧ admin.unreachable 0 k = none ∧ admin.mayWrite 0 0 k = true
      ∧ (admin.visWord k) % 2 = 1 ∧ admin.lockedHit k (admin.visWord k) 0 = false
      ∧ shown k (.exactEnWrite pf 1056768 .full 0) % 2 = 0 := by decide +kernel
/-- EXACT_EN is locked in a tick in whose first cycle the engine ran. -/
theorem witness_locked :
    let s := admin.modRegs (fun r => { r with ran := { r.ran with tes := [0] } })
    let k : RegKey := ⟨.teModectl, 0, 0, 0⟩
    s.lockedHit k (s.visWord k) 0 = true ∧ (after (.exactEnWrite pf 1056768 .full 0) s).visWord k % 2 = 1 := by decide +kernel
theorem witness_msix_write : admin.barTarget 0 0 0x700000 = .msix 0 ∧ admin.dieServes 0 = true
    ∧ (after (.registerWrite pf 0x700000 .low 0xFFFFFFFF) admin).msixWord 0 0 0 = 0xFFFFFFFF := by decide +kernel

/-- A lower half of DET_TRAILBASE is held, and shows with the upper half. -/
theorem witness_held_half :
    let k : RegKey := ⟨.detTrailbase, 0, 0, 0⟩
    let s0 := withReg ⟨.hpFuncctl, 0, 0, 0⟩ (2 ^ 63) admin
    let s := after (.registerWrite pf 1114240 .low 0xC0000000) s0
    s.sys.regs.holds.get? (0, 0, k) = some 0xC0000000 ∧ s.visWord k = 0
      ∧ (after (.registerWrite pf 1114240 .high 1) s).visWord k = 2 ^ 32 + 0xC0000000
      ∧ (after (.registerWrite pf 1114240 .high 1) s).sys.regs.holds.get? (0, 0, k) = none := by decide +kernel

/-- The codes logged at die 0 after a write by function 0 of port 0. -/
def refusals (off v : Nat) (s : State) : List Half := ((after (.registerWrite pf off .full (BitVec.ofNat 64 v)) s).ras.logs.get 0).recs.map (·.code)

/-- A register of a die that is down, one that the function may not write, one of a partition that is being reset, a word with a code of its own,
one that is reserved, and an offset that is not aligned. -/
theorem witness_register_refused :
    let down : State := { admin with sys := { admin.sys with clk := admin.sys.clk.set 1 DieClk.reset } }
    refusals 2166784 3 down = [Code.dieFenced.val] ∧ refusals 1114280 3 admin = [Code.cfgDenied.val]
      ∧ refusals 1114112 3 (withReg ⟨.glbPartreset, 0, 0, 0⟩ (2 ^ 63) admin) = [Code.cfgBusy.val]
      ∧ refusals 1118208 (2 ^ 63 + 7 * 2 ^ 6 + 5 * 2 ^ 9) admin = [Code.regionOverlap.val]
      ∧ (after (.registerWrite pf 1060888 .full 65) admin).visWord ⟨.strRxquota, 0, 0, 0⟩ = 0
      ∧ (after (.registerWrite pf 129 .full 65) admin).visWord ⟨.hpAperture, 0, 0, 0⟩ = admin.visWord ⟨.hpAperture, 0, 0, 0⟩ := by decide +kernel

theorem witness_tick_register : admin.barTarget 0 0 8 = .reg ⟨.glbTick, 0, 0, 0⟩ ∧ admin.unreachable 0 ⟨.glbTick, 0, 0, 0⟩ = none
    ∧ (after (.glbTickRead pf 8 .low) admin).sys.regs.latches.get? (0, 0, ⟨.glbTick, 0, 0, 0⟩) = some 0
    ∧ admin.sys.regs.latches.get? (0, 0, ⟨.glbTick, 0, 0, 0⟩) = none
    ∧ (after (.glbTickRead pf 8 .full) admin).io.outputs = [.hostData 0 0 (leBytes 8 1000) false]
    ∧ (after (.glbTickRead pf 9 .full) admin).io.outputs = [.hostUr 0 0] := by decide +kernel

/-- The latched upper half; another register, also where it cannot be reached; a reserved offset. -/
theorem witness_register_reads :
    let s := after (.glbTickRead pf 8 .low) admin
    let down : State := { admin with sys := { admin.sys with clk := admin.sys.clk.set 1 DieClk.reset } }
    let reads (off : Nat) (s : State) := (after (.glbTickRead pf off .full) s).io.outputs
    (after (.glbTickRead pf 8 .high) s).io.outputs.getLast? = some (.hostData 0 0 [0, 0, 0, 0] false)
      ∧ (after (.glbTickRead pf 8 .high) s).sys.regs.latches.get? (0, 0, ⟨.glbTick, 0, 0, 0⟩) = none
      ∧ reads 2166784 down = [.hostData 0 0 (List.replicate 8 0xFF) false] ∧ reads 0 admin = [.hostData 0 0 (leBytes 8 1) false]
      ∧ admin.barTarget 0 0 24 = .reserved ∧ reads 24 admin = [.hostData 0 0 (zeros 8) false]
      ∧ reads 0x700000 admin = [.hostData 0 0 (zeros 8) false] := by decide +kernel

/-- Written and not yet used: a replica cap of partition 0, WRAP of its trail, and a share of SP 0. -/
def shadowed (rs : List Request) : State :=
  (withReqs rs owned).modRegs (fun r => { r with
    vis := ((r.vis.set ⟨.suaReplicacap, 0, 0, 0⟩ 8).set ⟨.detTrailctl, 0, 0, 0⟩ 0x100).set ⟨.netShare, 0, 0, 0⟩ 3 })

theorem witness_shadow : pfTarget 0 5242896 = .reg ⟨.suaReplicacap, 0, 0, 0⟩ ∧ pfTarget 0 5242904 = .reg ⟨.teBudget, 0, 0, 0⟩
    ∧ pfTarget 0 1114248 = .reg ⟨.detTrailctl, 0, 0, 0⟩ ∧ (shadowed []).admitDie 0 = some 0 ∧ (shadowed []).tickOf 0 % 8 = 0
    ∧ (shadowed [request 5]).partRuns 0 = true ∧ (shadowed []).partRuns 0 = false
    ∧ (after (.shadowApply 5242896) (shadowed [])).appWord ⟨.suaReplicacap, 0, 0, 0⟩ = (shadowed []).visWord ⟨.suaReplicacap, 0, 0, 0⟩
    ∧ (after (.shadowApply 5242896) (shadowed [request 5])).appWord ⟨.suaReplicacap, 0, 0, 0⟩ = (shadowed []).appWord ⟨.suaReplicacap, 0, 0, 0⟩ := by
  decide +kernel
theorem witness_share_shadow : pfTarget 0 1081344 = .reg ⟨.netShare, 0, 0, 0⟩
    ∧ shareField ((after (.shadowApply 1081344) (shadowed [])).appWord ⟨.netShare, 0, 0, 0⟩) 0 false
      = shareField ((shadowed []).visWord ⟨.netShare, 0, 0, 0⟩) 0 false := by decide +kernel

/-- A quota, in a tick that is a multiple of 8; none in another tick, and none for a register of another kind. -/
theorem witness_shadow_others :
    let s := owned.modRegs (fun r => { r with vis := r.vis.set ⟨.strRxquota, 0, 0, 0⟩ 3 })
    (after (.shadowApply 1060888) s).appWord ⟨.strRxquota, 0, 0, 0⟩ = 3
      ∧ (after (.shadowApply 1060888) (atTick 1001 s)).appWord ⟨.strRxquota, 0, 0, 0⟩ = 0
      ∧ (after (.shadowApply 5242896) (atTick 1001 (shadowed []))).appWord ⟨.suaReplicacap, 0, 0, 0⟩
        = (shadowed []).appWord ⟨.suaReplicacap, 0, 0, 0⟩
      ∧ (after (.shadowApply 1114248) (shadowed [])).appWord ⟨.detTrailctl, 0, 0, 0⟩ = 0x104
      ∧ (after (.shadowApply 1114248) (shadowed [request 5])).appWord ⟨.detTrailctl, 0, 0, 0⟩ = 4 := by decide +kernel

/-- Partition 0 has a table on die 1, at offset 0x4000; its region on die 0 is enabled, and die 0 has no copy. -/
def regionAdded : State :=
  let s := withReg ⟨.memPtbase, 1, 0, 0⟩ (2 ^ 63 + 0x4000) owned
  { s with mem := { s.mem with tables := [⟨0, 0x4000, true⟩] } }

/-- The same, where die 0 has a table of partition 1 at that offset. -/
def regionTaken : State :=
  let s := withReg ⟨.memPtbase, 0, 1, 0⟩ (2 ^ 63 + 0x4000) regionAdded
  { s with mem := { s.mem with tables := [⟨0, 0x4000, true⟩, ⟨1, 0x4000, true⟩] } }

theorem witness_region : bitOf (regionAdded.appWord ⟨.netRegion, 0, 0, 0⟩) 63 = true ∧ bitOf (regionAdded.appWord ⟨.memPtbase, 0, 0, 0⟩) 63 = false
    ∧ (regionAdded.createTables 0 0).isSome = true ∧ (regionTaken.createTables 0 0).isSome = false
    ∧ bitOf ((after (.netRegionWrite 0 0) regionAdded).appWord ⟨.memPtbase, 0, 0, 0⟩) 63 = true
    ∧ bitOf ((after (.netRegionWrite 0 0) regionTaken).visWord ⟨.netRegion, 0, 0, 0⟩) 63 = false := by decide +kernel
theorem witness_region_left : bitOf ((tabled live).appWord ⟨.netRegion, 0, 0, 0⟩) 63 = false ∧ bitOf ((tabled live).appWord ⟨.memPtbase, 0, 0, 0⟩) 63 = true
    ∧ bitOf ((after (.netRegionWrite 0 0) (tabled live)).appWord ⟨.memPtbase, 0, 0, 0⟩) 63 = false := by decide +kernel

/-- A boot window of partition 0: one page, of DPA 0x40000000. -/
def booted : State := withReg ⟨.glbBootmap, 0, 0, 0⟩ (2 ^ 63 + 2 ^ 52 + 0x40000000) (tabled owned)

theorem witness_boot : booted.tableDies 0 = [0] ∧ booted.mem.boot.get 0 ≠ some (booted.appWord ⟨.glbBootmap, 0, 0, 0⟩)
    ∧ (let w := booted.appWord ⟨.glbBootmap, 0, 0, 0⟩
       let s0 : State := { booted with mem := { booted.mem with boot := booted.mem.boot.set 0 (some w) } }
       let es := bootEntries w true
       s0.behindHeld 0 es = false ∧ s0.mustHold 0 es = false ∧ (s0.changeTables 0 es).isSome = true
        ∧ ({ s0 with mem := { s0.mem with held := [⟨none, 0, es, false⟩] } } : State).behindHeld 0 es = true) := by decide +kernel

/-- No table, and no window, which has been applied. -/
theorem witness_boot_idle : owned.tableDies 0 = [] ∧ (tabled owned).tableDies 0 = [0] ∧ (tabled owned).mem.boot.get 0 = none
    ∧ bitOf ((tabled owned).appWord ⟨.glbBootmap, 0, 0, 0⟩) 63 = false := by decide +kernel

theorem witness_unit_fenced : (coreRuns owned).mayFence 0 31 Code.unitInternal.val = true ∧ ((coreRuns owned).unitRec 0 0).st = .inService
    ∧ ((coreRuns owned).findReq 5).map (fun r => (r.running, r.nodes.contains (unitNode 0 0))) = some (true, true) := by decide +kernel
theorem witness_die_fenced : (owned.sys.clk.get 0).supplied = true ∧ owned.dieFencedB 0 = false ∧ owned.sys.warden.resetQueue = []
    ∧ (owned.sys.clk.get 0).locked = true ∧ ((coreRuns owned).findReq 5).map (fun r => r.dies.contains 0) = some true := by decide +kernel

/-- A link that was up goes down; a cause that may not strike; and requests that wait, with a region on a die that loses Pulse or not. -/
theorem witness_fences_others :
    let s := withReqs [{ request 5 with step := .waitEvent, nodes := [73] }] owned
    owned.mayFence 0 32 Code.linkDown.val = true ∧ (owned.unitRec 0 32).st = .inService ∧ (replaying 0).linkUp 0 1 = true
      ∧ owned.mayFence 0 32 Code.unitInternal.val = false ∧ (State.reset.sys.clk.get 0).supplied = false
      ∧ (s.findReq 5).map (s.losesPulse 0) = some false ∧ (s.findReq 5).map (s.losesPulse 1) = some true := by decide +kernel

theorem witness_heartbeat :
    let s := { owned with sys := { owned.sys with warden := { owned.sys.warden with cache := .const (some ⟨.inService, 0, 0, 1⟩) } } }
    s.sys.warden.running = true ∧ (List.range 35).all (fun u => decide (s.sys.warden.cache.get (unitKey 0 u) = some (s.unitReport 0 u))) = true := by decide +kernel
/-- A unit whose state Warden does not have; one of which Warden's is the later; and equal ones that differ. -/
theorem witness_heartbeat_differs :
    let with0 (w : Option UnitReport) : State := { owned with sys := { owned.sys with warden := { owned.sys.warden with
      cache := (Tbl.const (some ⟨.inService, 0, 0, 1⟩)).set 0 w } } }
    let mine := owned.unitReport 0 0
    let later : UnitReport := { mine with st := .offline, gen := mine.gen + 1 }
    let same : UnitReport := { mine with st := .offline }
    (List.range 34).all (fun u => decide ((with0 none).sys.warden.cache.get (unitKey 0 (u + 1)) = some ((with0 none).unitReport 0 (u + 1)))) = true
      ∧ mine.st = .inService ∧ later.governs mine = true ∧ mine.governs later = false ∧ same.governs mine = false
      ∧ mine.governs same = false ∧ (with0 none).sys.warden.cache.get 0 = none := by decide +kernel
theorem witness_warden_lost :
    let s := { owned with ras := { owned.ras with heartbeat := .const (2 ^ 64 + 1000 - 2 ^ 28) } }
    s.dieUp 0 = true ∧ s.ras.wardenLost.get 0 = false ∧ 2 ^ 28 ≤ s.since 0 (s.ras.heartbeat.get 0) := by decide +kernel

/-- An event of partition 0 at its admitting die, with an event ring of 2 records at DVA 0x1000 that holds `n`. -/
def eventDue (n : Nat) : State :=
  let s := withReg ⟨.rasEvtbase, 0, 0, 0⟩ 0x1000 (withReg ⟨.rasEvtctl, 0, 0, 0⟩ (2 ^ 63 + 1) (withReg ⟨.rasEvtidx, 0, 0, 0⟩ (n * 2 ^ 32) owned))
  { s with ras := { s.ras with evtArrivals := s.ras.evtArrivals.set 0 [⟨0x21, 1, 0, 9, some 0, 1000, 0, 0, false⟩] } }

theorem witness_event_ring : (eventDue 1).admitDie 0 = some 0 ∧ bitOf ((eventDue 1).appWord ⟨.rasEvtctl, 0, 0, 0⟩) 63 = true := by decide +kernel
theorem witness_event_write_hyps :
    ((eventDue 1).agWriteCode (accessor 0 (ctlNode 0) .dma none) 0x1020 (EventRec.bytes ⟨0x21, 1, 0, 9, some 0, 1000, 0, 0, false⟩ true)).1 = none := by decide +kernel
theorem witness_event_write : (after (.partitionEventWrite 0) (eventDue 1)).appF .rasEvtidx 0 0 0 63 32 = 2 := by decide +kernel
theorem witness_event_dropped : (after (.partitionEventWrite 0) (eventDue 2)).ras.evtLost.get 0 = true := by decide +kernel
/-- No event; one whose write fails; one for a ring that is not enabled; and a die that has heard Warden. -/
theorem witness_event_others :
    let bad := withReg ⟨.rasEvtbase, 0, 0, 0⟩ 0x800000 (eventDue 1)
    let off := withReg ⟨.rasEvtctl, 0, 0, 0⟩ 0 (eventDue 1)
    owned.ras.evtArrivals.get 0 = []
      ∧ (after (.partitionEventWrite 0) bad).appF .rasEvtidx 0 0 0 63 32 = 1
      ∧ (after (.partitionEventWrite 0) off).ras.evtArrivals.get 0 = []
      ∧ (after (.wardenLost 0) owned).ras.wardenLost.get 0 = false := by decide +kernel

/-! ### Identity and life cycle -/

/-- Unit 0 and frame 0x100 of die 0 are dirty; a byte of the one (core store 0, offset 8) and of the other hold 0x55. -/
def dirty : State :=
  (live.modSec 0 (fun c => { c with dirtyUnits := [0, 5], dirtyFrames := [0x100] })).pokeMem (2 ^ 40 + 8) [0x55] |>.pokeMem (0x100 * 0x200000) [0x55]

theorem witness_clear : dirty.dieUp 0 = true ∧ dirty.mem.mem.wf = true ∧ (dirty.sys.sec.get 0).dirtyUnits.contains 0 = true
    ∧ (dirty.sys.sec.get 0).dirtyFrames.contains 0x100 = true
    ∧ addrUnit (2 ^ 40 + 8) = some (0, 0) ∧ readCell dirty.mem.mem.cells (2 ^ 40 + 8) = 0x55
    ∧ readCell (after (.unitClear 0 (.frame 0x100)) dirty).mem.mem.cells (0x100 * 0x200000) = 0
    ∧ readCell (after (.unitClear 0 (.frame 0x100)) dirty).mem.mem.cells (2 ^ 40 + 8) = 0x55
    ∧ ((after (.unitClear 0 (.frame 0x100)) dirty).sys.sec.get 0).dirtyUnits = [0, 5] := by decide +kernel
theorem witness_clear_unit : readCell (after (.unitClear 0 (.unit 0)) dirty).mem.mem.cells (2 ^ 40 + 8) = 0
    ∧ ((after (.unitClear 0 (.unit 0)) dirty).sys.sec.get 0).dirtyUnits = [5] := by decide +kernel

/-- A state of the tray's life cycle, which die 0 took at D4. -/
def inState (l : LcState) (s : State) : State :=
  { (s.modWarden (fun w => { w with lc := l })).modSec 0 (fun c => { c with lc := some l, keyOk := true, drbg := ⟨true, [1], 0⟩ }) with
    sys := { ((s.modWarden (fun w => { w with lc := l })).modSec 0 (fun c => { c with lc := some l, keyOk := true, drbg := ⟨true, [1], 0⟩ })).sys with
      spdm := .const ⟨3, [], 0⟩ } }

theorem witness_spdm : live.reachesSpdm (.die 0) .mctp = true ∧ live.reachesSpdm (.die 1) (.doe ⟨1, 0⟩) = true ∧ live.reachesSpdm .warden .mctp = true
    ∧ live.reachesSpdm .warden (.doe pf) = false ∧ ((inState .deployed live).sys.spdm.get 0).negotiated = 3
    ∧ (inState .deployed live).hasIdentity (.die 0) = true ∧ (inState .raw live).hasIdentity (.die 0) = false
    ∧ ((inState .deployed live).measurements (.die 0))[0]?.isSome = true
    ∧ (after (.spdmRequest (.die 0) .mctp (.getMeasurements 1)) (inState .raw live)).io.outputs = [.mgmt 0 0 [0x12, 0x7F, 0x05, 0]] := by
  decide +kernel
theorem witness_generates : (match (inState .deployed live).generates 0 2 with | (.bytes b, _) => decide (b.length = 96) | _ => false) = true := by
  decide +kernel

/-- A journal without a blank slot. -/
def journalFull : State := live.modWarden (fun w => { w with journal := .const ⟨1, 1⟩ })

theorem witness_transition : live.sys.warden.running = true ∧ live.sys.warden.inputOk = true
    ∧ transition .raw live.sys.warden.readJournal.2.1 .retired = some false ∧ live.sys.warden.slotFor .retired = some 0
    ∧ transition .raw live.sys.warden.readJournal.2.1 .provisioned = some true ∧ live.sys.warden.slotFor .provisioned = some 0
    ∧ transition .raw live.sys.warden.readJournal.2.1 .deployed = none ∧ journalFull.sys.warden.slotFor .retired = none
    ∧ (after (.lcTransition .deployed ⟨true, .verified⟩ none) live).io.outputs = [.mgmt 4 Code.lcDenied.val.toNat []]
    ∧ (after (.lcTransition .retired ⟨false, .verified⟩ none) live).sys.warden.lc = .raw := by decide +kernel

/-- Where the words of RETIRED do not verify, the slot is spent and the state stays; and the nonce. -/
theorem witness_transition_runs :
    let torn := after (.lcTransition .retired ⟨true, .torn 0 1⟩ none) live
    torn.sys.warden.lc = .raw ∧ torn.sys.warden.journal.get (slotKey 1 0) = ⟨transWord 0 .raw .retired false &&& 1, 0⟩
      ∧ torn.io.outputs = [.mgmt 4 Code.lcDenied.val.toNat []] ∧ (after (.nonceRequest true) live).sys.warden.nonce.map (·.length) = some 48
      ∧ (after (.nonceRequest false) live).sys.warden.nonce = none ∧ State.reset.sys.warden.running = false := by decide +kernel

/-- A token of KIND 2 for debug level 1 of die 0, with the nonce 1, 1, …, and a signature of zeros. -/
def token : Token := bytesOf 168 [(0, 4, 0x4C435431), (4, 1, 2), (5, 1, 1)] |> fun b => overlay b 24 (List.replicate 48 1)

/-- The tray in DIAGNOSTIC with that nonce issued. -/
def diagnosed : State := (inState .diagnostic live).modWarden (fun w => { w with nonce := some (List.replicate 48 1) })

/-- Where the signature verifies, the token is right: only the signature rests on a function the model leaves open. -/
theorem witness_token (h : Config.ecdsaVerify diagnosed.sys.fuses.authDigest (sha384 (token.take 72)) (sliceB token 72 96) = true) :
    diagnosed.tokenOk token 2 1 0 = true := by
  have hd : (decide (token.length = 168) && decide (fieldLe token 0 4 = 0x4C435431) && decide (fieldLe token 4 1 = 2) && decide (fieldLe token 5 1 = 1)
    && decide (fieldLe token 6 1 = 0) && decide (sliceB token 8 16 = diagnosed.sys.fuses.traySerial)
    && decide (diagnosed.sys.warden.nonce = some (sliceB token 24 48))) = true := by decide +kernel
  unfold State.tokenOk
  rw [h, hd]
  rfl
theorem witness_unlock : diagnosed.sys.warden.running = true ∧ diagnosed.sys.warden.lc = .diagnostic := by decide +kernel

/-- Die 0 runs a Steward and a runtime signed by the keys of slots 1 and 2. -/
def signed : State := live.modSec 0 (fun c => { c with steward := some ⟨3, 1, 0, []⟩, runtime := some ⟨4, 2, 0, []⟩ })

theorem witness_revoke : (signed.sys.clk.get 0).supplied = true ∧ (signed.sys.sec.get 0).steward.map (·.key) = some 1
    ∧ (signed.sys.sec.get 0).runtime.map (·.key) = some 2 ∧ (after (.keyRevoke 0 3) signed).sys.fuses.revoked.get 0 = 8
    ∧ (after (.keyRevoke 0 1) signed).sys.fuses.revoked.get 0 = 0
    ∧ (after (.keyRevoke 0 1) signed).io.outputs = [.mgmt 4 Code.lcDenied.val.toNat []] := by decide +kernel

/-- START of a capture of all four streams, of two samples. -/
def startCapture : Word := BitVec.ofNat 64 (2 ^ 63 + 15 * 2 ^ 56 + 2)

theorem witness_capture : bitOf startCapture.toNat 63 = true ∧ diagnosed.dieUp 0 = true ∧ (diagnosed.sys.sec.get 0).lc = some .diagnostic
    ∧ bitOf (diagnosed.visWord (capKey 0 false)) 63 = false ∧ bitsOf startCapture.toNat 20 0 = 2 ∧ (live.sys.sec.get 0).lc ≠ some .diagnostic
    ∧ ((after (.rawCapture 0 false startCapture) diagnosed).sys.sec.get 0).captures.get? 0 = some ⟨15, 2⟩ := by decide +kernel
theorem witness_capture_end :
    let t := after (.rawCaptureEnd 0 false [⟨true, false, true⟩, ⟨false, true, true⟩]) (after (.rawCapture 0 false startCapture) diagnosed)
    t.mem.mem.bytes (captureAddr 0 false) 1 = [0x65] ∧ bitOf (t.visWord (capKey 0 false)) 63 = false := by decide +kernel

/-- What is not dirty; a token outside a session, or not good; a capture without START, of no sample, and outside DIAGNOSTIC; samples that are not
as many; a key revoked without Warden. -/
theorem witness_identity_others :
    let caps (v : Nat) (s : State) := ((after (.rawCapture 0 false (BitVec.ofNat 64 v)) s).sys.sec.get 0).captures.get? 0
    let t := after (.rawCapture 0 false startCapture) diagnosed
    (after (.unitClear 0 (.unit 1)) dirty).mem.mem.cells = dirty.mem.mem.cells
      ∧ (after (.unitClear 0 (.frame 0x101)) dirty).mem.mem.cells = dirty.mem.mem.cells
      ∧ (after (.debugUnlock 0 1 false []) diagnosed).sys.warden.nonce.isSome = true
      ∧ (after (.debugUnlock 0 1 true []) diagnosed).sys.warden.nonce = none
      ∧ (after (.debugUnlock 0 1 true []) diagnosed).io.outputs = [.mgmt 4 Code.lcDenied.val.toNat []]
      ∧ caps (15 * 2 ^ 56 + 2) diagnosed = none ∧ caps (2 ^ 63 + 15 * 2 ^ 56) diagnosed = none
      ∧ caps (2 ^ 63 + 15 * 2 ^ 56 + 2 ^ 20 + 1) diagnosed = none ∧ caps startCapture.toNat live = none
      ∧ (after (.rawCapture 0 false startCapture) live).io.outputs = [.mgmt 4 Code.lcDenied.val.toNat []]
      ∧ ((after (.rawCaptureEnd 0 false [⟨true, false, true⟩]) t).sys.sec.get 0).captures.get? 0 = some ⟨15, 2⟩
      ∧ (after (.keyRevoke 0 3) State.reset).sys.fuses.revoked.get 0 = 0 := by decide +kernel

/-- SPDM requests in and out of their order, with and without an open session. -/
theorem witness_spdm_others :
    let s := inState .deployed live
    let open_ (l : List Nat) : State := { s with sys := { s.sys with spdm := .const ⟨3, l, 0⟩ } }
    let replies (q : SpdmReq) (s : State) : List Output := (after (.spdmRequest (.die 0) .mctp q) s).io.outputs
    let err (e : Byte) : List Output := [.mgmt 0 0 [0x12, 0x7F, e, 0]]
    replies .otherVersion s = err 0x41 ∧ replies .unsupported s = err 0x07 ∧ replies .negotiateAlgorithms live = err 0x04 ∧ replies .getDigests live = err 0x04
      ∧ replies (.getCertificate 7) s = err 0x01 ∧ replies (.getMeasurements 99) s = err 0x01 ∧ replies (.finish 1) s = err 0x02
      ∧ replies (.keyExchange 0) (open_ [1, 2, 3, 4]) = err 0x0A
      ∧ ((after (.spdmRequest (.die 0) .mctp (.endSession 1)) (open_ [1, 2])).sys.spdm.get 0).sessions = [2]
      ∧ ((after (.spdmRequest (.die 0) .mctp .getVersion) s).sys.spdm.get 0).negotiated = 1
      ∧ ((after (.spdmRequest (.die 0) .mctp (.keyExchange 0)) s).sys.spdm.get 0).sessions = [0] := by decide +kernel

/-! ### Management and firmware -/

/-- The units of all dies in a service state. -/
def unitsIn (st : UnitState) (mgmt : Bool) (s : State) : State :=
  { s with ras := { s.ras with units := .const { UnitRec.reset with st := st, gen := 7, origin := mgmt } } }

/-- The same tray with no die ready. -/
def coming (s : State) : State := { s with sys := { s.sys with clk := .const { upClk with ready := false, step := 5 } } }

theorem witness_unit_states : live.ras.noService = false ∧ live.sys.warden.running = true
    ∧ ((coming live).sys.clk.get 0).supplied = true ∧ ((coming live).sys.clk.get 0).ready = false ∧ (coming live).dieFencedB 0 = false
    ∧ (after (.setUnitState 0 3 true true) (coming live)).sys.warden.held = [⟨0, 3, true⟩]
    ∧ (after (.setUnitState 0 3 true false) live).io.outputs = [.mgmt 4 Code.cfgDenied.val.toNat []]
    ∧ (after (.setUnitState 0 3 false true) (unitsIn .fenced false live)).io.outputs = [.mgmt 4 Code.cfgDenied.val.toNat [UnitState.fenced.code, 7, 0]]
    ∧ (after (.setUnitState 0 3 true true) (unitsIn .inService false live)).io.outputs = [.mgmt 4 0 [0, 7, 0]]
    ∧ (after (.setUnitState 0 3 true true) (unitsIn .offline true live)).sys.warden.testing = [(unitKey 0 3, false)] := by decide +kernel
theorem witness_unit_offline : ((unitsIn .inService false live).unitRec 0 3).st = .inService ∧ ((unitsIn .inService false live).unitRec 0 3).gen = 7 := by
  decide +kernel

/-- The GO of MGT_UNITREQ of die 0 for unit 3. -/
def asksUnit (req gen : Nat) (s : State) : State := withReg ⟨.mgtUnitreq, 0, 0, 0⟩ (2 ^ 63 + req * 2 ^ 56 + gen * 2 ^ 16 + 3) s

theorem witness_unitreq :
    let res (s : State) : Nat := bitsOf ((after (.mgtUnitreq 0) s).visWord ⟨.mgtUnitreq, 0, 0, 0⟩) 63 32
    bitOf ((asksUnit 2 7 live).appWord ⟨.mgtUnitreq, 0, 0, 0⟩) 63 = true
      ∧ res (asksUnit 2 7 (unitsIn .offline true live)) % 2 ^ 16 = Code.cfgDenied.val.toNat
      ∧ res (asksUnit 2 6 (unitsIn .offline false live)) % 2 ^ 16 = Code.cfgDenied.val.toNat
      ∧ res (asksUnit 0 7 (unitsIn .offline false live)) % 2 ^ 16 = Code.cfgDenied.val.toNat
      ∧ res (asksUnit 1 7 (unitsIn .fenced false live)) % 2 ^ 16 = Code.cfgDenied.val.toNat
      ∧ (after (.mgtUnitreq 0) (asksUnit 2 7 (unitsIn .offline false live))).sys.warden.testing = [(unitKey 0 3, true)]
      ∧ bitOf (res (asksUnit 2 7 (unitsIn .offline false live))) 31 = false := by decide +kernel

/-- The tests of an ONLINE of unit 3 run. -/
def testing : State := (unitsIn .offline false live).modWarden (fun w => { w with testing := [(unitKey 0 3, true)] })

/-- An ONLINE of a link whose other die is up passes, and of one whose is not fails; a unit that is not tested stays. -/
theorem witness_test_ends :
    let s := (unitsIn .offline false live).modWarden (fun w => { w with testing := [(unitKey 0 32, false)] })
    let alone : State := { s with sys := { s.sys with clk := s.sys.clk.set 1 DieClk.reset } }
    ((after (.bringUpTestEnd 0 32 true) s).unitRec 0 32).st = .inService ∧ ((after (.bringUpTestEnd 0 32 true) alone).unitRec 0 32).st = .fenced
      ∧ ((after (.bringUpTestEnd 0 32 true) alone).unitRec 0 32).cause = Code.unitInternal.val
      ∧ (after (.bringUpTestEnd 0 32 true) s).io.outputs = [.mgmt 4 0 [0, 8, 0]]
      ∧ (after (.bringUpTestEnd 0 33 true) s).sys.warden.testing = [(unitKey 0 32, false)] := by decide +kernel

/-- What OFFLINE and what already is; and requests below the minimum service set and without Warden. -/
theorem witness_unit_states_others :
    let quiet : State := { live with ras := { live.ras with noService := true } }
    let out (c : Instr) (s : State) := (after c s).io.outputs
    out (.setUnitState 0 3 false true) quiet = [.mgmt 4 Code.noService.val.toNat []]
      ∧ out (.setUnitState 0 3 false true) State.reset = [] ∧ ((after (.setUnitState 0 3 false true) (unitsIn .inService false live)).unitRec 0 3).st = .offline
      ∧ bitOf ((after (.mgtUnitreq 0) (asksUnit 1 7 (unitsIn .offline false live))).visWord ⟨.mgtUnitreq, 0, 0, 0⟩) 63 = false
      ∧ ((after (.mgtUnitreq 0) (asksUnit 1 7 (unitsIn .inService false live))).unitRec 0 3).gen = 8
      ∧ (after (.mgtUnitreq 0) (coming (asksUnit 1 7 (unitsIn .inService false live)))).sys.warden.testing = []
      ∧ (coming live).dieUp 0 = false := by decide +kernel

theorem witness_test_end : testing.sys.warden.testing.find? (fun x => x.1 == unitKey 0 3) = some (unitKey 0 3, true) := by decide +kernel

theorem witness_queries : (live.sys.warden.cache.get (unitKey 0 3)) = none ∧ sensorExists 16 = true ∧ sensorFed 16 = true ∧ sensorExists 1 = true
    ∧ sensorFed 1 = false ∧ sensorExists 8 = false ∧ sensorExists 20 = false
    ∧ (live.modWarden (fun w => { w with cache := .const (some ⟨.offline, 1, 9, 2⟩) })).sys.warden.cache.get (unitKey 0 3) = some ⟨.offline, 1, 9, 2⟩
    ∧ ({ live with ras := { live.ras with noService := true } } : State).ras.noService = true
    ∧ (after .getTrayStatus live).io.outputs = [.mgmt 4 0 [0, 0, 0, 0, 0, 0, 0, 0]]
    ∧ (after .getPldmTypes live).io.outputs = [.mgmt 4 0 [0x35, 0, 0, 0, 0, 0, 0, 0]]
    ∧ (after (.getSensorReading 16) (live.modWarden (fun w => (w.sense 16 9).sense 16 5))).io.outputs = [.mgmt 4 0 [5, 0, 0, 0, 9, 0, 0, 0]] := by
  decide +kernel

theorem witness_settings : live.sys.warden.eid = none ∧ (live.modWarden (fun w => { w with eid := some 8, dieEids := some 20 })).sys.warden.dieEids = some 20
    ∧ (after (.mctpControl (.die 2) .getEid) (live.modWarden (fun w => { w with dieEids := some 20 }))).io.outputs = [.mgmt 2 0 [22]]
    ∧ (after (.mctpControl .warden (.negotiateUnit 63)) live).sys.warden.unitBytes = 64
    ∧ (after (.mctpControl .warden (.negotiateUnit 256)) live).sys.warden.unitBytes = 256
    ∧ (after (.setPowerCap 1 200 true) live).sys.warden.capW.get 1 = 200 ∧ (after (.setPowerCap 1 199 true) live).sys.warden.capW.get 1 = 560
    ∧ (after (.setPowerCap 1 600 true) live).sys.warden.capW.get 1 = 560 := by decide +kernel

/-- Answers without an identifier, of an absent sensor, of a type that is not supported, and below the minimum service set. -/
theorem witness_answers_others :
    let quiet : State := { live with ras := { live.ras with noService := true } }
    let out (c : Instr) (s : State) := (after c s).io.outputs
    out (.mctpControl .warden .getEid) live = [.mgmt 4 0 [0]] ∧ out (.mctpControl (.die 1) .getEid) live = [.mgmt 1 0 [0]]
      ∧ out (.mctpControl .warden (.negotiateUnit 63)) live = [.mgmt 4 2 []] ∧ out (.mctpControl .warden (.allocateEids 3 8)) live = [.mgmt 4 2 []]
      ∧ out (.mctpControl (.die 1) (.allocateEids 4 8)) live = [.mgmt 1 5 []] ∧ out (.mctpControl (.die 1) .getEid) State.reset = []
      ∧ (after (.mctpControl (.die 1) (.setEid 9)) live).sys.warden.dieEids = some 8
      ∧ out (.getSensorReading 8) live = [.mgmt 4 0x80 []] ∧ out (.getPldmVersion 1) live = [.mgmt 4 0x83 []]
      ∧ out (.getUnitState 0 3) quiet = [.mgmt 4 Code.noService.val.toNat []] ∧ out (.setPowerCap 0 300 true) quiet = [.mgmt 4 Code.noService.val.toNat []]
      ∧ out (.setPowerCap 0 300 false) live = [.mgmt 4 Code.cfgDenied.val.toNat []] ∧ out .getTrayStatus State.reset = [] := by decide +kernel

/-- A Steward image of no payload, SVN 3, signed for key slot 0. -/
def image : List Byte := overlay (bytesOf 384 [(0, 4, 0x5A494D31), (4, 1, 1), (5, 1, 3)]) 16 (sha384 [])

/-- The tray whose fuses have that key, with the image in copy A and staged. -/
def imaged (s : State) : State :=
  (s.modFuses (fun f => { f with keyDigests := .const (sha384 (sliceB image 160 97)) })).modWarden (fun w => { w with
    images := .const image })

/-- The form of the image, apart from its signature, is right. -/
theorem witness_image_form :
    (decide (384 ≤ image.length) && decide (fieldLe image 0 4 = 0x5A494D31) && (some 1).all (fun k => fieldLe image 4 1 == k)
      && (sliceB image 7 1 ++ sliceB image 80 80 ++ sliceB image 257 31).all (fun x => x == 0)
      && decide (imageSlot image < 4) && decide (sha384 (sliceB image 160 97) = (imaged live).sys.fuses.keyDigests.get (imageSlot image))
      && decide (384 + fieldLe image 8 8 ≤ image.length) && decide (sha384 (sliceB image 384 (fieldLe image 8 8)) = sliceB image 16 48)) = true
    ∧ (!bitOf ((imaged live).sys.fuses.revoked.get 0) (imageSlot image) && decide ((imaged live).sys.fuses.svn.get 0 ≤ imageSvn image)) = true
    ∧ (imaged live).sys.warden.images.get (imageKey .steward 0) = image := by decide +kernel

/-- Where the signature verifies, the die accepts it: only the signature rests on a function the model leaves open. -/
theorem witness_image (h : Config.ecdsaVerify (sha384 (sliceB image 160 97)) (imageDigest image) (sliceB image 288 96) = true) :
    (imaged live).imageOk 0 1 image = true := by
  have hf := witness_image_form
  unfold State.imageOk State.imageSigned
  simp only [h, hf.1, Bool.true_and]
  exact hf.2.1

/-- An image too short to be one fails. -/
def staged (n : Nat) : State := live.modWarden (fun w => { w with
  images := .const [1], verified := [imageKey .runtime 0], activating := if n = 0 then none else some (imageKey .runtime 0, n) })

theorem witness_firmware : (staged 0).sys.warden.activating = none ∧ (staged 0).stagedOk .runtime = false ∧ (staged 0).stagedOk .wardenFw = false
    ∧ (staged 0).sys.warden.verified.contains (imageKey .runtime 0) = true ∧ (staged 3).sys.warden.activating = some (imageKey .runtime 0, 3)
    ∧ (after (.activateFirmware .runtime) (staged 0)).sys.warden.activating = some (imageKey .runtime 0, 1)
    ∧ (after (.activateFirmware .runtime) (staged 1)).sys.warden.activating = some (imageKey .runtime 0, 2)
    ∧ (after (.verifyComplete .runtime) (staged 0)).sys.warden.verified = [] := by decide +kernel

/-- Die 0 runs the images of its copies A, of SVN 3 and 4. -/
def running34 : State := (live.modWarden (fun w => { w with images := .const [1] })).modSec 0 (fun c => { c with
  steward := some ⟨3, 1, 0, imageDigest [1]⟩, runtime := some ⟨4, 2, 0, imageDigest [1]⟩ })

theorem witness_svn : running34.runsCopyA (running34.sys.sec.get 0).steward .steward = true
    ∧ running34.runsCopyA (running34.sys.sec.get 1).steward .steward = false
    ∧ (after (.commitSvn 3 true) running34).sys.fuses.svn.get 0 = 3 ∧ (after (.commitSvn 3 true) running34).sys.fuses.svn.get 1 = 0 := by decide +kernel

/-- The last step of an activation; a kind under activation; and a commit of SVNs without its session, for a die that runs no copy A, and below
the minimum service set. -/
theorem witness_firmware_others :
    let quiet : State := { running34 with ras := { running34.ras with noService := true } }
    (after (.activateFirmware .runtime) (staged 3)).sys.warden.activating = none
      ∧ (after (.activateFirmware .runtime) (staged 3)).sys.warden.log.map (·.code) = [Code.fwUpdate.val]
      ∧ (after (.firmwareComponentTransfer .runtime [2]) (staged 1)).sys.warden.images.get (imageKey .runtime 2) = [1]
      ∧ (after (.firmwareComponentTransfer .runtime [2]) (staged 0)).sys.warden.images.get (imageKey .runtime 2) = [2]
      ∧ (after (.activateFirmware .steward) (staged 0)).io.outputs = [.mgmt 4 1 []]
      ∧ (after (.commitSvn 1 false) running34).io.outputs = [.mgmt 4 Code.cfgDenied.val.toNat []]
      ∧ (after (.commitSvn 1 true) quiet).io.outputs = [.mgmt 4 Code.noService.val.toNat []]
      ∧ (after (.commitSvn 1 true) running34).io.outputs = [.mgmt 4 0 [3, 0, 0, 0]] := by decide +kernel

/-! ### Power, throttling and coolant -/

/-- Die 0 at a level, with a decision, the last change at TICK `c`, cool since TICK `k`, now at TICK `now`. -/
def powered (level : Nat) (pending : Option (Nat × Nat)) (c k : Option Nat) (now : Word) : State :=
  { live.modPower 0 (fun p => { p with level := level, pending := pending, changed := c, coolSince := k }) with
    sys := { (live.modPower 0 (fun p => { p with level := level, pending := pending, changed := c, coolSince := k })).sys with
      clk := .const { upClk with tick := now } } }

theorem witness_throttle_decision :
    let hot : PowerReading := ⟨600000, 500000, 800⟩
    let cool : PowerReading := ⟨100000, 100000, 300⟩
    let mid : PowerReading := ⟨540000, 540000, 300⟩
    let q (r : PowerReading) (s : State) : Option (Nat × Nat) := ((after (.throttleDecision 0 r) s).sys.power.get 0).pending
    live.powerLimitOf 0 = 560000 ∧ 10 * live.appF .mgtPowerlimit 0 0 0 31 24 = 950
      ∧ q hot (powered 1 none (some 0) none 25000) = some (2, 25000) ∧ q hot (powered 1 none (some 0) none 24999) = none
      ∧ q hot (powered 3 none none none 25000) = none ∧ q hot (powered 1 (some (2, 7)) none none 25000) = some (2, 7)
      ∧ q cool (powered 2 none (some 0) (some 0) 2500000) = some (1, 2500000) ∧ q mid (powered 2 none (some 0) (some 0) 2500000) = none := by
  decide +kernel
theorem witness_throttle :
    let s := powered 0 (some (1, 999)) none none 1000
    s.extTick 0 % 5 = 0 ∧ (islandNodes 0).contains 9 = true ∧ s.heldIsland 9 = false ∧ (islandNodes 0).contains 3 = false
      ∧ ((after (.throttle 0) s).sys.power.get 0).level = 1 ∧ ((after (.throttle 0) s).sys.power.get 0).islands.get 9 = 1
      ∧ ((after (.throttle 0) s).sys.power.get 0).islands.get 3 = 0
      ∧ ((after (.throttle 0) (powered 0 (some (1, 1000)) none none 1000)).sys.power.get 0).level = 0 := by decide +kernel
theorem witness_power_limit : live.powerLimitOf 0 + 1000 * live.appF .mgtPowerlimit 0 0 0 57 48 < 700000
    ∧ ((after (.powerLimit 0 ⟨0, 700000, 300⟩ 0 true) live).sys.power.get 0).pending = some (3, 1001)
    ∧ ((after (.powerLimit 0 ⟨0, 500000, 300⟩ 2400000 false) live).sys.power.get 0).hard = 1
    ∧ ((after (.powerLimit 0 ⟨0, 500000, 300⟩ 2400000 true) live).sys.power.get 0).hard = 0 := by decide +kernel
theorem witness_supplies : live.sys.warden.resetQueue = [] ∧ live.sys.warden.inputOk = true
    ∧ (live.modWarden (fun w => { w with inputOk := false, inputFault := true })).sys.warden.inputFault = true := by decide +kernel
theorem witness_coolant : (after (.coolantTemp 401) live).sys.warden.tempLogged = true ∧ (after (.coolantTemp 401) live).sys.warden.log.length = 1
    ∧ (after (.coolantTemp 400) live).sys.warden.log.length = 0 ∧ (after (.coolantTemp 402) (after (.coolantTemp 401) live)).sys.warden.log.length = 1
    ∧ (after (.coolantFlow .low) live).powerLimitOf 0 = 280000 ∧ (after (.coolantFlow .restored) (after (.coolantFlow .low) live)).powerLimitOf 0 = 560000 := by
  decide +kernel

/-- A tick between boundaries, readings within the limits, and a hard action that breaks the die's scheduled regions at the next Pulse edge. -/
theorem witness_power_others :
    let s := powered 0 (some (1, 999)) none none 1001
    let breaking := { live.modPower 0 (fun p => { p with breaking := true }) with net := { live.net with scheds := [region] } }
    ((after (.throttle 0) s).sys.power.get 0).level = 0 ∧ ((after (.powerLimit 0 ⟨0, 560000, 1029⟩ 0 true) live).sys.power.get 0).pending = none
      ∧ ((after (.powerLimit 0 ⟨0, 560000, 1030⟩ 0 true) live).sys.power.get 0).breaking = true
      ∧ breaking.sys.warden.pulse = true ∧ region.ports.any (fun y => decide (nodeDie y.node = 0)) = true
      ∧ (after .pulseEdge breaking).net.scheds.map (·.broken) = [true]
      ∧ ((after .pulseEdge breaking).sys.power.get 0).breaking = false := by decide +kernel

/-- The end of a coolant condition does not bring the supplies back; a temperature below 105 degrees, and a command without Warden, change
nothing. -/
theorem witness_supplies_others :
    (after (.coolantFlow .cleared) (live.modWarden (fun w => { w with coolantOff := true, coolantBad := true }))).sys.warden.coolantOff = true
      ∧ ((after (.thermalTrip 1 1049) live).sys.clk.get 1).supplied = true ∧ (live.sys.clk.get 1).supplied = true
      ∧ (after (.coolantTemp 500) State.reset).sys.warden.log.length = 0 := by decide +kernel

/-! ### Resets and bring-up -/

theorem witness_power_on : State.reset.sys.warden.powered = false ∧ State.reset.sys.warden.activating = none
    ∧ State.reset.sys.warden.readJournal.1 ≠ .retired
    ∧ (after .powerOn State.reset).sys.warden.running = true ∧ ((after .powerOn State.reset).sys.clk.get 3).supplied = true := by decide +kernel

/-- Die 1 comes up. -/
def die1Comes : State := live.modClk 1 (fun k => { k with ready := false, step := 3 })

theorem witness_die_reset : live.judged = true ∧ die1Comes.judged = false ∧ (die1Comes.sys.clk.get 0).supplied = true
    ∧ (after (.dieReset 0) die1Comes).sys.warden.resetQueue = [0] := by decide +kernel
theorem witness_warden_reset : (after .wardenReset diagnosed).sys.warden.nonce = none ∧ (after .wardenReset diagnosed).sys.warden.lc = .raw
    ∧ diagnosed.sys.warden.readJournal.1 ≠ .retired := by decide +kernel

/-- The GO of GLB_UNITRESET of die 0 for a unit. -/
def resetAsked (u : Nat) (s : State) : State := withReg ⟨.glbUnitreset, 0, 0, 0⟩ (2 ^ 63 + u) s

theorem witness_unit_reset :
    let s := resetAsked 0 (withReqs [request 5] live)
    bitOf (s.appWord ⟨.glbUnitreset, 0, 0, 0⟩) 63 = true ∧ bitsOf (s.appWord ⟨.glbUnitreset, 0, 0, 0⟩) 5 0 = 0 ∧ (s.resetUnit 0 0).1 = .cfgBusy
      ∧ s.req.requests.any (fun q => q.running && q.nodes.contains (unitNode 0 0)) = true
      ∧ bitsOf ((after (.unitReset 0) s).visWord ⟨.glbUnitreset, 0, 0, 0⟩) 47 32 = Code.cfgBusy.val.toNat := by decide +kernel
theorem witness_unit_reset_free : ((resetAsked 16 live).resetUnit 0 16).1 = .ok ∧ ((resetAsked 20 live).resetUnit 0 20).1 = .ok
    ∧ ((resetAsked 0 live).resetUnit 0 0).1 = .ok := by decide +kernel
theorem witness_partition_reset : (withReg ⟨.glbPartreset, 0, 0, 0⟩ (2 ^ 63) live).partResetting 0 = true ∧ live.req.rings.rest = Ring.reset := by
  decide +kernel
theorem witness_reset_command : live.sys.warden.running = true ∧ live.ras.noService = false ∧ live.sys.warden.coolantOff = false
    ∧ (live.sys.clk.get 0).supplied = true ∧ live.dieUp 0 = true
    ∧ (after (.reset (.partition 3) true) live).partResetting 3 = true
    ∧ (after (.reset .warden false) live).io.outputs = [.mgmt 4 Code.cfgDenied.val.toNat []] := by decide +kernel

/-- Die 0 stands before step `n`, the other dies at step `m`, in a tray bring-up. -/
def before (n m : Nat) (ref : Option Nat) : State :=
  let k (i : Nat) : DieClk := { upClk with aligned := false, step := i, ready := false, resets := 0 }
  { live with sys := { live.sys with clk := (Tbl.const (k m)).set 0 (k (n - 1)), trayBring := true, refDie := ref } }

theorem witness_bring_up_fuses : (before 1 0 none).stepDue 0 1 = true ∧ (before 1 0 none).sys.warden.resetQueue = []
    ∧ ((after (.d1 0 true) ((before 1 0 none).modFuses (fun f => { f with fusedScs := .const 4 }))).unitRec 0 2).st = .fused
    ∧ ((after (.d1 0 true) (before 1 0 none)).sys.clk.get 0).step = 1 := by decide +kernel
theorem witness_bring_up_lock : (before 2 0 none).stepDue 0 2 = true ∧ ((after (.d2 0 true) (before 2 0 none)).sys.clk.get 0).tick = 0
    ∧ (before 3 0 none).stepDue 0 3 = true ∧ ((before 3 0 none).unitRec 0 28).st = .inService
    ∧ ((after (.d3 0 true) (before 3 0 none)).sys.clk.get 0).trained = [0]
    ∧ ((after (.d5 0 true true true) (before 5 0 none)).sys.clk.get 0).trained = [1, 2, 3] := by decide +kernel

/-- Die 0 before D4, where the image of copy A is the Steward's and no runtime image is kept. -/
def beforeImages : State := (before 4 0 none).modWarden (fun w => { w with images := .const [1] })

theorem witness_bring_up_images : beforeImages.stepDue 0 4 = true ∧ beforeImages.bootImage 0 .steward = none ∧ beforeImages.sys.warden.running = true := by
  decide +kernel

/-- Where the signature of the image verifies, a die takes the image as Steward. -/
theorem witness_boot_image (h : Config.ecdsaVerify (sha384 (sliceB image 160 97)) (imageDigest image) (sliceB image 288 96) = true) :
    (imaged live).bootImage 0 .steward = some ⟨3, 0, 0, imageDigest image⟩ := by
  have hi := witness_image h
  have hc : (imaged live).sys.warden.images.get (imageKey .steward 0) = image := witness_image_form.2.2
  have hs : imageSvn image = 3 ∧ imageSlot image = 0 := by decide +kernel
  have hf : [0, 1].find? (fun c => (imaged live).imageOk 0 1 ((imaged live).sys.warden.images.get (imageKey .steward c))) = some 0 :=
    List.find?_cons_of_pos (by rw [hc]; exact hi)
  unfold State.bootImage
  dsimp only
  rw [hf, Option.map_some, hc, hs.1, hs.2]

theorem witness_bring_up_tests : (before 6 0 none).stepDue 0 6 = true ∧ ((before 6 0 none).unitRec 0 3).st = .inService
    ∧ (before 6 0 none).appF .secSpindlectl 0 0 0 0 0 = 1 ∧ ((before 6 0 none).comp.spindles.get (spindleKey 0 false)).st = .off
    ∧ ((after (.d6 0 [] [] true) (before 6 0 none)).sys.clk.get 0).step = 6
    ∧ ((after (.d6 0 [] [] true) (before 6 0 none)).comp.spindles.get (spindleKey 0 false)).st = .startup := by decide +kernel
theorem witness_bring_up_clear : (before 7 0 none).stepDue 0 7 = true
    ∧ addrUnit (2 ^ 40 + 8) = some (0, 0) ∧ sysDie (2 ^ 40 + 8) = none ∧ addrUnit (2 ^ 40 + 16 * 2 ^ 22) = some (1, 0)
    ∧ (sysDie (sysBase 0)).isSome = true ∧ (addrUnit (sysBase 0)).isSome = true := by decide +kernel
theorem witness_bring_up_links : (before 8 9 none).stepDue 0 8 = true ∧ (before 8 9 none).linkEndOk 0 (linkUnit 0 1) = true
    ∧ (before 8 9 none).linkEndOk 1 (linkUnit 0 1) = true ∧ (before 8 9 none).halfOnly 0 1 = false ∧ (before 8 0 none).halfOnly 0 1 = false
    ∧ ((after (.d8 0 7 0 0) (before 8 9 none)).link.links.get (linkKey 0 1)).st = .up32
    ∧ ((after (.d8 0 7 0 0) (before 8 0 none)).link.links.get (linkKey 0 1)).st = .training := by decide +kernel
theorem witness_bring_up_align : (before 9 0 none).stepDue 0 9 = true ∧ (before 9 0 none).sys.trayBring = true
    ∧ ((after (.d9 0) (before 9 0 none)).sys.clk.get 0).aligned = true := by decide +kernel

/-- Die 1 is at D9 after die 0, the reference. -/
def follows : State := (before 10 8 (some 0)).modClk 0 (fun k => { k with aligned := true, stepAge := 3 })

theorem witness_bring_up_follow : follows.stepDue 1 9 = true ∧ follows.sys.refDie = some 0 ∧ follows.linkUp 0 1 = true ∧ follows.dieFencedB 0 = false
    ∧ ((after (.d9 1) follows).link.dirs.get (dirKey 0 1)).words.length = 1 := by decide +kernel
theorem witness_bring_up_ready :
    let s := (before 10 9 (some 0)).modWarden (fun w => { w with mgtOffline := [unitKey 0 3] })
    s.stepDue 0 10 = true ∧ s.alignComing 0 = false ∧ s.sys.warden.mgtOffline.contains (unitKey 0 28) = false
      ∧ s.sys.warden.held = [] ∧ (s.unitRec 0 3).st = .inService := by decide +kernel
theorem witness_bring_up_late :
    let s := (before 10 9 (some 0)).modClk 0 (fun k => { k with age := 312500000 })
    (s.sys.clk.get 0).supplied = true ∧ (s.sys.clk.get 0).ready = false ∧ s.dieFencedB 0 = false ∧ 312500000 ≤ (s.sys.clk.get 0).age
      ∧ (before 10 9 (some 0)).stepDue 0 10 = true := by decide +kernel

/-- A reset that waits behind a die that comes up, one of a die without supply, and one below the minimum service set; a coolant condition that has
cleared, whose tray reset is taken all the same. -/
theorem witness_resets_others :
    let quiet (off : Bool) : State := { live.modWarden (fun w => { w with coolantOff := off }) with ras := { live.ras with noService := true } }
    let dark : State := live.modClk 2 (fun k => { k with supplied := false, ready := false })
    (after (.reset .tray true) (quiet false)).io.outputs = [.mgmt 4 Code.noService.val.toNat []]
      ∧ (quiet true).sys.warden.coolantBad = false ∧ (after (.reset (.die 2) true) dark).io.outputs = [.mgmt 4 Code.cfgDenied.val.toNat []]
      ∧ (after (.reset (.unit 2 0) true) dark).io.outputs = [.mgmt 4 Code.cfgDenied.val.toNat []]
      ∧ (after (.dieReset 2) dark).sys.warden.resetQueue = [] ∧ live.judged = true ∧ (after (.dieReset 0) State.reset).sys.warden.resetQueue = []
      ∧ live.partResetting 0 = false ∧ bitOf (live.appWord ⟨.glbUnitreset, 0, 0, 0⟩) 63 = false := by decide +kernel

/-- The reset of a unit that a scheduled region uses, and of a link whose dies both run. -/
theorem witness_unit_reset_others :
    let sched := { resetAsked 0 live with net := { live.net with scheds := [region] } }
    let link := { resetAsked 32 live with link := { live.link with links := .const { Link.reset with st := .down } } }
    region.broken = false ∧ region.ports.any (fun y => decide (y.node = unitNode 0 0)) = true ∧ (sched.resetUnit 0 0).1 = .cfgBusy
      ∧ ((after (.unitReset 0) link).link.links.get (linkKey 0 1)).st = .training
      ∧ bitOf ((after (.unitReset 0) link).visWord ⟨.glbUnitreset, 0, 0, 0⟩) 63 = false := by decide +kernel

/-- Units that fail, links that do not train, and a command that does not come next. -/
theorem witness_bring_up_fails :
    ((after (.d5 0 false true true) (before 5 0 none)).unitRec 0 29).st = .fenced ∧ (before 1 0 none).stepDue 0 2 = false
      ∧ ((after (.d6 0 [3] [2] true) (before 6 0 none)).unitRec 0 2).cause = Code.zcgKatFail.val := by decide +kernel
theorem witness_bring_up_links_fail :
    ((after (.d8 0 0 0 0) (before 8 9 none)).link.links.get (linkKey 0 1)).st = .down
      ∧ ((after (.d8 0 0 7 7) (before 8 9 none)).link.links.get (linkKey 0 1)).st = .up16 := by decide +kernel

/-- Alone, a die follows the lowest aligned die with a link to it; and two that reach D9 in one tick. -/
theorem witness_bring_up_references :
    let alone := (before 9 9 none).modClk 1 (fun k => { k with aligned := true, ready := true, step := 10 })
    let alone : State := { alone with sys := { alone.sys with trayBring := false } }
    let none_ : State := { before 9 9 none with sys := { (before 9 9 none).sys with trayBring := false } }
    let both := (before 9 9 (some 1)).modClk 1 (fun k => { k with aligned := true, stepAge := 0 })
    alone.referenceOf 0 = some 1 ∧ ((after (.d9 0) alone).link.dirs.get (dirKey 1 0)).words.length = 1 ∧ none_.referenceOf 0 = none
      ∧ ((after (.d9 0) none_).sys.clk.get 0).aligned = false ∧ (after (.d9 0) both).sys.refDie = some 0
      ∧ ((after (.d9 0) both).sys.clk.get 1).aligned = false := by decide +kernel

end Sys2Proof.Tests
end

section
/-! SUPPORT. Which commands answer a next state, and which stop at a node identifier that names no node (R6). -/

namespace Sys2Proof.Answering

open Sys2Proof.Machine

/-- A meaning answers a next state: it neither stops with a fault nor is refused. -/
def Answers (o : Out) : Prop := ∃ t, o = .next t

theorem answers_next (t : State) : Answers (.next t) := ⟨t, rfl⟩

theorem answers_ite {p : Prop} [Decidable p] {x y : Out} (hx : Answers x) (hy : Answers y) : Answers (if p then x else y) := by
  split
  · exact hx
  · exact hy

/-- A command that may wait for a held bank answers where its own effect does (R253). -/
theorem answers_heldWait {f : State → Out} (hf : ∀ u, Answers (f u)) (s : State) : Answers (heldWait s f) := by
  obtain ⟨t, ht⟩ := hf s
  unfold heldWait
  rw [ht]
  exact answers_ite (answers_ite (answers_next _) (answers_next _)) (answers_next _)

theorem answers_heldWait_next (g : State → State) (s : State) : Answers (heldWait s (fun u => .next (g u))) :=
  answers_heldWait (fun u => answers_next (g u)) s

/-! ### Commands that name a router -/

/-- The rows the model's commands look for are those a well-formed command may name: 0 to 5 (R5, R6). -/
theorem nodeValid_eq_nodeOk (n : NodeId) : nodeValid n.toNat = nodeOk n := by
  rw [nodeValid, decide_eq_true n.isLt, Bool.true_and]
  rfl

theorem answers_atNode {n : NodeId} (hn : nodeOk n = true) {x : Out} (hx : Answers x) :
    Answers (if !nodeValid n.toNat then .fault .noSuchNode else x) := by
  simpa [nodeValid_eq_nodeOk, hn] using hx

/-- A command that names a router stops where the row of the identifier is 6 or 7 (R6). -/
theorem faults_atNoNode {n : NodeId} (hn : nodeOk n = false) (x : Out) :
    (if !nodeValid n.toNat then .fault .noSuchNode else x) = .fault .noSuchNode := by
  simp [nodeValid_eq_nodeOk, hn]

theorem answers_freeRunningHandover {n : NodeId} (hn : nodeOk n = true) (p : Port) (s : State) :
    Answers (execFreeRunningHandover n p s) := by
  refine answers_atNode hn ?_
  split <;> exact answers_next _

/-! ### Encodings that a core executes (R171, R178) -/

theorem answers_execXzor (core : CoreId) (w : Nat) (s : State) : Answers (execXzor core w s) := by
  unfold execXzor
  dsimp only
  split <;> exact answers_next _

theorem answers_execWord (core : CoreId) (w len : Nat) (s : State) : Answers (execWord core w len s) := by
  unfold execWord
  dsimp only
  split
  case h_5 => exact answers_execXzor core w s
  all_goals exact answers_next _

theorem answers_illegalInstruction (core : CoreId) (word : Word32) (s : State) : Answers (execIllegalInstruction core word s) :=
  answers_ite (answers_next _) (answers_ite (answers_next _) (answers_ite (answers_execWord ..) (answers_execWord ..)))

/-! ### Commands that arrive at or start on an engine

Each is unfolded by name, so that no definitional check looks into the reads of its record. -/

theorem answers_teCommandArrive (te : TeId) (s : State) : Answers (execTeCommandArrive te s) := by
  unfold execTeCommandArrive
  exact answers_heldWait_next _ s

theorem answers_rluCommandArrive (ms : MsId) (s : State) : Answers (execRluCommandArrive ms s) := by
  unfold execRluCommandArrive
  exact answers_heldWait_next _ s

theorem answers_copyArrive (ms : MsId) (s : State) : Answers (execCopyArrive ms s) := by
  unfold execCopyArrive
  exact answers_heldWait_next _ s

theorem answers_copyStart (ms : MsId) (s : State) : Answers (execCopyStart ms s) := by
  unfold execCopyStart
  exact answers_heldWait_next _ s

/-! ### Every command -/

/-- A command whose operands are of the tray answers a next state: those that name a router, by their row; those that may wait for a
held bank, as their effect does; a core's instruction, by its encoding; every other has an effect that is a next state as it stands. -/
theorem exec_answers (c : Instr) (s : State) (hc : c.wellFormed = true) : Answers (exec c s) := by
  cases c
  case flitSend | crossingHandover | packetEject | netFlitUe | scheduledTick | phaseNoticeArrive | phaseBegin | beaconOpApply
      | watchAnswer | watchCancel | tableWalk =>
    exact answers_atNode hc (answers_next _)
  case freeRunningHandover => exact answers_freeRunningHandover hc _ s
  case teCommandArrive => exact answers_teCommandArrive _ s
  case rluCommandArrive => exact answers_rluCommandArrive _ s
  case copyArrive => exact answers_copyArrive _ s
  case copyStart => exact answers_copyStart _ s
  case sweepEnd | matmul | tileStreamStart | tileDrainStart | quantTileWrite | combine | teCommandEnd | rluCommandStart
      | copyBatch | copyEnd | steerArrive | steerTransmit | seedDraw | requestEnd | replayStop | trailWrite | run | replay
      | loadModel | updateCouplings | readState | bindStream | digestFinal | ptUpdate | schedInstall | partitionEventWrite
      | throttle =>
    exact answers_heldWait (fun _ => answers_next _) s
  case reset | d4 | d10 => exact answers_ite (answers_next _) (answers_next _)
  case illegalInstruction => exact answers_illegalInstruction ..
  all_goals exact answers_next _

/-- Settles O7: the case analysis over the commands, and the check of the row that every command of a router begins with. -/
theorem commandsAnswer : Obligations.CommandsAnswer := by
  unfold Obligations.CommandsAnswer
  refine ⟨exec_answers, fun n s hn => ⟨fun _ _ => ?_, fun _ => ?_, fun _ => ?_, ?_, fun _ => ?_, fun _ => ?_, fun _ _ => ?_,
    fun _ _ => ?_, ?_, ?_, ?_, ?_⟩⟩
  all_goals exact faults_atNoNode hn _

end Sys2Proof.Answering
end

section
/-! SUPPORT. Bit fields of numbers: what a field reads after a field is written. -/

namespace Sys2Proof.Bits

open Sys2Proof.Machine

theorem bitsOf_lt (v hi lo : Nat) : bitsOf v hi lo < 2 ^ (hi + 1 - lo) := Nat.mod_lt _ (Nat.two_pow_pos _)

theorem testBit_bitsOf (v hi lo i : Nat) : (bitsOf v hi lo).testBit i = (decide (i < hi + 1 - lo) && v.testBit (lo + i)) := by
  rw [bitsOf, Nat.testBit_mod_two_pow, Nat.testBit_div_two_pow, Nat.add_comm i]

/-- A field of two numbers is the same where their bits in it are. -/
theorem bitsOf_congr {a b hi lo : Nat} (h : ∀ i, lo ≤ i → i ≤ hi → a.testBit i = b.testBit i) : bitsOf a hi lo = bitsOf b hi lo := by
  apply Nat.eq_of_testBit_eq
  intro i
  rw [testBit_bitsOf, testBit_bitsOf]
  by_cases hi' : i < hi + 1 - lo
  · rw [h (lo + i) (by omega) (by omega)]
  · simp [hi']

/-- A number with a field replaced, as the part above the field, the field, and the part below it. -/
theorem putBits_eq (x hi lo v : Nat) :
    putBits x hi lo v = 2 ^ lo * (2 ^ (hi + 1 - lo) * (x / 2 ^ lo / 2 ^ (hi + 1 - lo)) + v % 2 ^ (hi + 1 - lo)) + x % 2 ^ lo := by
  unfold putBits bitsOf
  generalize 2 ^ (hi + 1 - lo) = w
  generalize 2 ^ lo = l
  have hx := Nat.div_add_mod x l
  have hq := congrArg (l * ·) (Nat.div_add_mod (x / l) w)
  simp only [Nat.mul_add] at hq ⊢
  rw [Nat.mul_comm _ l, Nat.mul_comm _ l]
  omega

theorem testBit_putBits (x hi lo v i : Nat) :
    (putBits x hi lo v).testBit i = if lo ≤ i ∧ i ≤ hi then v.testBit (i - lo) else x.testBit i := by
  rw [putBits_eq, Nat.testBit_two_pow_mul_add _ (Nat.mod_lt _ (Nat.two_pow_pos _))]
  by_cases h : i < lo
  · rw [if_pos h, if_neg (by omega), Nat.testBit_mod_two_pow]
    simp [h]
  · rw [if_neg h, Nat.testBit_two_pow_mul_add _ (Nat.mod_lt _ (Nat.two_pow_pos _))]
    by_cases h' : i ≤ hi
    · rw [if_pos (by omega), if_pos (by omega), Nat.testBit_mod_two_pow]
      simp [show i - lo < hi + 1 - lo by omega]
    · rw [if_neg (by omega), if_neg (by omega), Nat.testBit_div_two_pow, Nat.testBit_div_two_pow]
      exact congrArg x.testBit (by omega)

theorem bitsOf_putBits_same {x hi lo v : Nat} (hv : v < 2 ^ (hi + 1 - lo)) : bitsOf (putBits x hi lo v) hi lo = v := by
  apply Nat.eq_of_testBit_eq
  intro i
  rw [testBit_bitsOf, testBit_putBits]
  by_cases h : i < hi + 1 - lo
  · simp [h, show lo + i ≤ hi by omega]
  · have hv' : v.testBit i = false :=
      Nat.testBit_lt_two_pow (Nat.lt_of_lt_of_le hv (Nat.pow_le_pow_right (by decide) (by omega)))
    simp [h, hv']

theorem bitsOf_putBits_apart {hi lo h l : Nat} (ha : hi < l ∨ h < lo) (x v : Nat) : bitsOf (putBits x hi lo v) h l = bitsOf x h l := by
  apply bitsOf_congr
  intro i _ _
  rw [testBit_putBits, if_neg (by omega)]

/-- The fields of a stored register are those of the number written into it. -/
theorem bitsOf_ofNat {hi : Nat} (h : hi < 64) (v lo : Nat) : bitsOf (BitVec.ofNat 64 v).toNat hi lo = bitsOf v hi lo := by
  apply bitsOf_congr
  intro i _ _
  rw [BitVec.toNat_ofNat, Nat.testBit_mod_two_pow]
  simp [show i < 64 by omega]

end Sys2Proof.Bits
end

section
/-! SUPPORT. The set-up registers: what shows and what the hardware uses after a change, fields after a write (R16 to R20), and event
records (R525 to R530). -/

namespace Sys2Proof.Registers

open Sys2Proof.Machine Sys2Proof.Laws Sys2Proof.Bits

/-! ### Stored words -/

theorem visWord_eq_of_get {s : State} {k : RegKey} {v : Word} (h : s.sys.regs.vis.get? k = some v) : s.visWord k = v.toNat := by
  simp [State.visWord, h]

@[simp] theorem visWord_hwSet_same (s : State) (k : RegKey) (hi lo v : Nat) :
    (s.hwSet k hi lo v).visWord k = (BitVec.ofNat 64 (putBits (s.visWord k) hi lo v)).toNat :=
  visWord_eq_of_get (by simp [State.hwSet])

theorem hwSet_vis_other {j k : RegKey} (h : j ≠ k) (s : State) (hi lo v : Nat) :
    (s.hwSet k hi lo v).sys.regs.vis.get? j = s.sys.regs.vis.get? j := by simp [State.hwSet, map_get_set_other h]

theorem hwSet_app_other {j k : RegKey} (h : j ≠ k) (s : State) (hi lo v : Nat) :
    (s.hwSet k hi lo v).sys.regs.app.get? j = s.sys.regs.app.get? j := by simp [State.hwSet, map_get_set_other h]

/-- The hardware's own change of a register leaves the fields outside those bits. -/
theorem bitsOf_hwSet_apart {hi lo h l : Nat} (hh : h < 64) (ha : hi < l ∨ h < lo) (s : State) (k : RegKey) (v : Nat) :
    bitsOf ((s.hwSet k hi lo v).visWord k) h l = bitsOf (s.visWord k) h l := by
  rw [visWord_hwSet_same, bitsOf_ofNat hh, bitsOf_putBits_apart ha]

theorem bitsOf_hwSet_same {hi lo v : Nat} (hh : hi < 64) (hv : v < 2 ^ (hi + 1 - lo)) (s : State) (k : RegKey) :
    bitsOf ((s.hwSet k hi lo v).visWord k) hi lo = v := by
  rw [visWord_hwSet_same, bitsOf_ofNat hh, bitsOf_putBits_same hv]

/-! ### Fields -/

/-- The fields of a register are listed from the most significant bit down and do not overlap. -/
theorem fieldsOf_descending (n : RegName) : (fieldsOf n).Pairwise (fun f g => g.hi < f.lo) := by cases n <;> decide

theorem fieldsOf_hi_lt (n : RegName) : ∀ f ∈ fieldsOf n, f.hi < 64 := by cases n <;> decide

/-- What a field shows after a word is written over the current one. -/
def fieldAfter (cur w : Nat) (keep : Field → Bool) (x : Field) : Nat :=
  if keep x then bitsOf cur x.hi x.lo
  else match x.acc with
    | .ro => bitsOf cur x.hi x.lo
    | .rw => bitsOf w x.hi x.lo
    | .w1s => bitsOf cur x.hi x.lo ||| bitsOf w x.hi x.lo

/-- One field of a written word put into the word so far, or left as it stands there. -/
def writeField (cur w : Nat) (keep : Field → Bool) (acc : Nat) (f : Field) : Nat :=
  if keep f then acc
  else match f.acc with
    | .ro => acc
    | .rw => putBits acc f.hi f.lo (bitsOf w f.hi f.lo)
    | .w1s => putBits acc f.hi f.lo (bitsOf cur f.hi f.lo ||| bitsOf w f.hi f.lo)

theorem writeFields_eq_foldl (cur w : Nat) (fs : List Field) (keep : Field → Bool) :
    writeFields cur w fs keep = fs.foldl (writeField cur w keep) cur := rfl

theorem bitsOf_writeField_apart {f : Field} {h l : Nat} (ha : f.hi < l ∨ h < f.lo) (cur w : Nat) (keep : Field → Bool) (acc : Nat) :
    bitsOf (writeField cur w keep acc f) h l = bitsOf acc h l := by
  unfold writeField
  split
  · rfl
  · split
    · rfl
    · exact bitsOf_putBits_apart ha ..
    · exact bitsOf_putBits_apart ha ..

theorem bitsOf_writeField_same {cur acc : Nat} {f : Field} (hacc : bitsOf acc f.hi f.lo = bitsOf cur f.hi f.lo) (w : Nat)
    (keep : Field → Bool) : bitsOf (writeField cur w keep acc f) f.hi f.lo = fieldAfter cur w keep f := by
  unfold writeField fieldAfter
  split
  · exact hacc
  · split
    · exact hacc
    · exact bitsOf_putBits_same (bitsOf_lt ..)
    · exact bitsOf_putBits_same (Nat.or_lt_two_pow (bitsOf_lt ..) (bitsOf_lt ..))

theorem bitsOf_foldl_apart {fs : List Field} {h l : Nat} (ha : ∀ f ∈ fs, f.hi < l ∨ h < f.lo) (cur w : Nat) (keep : Field → Bool)
    (acc : Nat) : bitsOf (fs.foldl (writeField cur w keep) acc) h l = bitsOf acc h l := by
  induction fs generalizing acc with
  | nil => rfl
  | cons f fs ih =>
    rw [List.foldl_cons, ih fun g hg => ha g (.tail _ hg)]
    exact bitsOf_writeField_apart (ha f (.head _)) ..

/-- The fields written before and after a field do not touch it. -/
theorem bitsOf_foldl_writeField {fs : List Field} (hfs : fs.Pairwise (fun f g => g.hi < f.lo)) {x : Field} (hx : x ∈ fs) {cur acc : Nat}
    (hacc : ∀ f ∈ fs, bitsOf acc f.hi f.lo = bitsOf cur f.hi f.lo) (w : Nat) (keep : Field → Bool) :
    bitsOf (fs.foldl (writeField cur w keep) acc) x.hi x.lo = fieldAfter cur w keep x := by
  induction fs generalizing acc with
  | nil => simp at hx
  | cons f fs ih =>
    obtain ⟨hf, hfs⟩ := List.pairwise_cons.mp hfs
    rw [List.foldl_cons]
    rcases List.mem_cons.mp hx with rfl | hx
    · rw [bitsOf_foldl_apart fun g hg => .inl (hf g hg)]
      exact bitsOf_writeField_same (hacc x (.head _)) w keep
    · refine ih hfs hx fun g hg => ?_
      rw [bitsOf_writeField_apart (.inr (hf g hg))]
      exact hacc g (.tail _ hg)

/-- A field of a register after a write (R16 to R20). -/
theorem bitsOf_writeFields {n : RegName} {x : Field} (hx : x ∈ fieldsOf n) (cur w : Nat) (keep : Field → Bool) :
    bitsOf (writeFields cur w (fieldsOf n) keep) x.hi x.lo = fieldAfter cur w keep x :=
  bitsOf_foldl_writeField (fieldsOf_descending n) hx (fun _ _ => rfl) w keep

/-! ### Event records (R525 to R530) -/

theorem platformEvent_keeps {A : Type} (π : State → A) (hio : ∀ s f, π (State.modIo s f) = π s) (s : State) (r : EventRec) :
    π (s.platformEvent r) = π s := by
  unfold State.platformEvent
  split
  · split
    · exact hio ..
    · rfl
  · rfl

/-- The die's own part of logging a code: the record in its tray log, and Warden's receiver told (R525, R567). -/
def noteEvent (s : State) (d : Nat) (r : EventRec) : State :=
  (s.modRas (fun k => { k with logs := k.logs.modify d (·.add r) })).platformEvent r

theorem noteEvent_keeps {A : Type} (π : State → A) (hras : ∀ s f, π (State.modRas s f) = π s) (hio : ∀ s f, π (State.modIo s f) = π s)
    (s : State) (d : Nat) (r : EventRec) : π (noteEvent s d r) = π s := by rw [noteEvent, platformEvent_keeps π hio, hras]

theorem noteEvent_logs (s : State) (d : Nat) (r : EventRec) : (noteEvent s d r).ras.logs = s.ras.logs.modify d (·.add r) :=
  platformEvent_keeps (·.ras.logs) (fun _ _ => rfl) ..

/-- A logged code stays at its die, reaches an admitting die of the same die, or goes to another as a packet (R525). -/
theorem log_cases (s : State) (d node : Nat) (part : Option Nat) (c : Code) (a1 a2 : Nat) :
    let r := s.mkEvent d node part c a1 a2
    s.log d node part c a1 a2 = noteEvent s d r
      ∨ (∃ ad, s.log d node part c a1 a2
          = (noteEvent s d r).modRas (fun k => { k with evtArrivals := k.evtArrivals.modify ad (· ++ [r]) }))
      ∨ ∃ src dst pay, s.log d node part c a1 a2 = (noteEvent s d r).send src dst 0 1 part none pay := by
  intro r
  unfold State.log
  dsimp only
  generalize (if node = 255 then ctlNode d else node) = src
  split
  · exact .inl rfl
  · split
    · exact .inr (.inl ⟨_, rfl⟩)
    · exact .inr (.inr ⟨_, _, _, rfl⟩)

/-- What the fault logic, the network and the outputs do not hold is as it was after a code is logged. -/
theorem log_keeps {A : Type} (π : State → A) (hras : ∀ s f, π (State.modRas s f) = π s) (hnet : ∀ s f, π (State.modNet s f) = π s)
    (hio : ∀ s f, π (State.modIo s f) = π s) (s : State) (d node : Nat) (part : Option Nat) (c : Code) (a1 a2 : Nat) :
    π (s.log d node part c a1 a2) = π s := by
  have hnote := noteEvent_keeps π hras hio s d (s.mkEvent d node part c a1 a2)
  obtain h | ⟨ad, h⟩ | ⟨src, dst, pay, h⟩ := log_cases s d node part c a1 a2
  · rw [h, hnote]
  · rw [h, hras, hnote]
  · rw [h, send_net]
    exact (hnet _ (fun _ => _)).trans hnote

@[simp] theorem log_sys (s : State) (d n : Nat) (p : Option Nat) (c : Code) (x y : Nat) : (s.log d n p c x y).sys = s.sys :=
  log_keeps (·.sys) (fun _ _ => rfl) (fun _ _ => rfl) (fun _ _ => rfl) ..
@[simp] theorem log_mem (s : State) (d n : Nat) (p : Option Nat) (c : Code) (x y : Nat) : (s.log d n p c x y).mem = s.mem :=
  log_keeps (·.mem) (fun _ _ => rfl) (fun _ _ => rfl) (fun _ _ => rfl) ..
@[simp] theorem log_comp (s : State) (d n : Nat) (p : Option Nat) (c : Code) (x y : Nat) : (s.log d n p c x y).comp = s.comp :=
  log_keeps (·.comp) (fun _ _ => rfl) (fun _ _ => rfl) (fun _ _ => rfl) ..

/-- A code that names no partition goes to no admitting die. -/
@[simp] theorem log_net_of_no_part (s : State) (d n : Nat) (c : Code) (x y : Nat) : (s.log d n none c x y).net = s.net :=
  platformEvent_keeps (·.net) (fun _ _ => rfl) ..

theorem trayLog_add_mem (l : TrayLog) (r : EventRec) : ∃ q ∈ (l.add r).recs, q.code = r.code ∧ q.arg1 = r.arg1 := by
  unfold TrayLog.add
  split
  · exact ⟨r, by simp, rfl, rfl⟩
  · exact ⟨{ r with lost := true }, by simp, rfl, rfl⟩

theorem log_logs (s : State) (d n : Nat) (p : Option Nat) (c : Code) (x y : Nat) :
    (s.log d n p c x y).ras.logs = s.ras.logs.modify d (·.add (s.mkEvent d n p c x y)) := by
  rw [← noteEvent_logs]
  obtain h | ⟨ad, h⟩ | ⟨src, dst, pay, h⟩ := log_cases s d n p c x y
  · rw [h]
  · rw [h]; rfl
  · rw [h, send_ras]

/-- A logged code stands in the tray log of its die. -/
theorem log_recorded (s : State) (d n : Nat) (p : Option Nat) (c : Code) (x y : Nat) :
    ∃ r ∈ ((s.log d n p c x y).ras.logs.get d).recs, r.code = c.val ∧ r.arg1 = BitVec.ofNat 64 x := by
  rw [log_logs, tbl_get_modify_same]
  exact trayLog_add_mem _ (s.mkEvent d n p c x y)

end Sys2Proof.Registers
end

section
/-! SUPPORT. Writes of functions to the set-up registers, case by case (R16, R20, R497 to R499, R609, R618, R622), and the MSI-X table
(R633). -/

namespace Sys2Proof.RegWrites

open Sys2Proof.Machine Sys2Proof.Laws Sys2Proof.Bits Sys2Proof.Registers

/-! ### The MSI-X table (R633) -/

theorem msix_keeps {A : Type} (π : State → A) (hio : ∀ s f, π (State.modIo s f) = π s) (s : State) (port func v : Nat) :
    π (s.msix port func v) = π s := by
  unfold State.msix
  dsimp only
  split
  · rfl
  · split <;> exact hio ..

theorem setMask_keeps {A : Type} (π : State → A) (hio : ∀ s f, π (State.modIo s f) = π s) (s : State) (port func v : Nat) (m : Bool) :
    π (s.setMask port func v m) = π s := by
  unfold State.setMask
  dsimp only
  split
  · rw [msix_keeps π hio]
    exact (hio ..).trans (hio ..)
  · exact hio ..

theorem msixWrite_keeps {A : Type} (π : State → A) (hio : ∀ s f, π (State.modIo s f) = π s) (s : State) (port func o : Nat) (w : BarWidth)
    (v : Nat) : π (s.msixWrite port func o w v) = π s := by
  unfold State.msixWrite
  dsimp only
  split
  · exact hio ..
  · rw [setMask_keeps π hio]
    exact hio ..

/-- A message leaves the table and the masks of every port. -/
theorem msix_table_masked (s : State) (port func v p : Nat) :
    ((s.msix port func v).io.hps.get p).table = (s.io.hps.get p).table
      ∧ ((s.msix port func v).io.hps.get p).masked = (s.io.hps.get p).masked := by
  unfold State.msix
  dsimp only
  split
  · simp
  · split
    · by_cases h : p = port <;> simp [tbl_get_modify, h]
    · simp

theorem setMask_table (s : State) (port func v : Nat) (m : Bool) :
    ((s.setMask port func v m).io.hps.get port).table = (s.io.hps.get port).table := by
  unfold State.setMask
  dsimp only
  split
  · rw [(msix_table_masked ..).1]; simp
  · simp

theorem setMask_masked (s : State) (port func v : Nat) (m : Bool) :
    ((s.setMask port func v m).io.hps.get port).masked = (s.io.hps.get port).masked.set (func, v) m := by
  unfold State.setMask
  dsimp only
  split
  · rw [(msix_table_masked ..).2]; simp
  · simp

/-- A word of the table after a write of it: 64 bits of address, or the data with the mask in bit 32. -/
theorem msixWord_msixWrite (s : State) (port func o : Nat) (w : BarWidth) (v : Nat) :
    (s.msixWrite port func o w v).msixWord port func o
      = halves (s.msixWord port func o) w v % (if o % 16 = 0 then 2 ^ 64 else 2 ^ 33) := by
  unfold State.msixWrite
  generalize halves (s.msixWord port func o) w v = new
  dsimp only
  split
  · next h => simp [State.msixWord, h]
  · next h =>
    simp only [State.msixWord, h, if_false, setMask_table, setMask_masked]
    have hbit := Nat.testBit_eq_decide_div_mod_eq (x := new) (i := 32)
    simp only [tbl_get_modify_same, modHp_hps, tbl_get_set_same, bitOf, b2n, hbit, decide_eq_true_eq,
      BitVec.toNat_ofNat]
    split <;> omega

/-! ### Writes at an offset of BAR0 -/

/-- A write that names nothing the command writes is dropped (R524, R602, R617). -/
theorem barStore_dropped {s : State} {f : FuncRef} {off : Nat} {ok : RegName → Bool}
    (h : off % 8 ≠ 0 ∨ s.dieServes f.port.val = false ∨ s.barTarget f.port.val f.func.val off = .reserved
      ∨ (∃ o, s.barTarget f.port.val f.func.val off = .pba o)
      ∨ ∃ k, s.barTarget f.port.val f.func.val off = .reg k ∧ ok k.name = false) (w : BarWidth) (v : Nat) (msix : Bool) :
    s.barStore f off w v ok msix = s := by
  unfold State.barStore
  dsimp only
  split
  · rfl
  · next hopen =>
    simp only [Bool.or_eq_true, decide_eq_true_eq, Bool.not_eq_true', not_or] at hopen
    obtain h | h | h | ⟨o, h⟩ | ⟨k, h, hk⟩ := h
    · exact absurd h hopen.1
    · exact absurd h hopen.2
    · rw [h]
    · rw [h]
    · rw [h]; simp [hk]

theorem barStore_reg {s : State} {f : FuncRef} {off : Nat} {k : RegKey} {ok : RegName → Bool} (ha : off % 8 = 0)
    (hs : s.dieServes f.port.val = true) (ht : s.barTarget f.port.val f.func.val off = .reg k) (hk : ok k.name = true) (w : BarWidth)
    (v : Nat) (msix : Bool) : s.barStore f off w v ok msix = s.barWrite f.port.val f.func.val off k w v := by
  simp [State.barStore, ha, hs, ht, hk]

theorem barStore_msix {s : State} {f : FuncRef} {off o : Nat} (ha : off % 8 = 0) (hs : s.dieServes f.port.val = true)
    (ht : s.barTarget f.port.val f.func.val off = .msix o) (w : BarWidth) (v : Nat) (ok : RegName → Bool) (msix : Bool) :
    s.barStore f off w v ok msix = if msix then s.msixWrite f.port.val f.func.val o w v else s := by
  simp [State.barStore, ha, hs, ht]

/-! ### Refused writes (R498, R499, R609, R618, R622) -/

theorem regWrite_unreachable {s : State} {port : Nat} {k : RegKey} {e : Code} (h : s.unreachable port k = some e) (func : Nat)
    (w : BarWidth) (v : Nat) : s.regWrite port func k w v = (some e, s) := by simp [State.regWrite, h]

theorem regWrite_denied {s : State} {port func : Nat} {k : RegKey} (h : s.unreachable port k = none)
    (hw : s.mayWrite port func k = false) (w : BarWidth) (v : Nat) : s.regWrite port func k w v = (some .cfgDenied, s) := by
  simp [State.regWrite, h, hw]

theorem regWrite_resetting {s : State} {port func : Nat} {k : RegKey} (h : s.unreachable port k = none)
    (hw : s.mayWrite port func k = true) (hp : k.part.any (fun p => s.partResetting p) = true) (w : BarWidth) (v : Nat) :
    s.regWrite port func k w v = (some .cfgBusy, s) := by
  simp [State.regWrite, h, hw, hp]

theorem regWrite_permitted {s : State} {port func : Nat} {k : RegKey} (h : s.unreachable port k = none)
    (hw : s.mayWrite port func k = true) (hp : k.part.any (fun p => s.partResetting p) = false) (w : BarWidth) (v : Nat) :
    s.regWrite port func k w v = s.takeWrite port func k w v := by
  simp [State.regWrite, h, hw, hp]

theorem barWrite_refused {s u : State} {port func : Nat} {k : RegKey} {w : BarWidth} {v : Nat} {e : Code}
    (h : s.regWrite port func k w v = (some e, u)) (off : Nat) : s.barWrite port func off k w v = u.logRefused port func off k e := by
  simp [State.barWrite, h]

theorem barWrite_done {s u : State} {port func : Nat} {k : RegKey} {w : BarWidth} {v : Nat}
    (h : s.regWrite port func k w v = (none, u)) (off : Nat) : s.barWrite port func off k w v = u := by
  simp [State.barWrite, h]

/-- What a refusal shows in a ring's CODE field lies with the requests and rings (R499). -/
theorem showRefused_keeps {A : Type} (π : State → A) (hreq : ∀ s f, π (State.modReqs s f) = π s) (s : State) (k : RegKey) (c : Code) :
    π (s.showRefused k c) = π s := by
  have hring (b : Bool) : π (if c = .cfgBusy then s.modRing (ringKey k.a b k.b) (fun r => { r with code := c.val }) else s) = π s := by
    split
    · exact hreq ..
    · rfl
  unfold State.showRefused
  split
  · exact hring false
  · exact hring false
  · exact hring false
  · exact hring true
  · exact hring true
  · exact hring true
  · exact hring true
  · rfl

/-- A refused write is logged with its code, function and offset. -/
theorem logRefused_recorded (s : State) (port func off : Nat) (k : RegKey) (e : Code) :
    ∃ d, ∃ r ∈ ((s.logRefused port func off k e).ras.logs.get d).recs,
      r.code = e.val ∧ r.arg1 = BitVec.ofNat 64 (funcArg port func off) := by
  unfold State.logRefused
  dsimp only
  rw [showRefused_keeps (·.ras.logs) (fun _ _ => rfl)]
  exact ⟨_, log_recorded ..⟩

theorem logRefused_keeps {A : Type} (π : State → A) (hreq : ∀ s f, π (State.modReqs s f) = π s)
    (hlog : ∀ s d c a, π (State.log s d 255 none c a 0) = π s) (s : State) (port func off : Nat) (k : RegKey) (e : Code) :
    π (s.logRefused port func off k e) = π s := by
  unfold State.logRefused
  dsimp only
  rw [showRefused_keeps π hreq, hlog]

@[simp] theorem logRefused_sys (s : State) (port func off : Nat) (k : RegKey) (e : Code) :
    (s.logRefused port func off k e).sys = s.sys := logRefused_keeps (·.sys) (fun _ _ => rfl) (fun _ _ _ _ => log_sys ..) ..
@[simp] theorem logRefused_mem (s : State) (port func off : Nat) (k : RegKey) (e : Code) :
    (s.logRefused port func off k e).mem = s.mem := logRefused_keeps (·.mem) (fun _ _ => rfl) (fun _ _ _ _ => log_mem ..) ..
@[simp] theorem logRefused_comp (s : State) (port func off : Nat) (k : RegKey) (e : Code) :
    (s.logRefused port func off k e).comp = s.comp := logRefused_keeps (·.comp) (fun _ _ => rfl) (fun _ _ _ _ => log_comp ..) ..
@[simp] theorem logRefused_net (s : State) (port func off : Nat) (k : RegKey) (e : Code) :
    (s.logRefused port func off k e).net = s.net := logRefused_keeps (·.net) (fun _ _ => rfl) (fun _ _ _ _ => log_net_of_no_part ..) ..

end Sys2Proof.RegWrites
end

section
/-! SUPPORT. What a permitted write does to a register: refused, without effect, or taken (R16, R20, R497 to R499). -/

namespace Sys2Proof.RegTaken

open Sys2Proof.Machine Sys2Proof.Laws Sys2Proof.Bits Sys2Proof.Registers

/-! ### The parts of a write -/

/-- The word a write presents to a register, and the lower half held after it (R15, R16). -/
def given (s : State) (port func : Nat) (k : RegKey) (bw : BarWidth) (v : Nat) : Nat × Option Nat :=
  presented (s.visWord k) (s.sys.regs.holds.get? (port, func, k)) (fieldsOf k.name) bw v

/-- Whether a field keeps its value: a reserved encoding has been presented to it (R20). -/
def keeps (s : State) (port : Nat) (k : RegKey) (word : Nat) (x : Field) : Bool :=
  decide (x.acc ≠ .ro) && decide (bitsOf word x.hi x.lo ≠ bitsOf (s.visWord k) x.hi x.lo)
    && s.reservedField port k x (bitsOf word x.hi x.lo)

/-- What a register is to show after a word is presented to it. -/
def newWord (s : State) (port : Nat) (k : RegKey) (word : Nat) : Nat :=
  writeFields (s.visWord k) word (fieldsOf k.name) (keeps s port k word)

/-- Holds with that of one function and register replaced (R16). -/
def putHold (holds : Map (Nat × Nat × RegKey) Nat) (key : Nat × Nat × RegKey) (held : Option Nat) : Map (Nat × Nat × RegKey) Nat :=
  match held with
  | some h => holds.set key h
  | none => holds.erase key

theorem putHold_get (holds : Map (Nat × Nat × RegKey) Nat) (key : Nat × Nat × RegKey) (held : Option Nat) :
    (putHold holds key held).get? key = held := by
  cases held
  · exact map_get_erase_same ..
  · exact map_get_set_same ..

/-- The state with the hold that a write leaves. -/
def withHold (s : State) (key : Nat × Nat × RegKey) (held : Option Nat) : State :=
  s.modRegs (fun r => { r with holds := putHold r.holds key held })

/-- The state in which a register shows a new word, due to be used at the next tick (R497). -/
def showWord (s : State) (k : RegKey) (n : Nat) : State :=
  s.modRegs (fun r => { r with
    vis := r.vis.set k (BitVec.ofNat 64 n), due := if r.due.contains k then r.due else r.due ++ [k] })

/-- The state after a write has been taken. -/
def taken (s : State) (port func : Nat) (k : RegKey) (bw : BarWidth) (word : Nat) (held : Option Nat) : State :=
  let n := newWord s port k word
  ((showWord (withHold s (port, func, k) held) k n).markDirty k (s.visWord k) n).afterWrite port func k bw

/-! ### The cases of a permitted write -/

section
variable {s : State} {port func : Nat} {k : RegKey} {bw : BarWidth} {v word : Nat} {held : Option Nat}

theorem takeWrite_locked (hg : given s port func k bw v = (word, held)) (hl : s.lockedHit k (s.visWord k) word = true) :
    s.takeWrite port func k bw v
      = (some .cfgBusy, if bw = .low then s else s.modRegs (fun r => { r with holds := r.holds.erase (port, func, k) })) := by
  unfold given at hg
  unfold State.takeWrite
  simp only [hg, hl, if_true]

/-- The whole word holds a reserved value, for which no code is given (R20). -/
theorem takeWrite_reserved (hg : given s port func k bw v = (word, held)) (hl : s.lockedHit k (s.visWord k) word = false)
    (hne : newWord s port k word ≠ s.visWord k) (hr : s.reservedWord k (newWord s port k word) = some none) :
    s.takeWrite port func k bw v = (none, withHold s (port, func, k) held) := by
  unfold given at hg
  unfold newWord keeps at hne hr
  unfold State.takeWrite
  simp only [hg, hl, hne, hr, if_false, Bool.false_eq_true]
  rfl

/-- The whole word breaks a rule that has a code of its own (R20, R499). -/
theorem takeWrite_reserved_code {e : Code} (hg : given s port func k bw v = (word, held))
    (hl : s.lockedHit k (s.visWord k) word = false) (hne : newWord s port k word ≠ s.visWord k)
    (hr : s.reservedWord k (newWord s port k word) = some (some e)) :
    s.takeWrite port func k bw v
      = (none, (withHold s (port, func, k) held).log (if k.name.ofPartition then port else k.a) 255 k.part e 0 0) := by
  unfold given at hg
  unfold newWord keeps at hne hr
  unfold State.takeWrite
  simp only [hg, hl, hne, hr, if_false, Bool.false_eq_true]
  rfl

theorem takeWrite_taken (hg : given s port func k bw v = (word, held)) (hl : s.lockedHit k (s.visWord k) word = false)
    (hr : newWord s port k word = s.visWord k ∨ s.reservedWord k (newWord s port k word) = none) :
    s.takeWrite port func k bw v = (none, taken s port func k bw word held) := by
  have hr' : (if newWord s port k word = s.visWord k then none else s.reservedWord k (newWord s port k word)) = none := by
    rcases hr with h | h <;> simp [h]
  unfold given at hg
  unfold newWord keeps at hr'
  unfold State.takeWrite
  simp only [hg, hl, hr', if_false, Bool.false_eq_true]
  rfl

end

end Sys2Proof.RegTaken
end

section
/-! SUPPORT. The state after a taken write: the register's fields, and what stays as it was (R16, R497, R498). -/

namespace Sys2Proof.RegTaken

open Sys2Proof.Machine Sys2Proof.Laws Sys2Proof.Bits Sys2Proof.Registers

/-! ### What else a taken write sets -/

/-- Dirty units and frames lie with a die's identity state; only a write of TE_MODECTL clears memory (R149, R547). -/
theorem markDirty_keeps {A : Type} (π : State → A) (hsec : ∀ s d f, π (State.modSec s d f) = π s) {k : RegKey}
    (hpoke : k.name = .teModectl → ∀ (s : State) n a bs, π (State.pokeMem { s with free := n } a bs) = π s) (s : State) (old new : Nat) :
    π (s.markDirty k old new) = π s := by
  unfold State.markDirty
  split
  · exact hsec ..
  · split
    · rfl
    · exact hsec ..
  · next hk =>
    split
    · exact hpoke hk ..
    · rfl
  · rfl

theorem markDirty_regs (s : State) (k : RegKey) (old new : Nat) : (s.markDirty k old new).sys.regs = s.sys.regs :=
  markDirty_keeps (·.sys.regs) (fun _ _ _ => rfl) (fun _ _ _ _ _ => rfl) ..

theorem markDirty_fuses (s : State) (k : RegKey) (old new : Nat) : (s.markDirty k old new).sys.fuses = s.sys.fuses :=
  markDirty_keeps (·.sys.fuses) (fun _ _ _ => rfl) (fun _ _ _ _ _ => rfl) ..

/-- A taken write sets nothing else, or the index of a ring, or the writing function of a boot window (R400, R532, R607). -/
theorem afterWrite_cases (s : State) (port func : Nat) (k : RegKey) (bw : BarWidth) :
    s.afterWrite port func k bw = s
      ∨ (∃ j, j ≠ k ∧ s.afterWrite port func k bw = s.hwSet j 63 0 0)
      ∨ (k.name = .glbBootmap ∧ s.afterWrite port func k bw = (s.hwSet k 6 5 port).hwSet k 4 1 func) := by
  have hother {n : RegName} (hn : n ≠ k.name) : ({ k with name := n } : RegKey) ≠ k := fun h => hn (congrArg RegKey.name h)
  unfold State.afterWrite
  split
  · next hk => exact .inr (.inl ⟨_, hother (by simp [hk]), rfl⟩)
  · next hk => exact .inr (.inl ⟨_, hother (by simp [hk]), rfl⟩)
  · next hk =>
    split
    · exact .inl rfl
    · exact .inr (.inl ⟨_, hother (by simp [hk]), rfl⟩)
  · next hk =>
    split
    · exact .inl rfl
    · exact .inr (.inl ⟨_, hother (by simp [hk]), rfl⟩)
  · next hk => exact .inr (.inr ⟨hk, rfl⟩)
  · exact .inl rfl

theorem afterWrite_keeps {A : Type} (π : State → A) (hset : ∀ s j hi lo v, π (State.hwSet s j hi lo v) = π s) (s : State)
    (port func : Nat) (k : RegKey) (bw : BarWidth) : π (s.afterWrite port func k bw) = π s := by
  obtain h | ⟨j, _, h⟩ | ⟨_, h⟩ := afterWrite_cases s port func k bw
  · rw [h]
  · rw [h, hset]
  · rw [h, hset, hset]

theorem afterWrite_app {k : RegKey} (hk : k.name ≠ .glbBootmap) (s : State) (port func : Nat) (bw : BarWidth) :
    (s.afterWrite port func k bw).sys.regs.app.get? k = s.sys.regs.app.get? k := by
  obtain h | ⟨j, hj, h⟩ | ⟨hb, _⟩ := afterWrite_cases s port func k bw
  · rw [h]
  · rw [h, hwSet_app_other hj.symm]
  · exact absurd hb hk

/-- The fields of a register but those in which the hardware notes the function that wrote a boot window. -/
theorem bitsOf_afterWrite {s : State} {k : RegKey} {n : Nat} (hn : s.sys.regs.vis.get? k = some (BitVec.ofNat 64 n)) {x : Field}
    (hx : x ∈ fieldsOf k.name) (hb : ¬(k.name = .glbBootmap ∧ x.hi ≤ 6)) (port func : Nat) (bw : BarWidth) :
    bitsOf ((s.afterWrite port func k bw).visWord k) x.hi x.lo = bitsOf n x.hi x.lo := by
  have hhi : x.hi < 64 := fieldsOf_hi_lt _ x hx
  have hs : bitsOf (s.visWord k) x.hi x.lo = bitsOf n x.hi x.lo := by rw [visWord_eq_of_get hn, bitsOf_ofNat hhi]
  obtain h | ⟨j, hj, h⟩ | ⟨hk, h⟩ := afterWrite_cases s port func k bw
  · rw [h, hs]
  · rw [h, visWord_eq_of_get ((hwSet_vis_other hj.symm ..).trans hn), bitsOf_ofNat hhi]
  · have hlo : 6 < x.lo := by
      have hwin : ∀ f ∈ fieldsOf .glbBootmap, 6 < f.hi → 6 < f.lo := by decide
      exact hwin x (hk ▸ hx) (Nat.lt_of_not_le fun h6 => hb ⟨hk, h6⟩)
    rw [h, bitsOf_hwSet_apart hhi (.inl (by omega)), bitsOf_hwSet_apart hhi (.inl hlo), hs]

theorem bitsOf_afterWrite_bootmap {k : RegKey} (hk : k.name = .glbBootmap) (s : State) {port func : Nat} (hp : port < 4) (hf : func < 16)
    (bw : BarWidth) : bitsOf ((s.afterWrite port func k bw).visWord k) 6 5 = port
      ∧ bitsOf ((s.afterWrite port func k bw).visWord k) 4 1 = func := by
  have h : s.afterWrite port func k bw = (s.hwSet k 6 5 port).hwSet k 4 1 func := by simp [State.afterWrite, hk]
  rw [h]
  refine ⟨?_, bitsOf_hwSet_same (by decide) hf ..⟩
  rw [bitsOf_hwSet_apart (by decide) (.inl (by decide))]
  exact bitsOf_hwSet_same (by decide) hp ..

/-! ### The state after a taken write -/

section
variable (s : State) (port func : Nat) (k : RegKey) (bw : BarWidth) (word : Nat) (held : Option Nat)

theorem taken_keeps {A : Type} (π : State → A) (hregs : ∀ s f, π (State.modRegs s f) = π s) (hsec : ∀ s d f, π (State.modSec s d f) = π s)
    (hpoke : k.name = .teModectl → ∀ (s : State) n a bs, π (State.pokeMem { s with free := n } a bs) = π s) :
    π (taken s port func k bw word held) = π s := by
  unfold taken
  rw [afterWrite_keeps π (fun _ _ _ _ _ => hregs ..), markDirty_keeps π hsec hpoke]
  exact (hregs ..).trans (hregs ..)

@[simp] theorem taken_net : (taken s port func k bw word held).net = s.net :=
  taken_keeps s port func k bw word held (·.net) (fun _ _ => rfl) (fun _ _ _ => rfl) (fun _ _ _ _ _ => rfl)
@[simp] theorem taken_req : (taken s port func k bw word held).req = s.req :=
  taken_keeps s port func k bw word held (·.req) (fun _ _ => rfl) (fun _ _ _ => rfl) (fun _ _ _ _ _ => rfl)
@[simp] theorem taken_io : (taken s port func k bw word held).io = s.io :=
  taken_keeps s port func k bw word held (·.io) (fun _ _ => rfl) (fun _ _ _ => rfl) (fun _ _ _ _ _ => rfl)
@[simp] theorem taken_fuses : (taken s port func k bw word held).sys.fuses = s.sys.fuses :=
  taken_keeps s port func k bw word held (·.sys.fuses) (fun _ _ => rfl) (fun _ _ _ => rfl) (fun _ _ _ _ _ => rfl)

variable {k} in
theorem taken_mem_comp (hk : k.name ≠ .teModectl) :
    (taken s port func k bw word held).mem = s.mem ∧ (taken s port func k bw word held).comp = s.comp :=
  ⟨taken_keeps s port func k bw word held (·.mem) (fun _ _ => rfl) (fun _ _ _ => rfl) (absurd · hk),
    taken_keeps s port func k bw word held (·.comp) (fun _ _ => rfl) (fun _ _ _ => rfl) (absurd · hk)⟩

theorem taken_holds : (taken s port func k bw word held).sys.regs.holds.get? (port, func, k) = held := by
  unfold taken
  rw [afterWrite_keeps (·.sys.regs.holds) (fun _ _ _ _ _ => rfl), markDirty_regs]
  exact putHold_get ..

theorem taken_due : k ∈ (taken s port func k bw word held).sys.regs.due := by
  unfold taken
  rw [afterWrite_keeps (·.sys.regs.due) (fun _ _ _ _ _ => rfl), markDirty_regs]
  show k ∈ if s.sys.regs.due.contains k then s.sys.regs.due else s.sys.regs.due ++ [k]
  split
  · next h => exact List.contains_iff_mem.mp h
  · exact List.mem_append_right _ (List.mem_singleton.mpr rfl)

variable {k} in
/-- What the hardware uses waits for the next tick (R497). -/
theorem taken_appWord (hk : k.name ≠ .glbBootmap) : (taken s port func k bw word held).appWord k = s.appWord k := by
  have happ : (taken s port func k bw word held).sys.regs.app.get? k = s.sys.regs.app.get? k := by
    unfold taken
    rw [afterWrite_app hk, markDirty_regs]
    rfl
  simp only [State.appWord, State.resetOf, happ, taken_fuses]

variable {k} in
/-- A field of the register after a taken write (R16, R20). -/
theorem bitsOf_taken {x : Field} (hx : x ∈ fieldsOf k.name) (hb : ¬(k.name = .glbBootmap ∧ x.hi ≤ 6)) :
    bitsOf ((taken s port func k bw word held).visWord k) x.hi x.lo = fieldAfter (s.visWord k) word (keeps s port k word) x := by
  unfold taken
  rw [bitsOf_afterWrite (n := newWord s port k word) _ hx hb]
  · exact bitsOf_writeFields hx ..
  · rw [markDirty_regs]
    exact map_get_set_same ..

end

end Sys2Proof.RegTaken
end

section
/-! SUPPORT. Accesses of functions through BAR0: what REGISTER_WRITE, NET_SHARE_WRITE, EXACT_EN_WRITE and GLB_TICK_READ do
(R15 to R20, R497 to R499, R602, R617, R622, R629, R633). -/

namespace Sys2Proof.RegAccess

open Sys2Proof.Machine Sys2Proof.Laws Sys2Proof.Registers Sys2Proof.RegWrites Sys2Proof.RegTaken

/-- A write has changed no register and no part of the tray but what a refusal shows, and its code is logged with function and offset. -/
def Refused (s t : State) (port func off : Nat) (e : Code) : Prop :=
  t.sys.regs.vis = s.sys.regs.vis ∧ t.sys.regs.app = s.sys.regs.app ∧ t.sys.regs.due = s.sys.regs.due ∧ t.mem = s.mem ∧ t.comp = s.comp
    ∧ t.net = s.net ∧ ∃ d, ∃ r ∈ (t.ras.logs.get d).recs, r.code = e.val ∧ r.arg1 = BitVec.ofNat 64 (funcArg port func off)

/-- A command is one of the three writes, and `names` are the registers it may name (R149, R330, R497). -/
def Writes (c : Instr) (f : FuncRef) (off : Nat) (w : BarWidth) (v : Word) (names : RegName → Bool) : Prop :=
  c = .registerWrite f off w v ∧ names = (fun _ => true)
    ∨ c = .netShareWrite f off w v ∧ names = (fun n => decide (n = .netShare) || decide (n = .netSeamshare))
    ∨ c = .exactEnWrite f off w v ∧ names = (fun n => decide (n = .teModectl))

section
variable {s : State} {f : FuncRef} {off : Nat} {w : BarWidth} {v : Word} {c : Instr} {names : RegName → Bool}

/-- The three write commands store at an offset of BAR0; REGISTER_WRITE alone reaches the MSI-X table. -/
theorem exec_write (hc : Writes c f off w v names) (s : State) :
    exec c s = .next (s.barStore f off w v.toNat names (decide (c = .registerWrite f off w v))) := by
  obtain ⟨rfl, rfl⟩ | ⟨rfl, rfl⟩ | ⟨rfl, rfl⟩ := hc
  · rw [decide_eq_true rfl]; rfl
  · rw [decide_eq_false (by simp)]; rfl
  · rw [decide_eq_false (by simp)]; rfl

theorem exec_write_reg (hc : Writes c f off w v names) {k : RegKey} (ha : off % 8 = 0) (hs : s.dieServes f.port.val = true)
    (ht : s.barTarget f.port.val f.func.val off = .reg k) (hk : names k.name = true) :
    exec c s = .next (s.barWrite f.port.val f.func.val off k w v.toNat) := by
  rw [exec_write hc, barStore_reg ha hs ht hk]

theorem exec_write_msix (hc : Writes c f off w v names) {o : Nat} (ha : off % 8 = 0) (hs : s.dieServes f.port.val = true)
    (ht : s.barTarget f.port.val f.func.val off = .msix o) :
    exec c s = .next (if c = .registerWrite f off w v then s.msixWrite f.port.val f.func.val o w v.toNat else s) := by
  rw [exec_write hc, barStore_msix ha hs ht]
  simp

end

/-! ### Writes of a register -/

section
variable {s : State} {port func off : Nat} {k : RegKey} {w : BarWidth} {v : Nat}

/-- A refused write, where the write itself has changed nothing but the function's hold. -/
theorem barWrite_refuses {u : State} {e : Code} (h : s.regWrite port func k w v = (some e, u))
    (hu : ∃ holds, u = s.modRegs (fun r => { r with holds := holds })) (off : Nat) :
    Refused s (s.barWrite port func off k w v) port func off e := by
  obtain ⟨holds, rfl⟩ := hu
  rw [barWrite_refused h]
  refine ⟨?_, ?_, ?_, ?_, ?_, ?_, logRefused_recorded ..⟩ <;> simp

theorem barWrite_refuses_at_once {e : Code} (h : s.regWrite port func k w v = (some e, s)) (off : Nat) :
    Refused s (s.barWrite port func off k w v) port func off e := barWrite_refuses h ⟨s.sys.regs.holds, rfl⟩ off

variable {word : Nat} {held : Option Nat}

/-- A write that changes a LOCKED field of a unit that runs ends the hold, unless it is of the lower half (R16, R498). -/
theorem barWrite_locked (h : s.regWrite port func k w v = s.takeWrite port func k w v) (hg : given s port func k w v = (word, held))
    (hl : s.lockedHit k (s.visWord k) word = true) (off : Nat) :
    Refused s (s.barWrite port func off k w v) port func off .cfgBusy
      ∧ (s.barWrite port func off k w v).sys.regs.holds.get? (port, func, k)
        = if w = .low then s.sys.regs.holds.get? (port, func, k) else none := by
  have hr := h.trans (takeWrite_locked hg hl)
  refine ⟨barWrite_refuses hr ?_ off, ?_⟩
  · split
    · exact ⟨s.sys.regs.holds, rfl⟩
    · exact ⟨_, rfl⟩
  · rw [barWrite_refused hr, logRefused_sys]
    split
    · rfl
    · exact map_get_erase_same ..

/-- A word that holds a reserved value changes nothing but the function's hold (R16, R20). -/
theorem barWrite_reserved (h : s.regWrite port func k w v = s.takeWrite port func k w v) (hg : given s port func k w v = (word, held))
    (hl : s.lockedHit k (s.visWord k) word = false) (hne : newWord s port k word ≠ s.visWord k)
    (hr : s.reservedWord k (newWord s port k word) = some none) (off : Nat) :
    let t := s.barWrite port func off k w v
    t.sys.regs.holds.get? (port, func, k) = held
      ∧ t = { s with sys := { s.sys with regs := { s.sys.regs with holds := t.sys.regs.holds } } } := by
  intro t
  have ht : t = withHold s (port, func, k) held := barWrite_done (h.trans (takeWrite_reserved hg hl hne hr)) off
  rw [ht]
  exact ⟨putHold_get .., rfl⟩

/-- A word that breaks a rule with a code of its own shows nothing, and the code is logged (R20, R499). -/
theorem barWrite_reserved_code {e : Code} (h : s.regWrite port func k w v = s.takeWrite port func k w v)
    (hg : given s port func k w v = (word, held)) (hl : s.lockedHit k (s.visWord k) word = false)
    (hne : newWord s port k word ≠ s.visWord k) (hr : s.reservedWord k (newWord s port k word) = some (some e)) (off : Nat) :
    let t := s.barWrite port func off k w v
    t.sys.regs.holds.get? (port, func, k) = held ∧ t.sys.regs.vis = s.sys.regs.vis ∧ t.sys.regs.app = s.sys.regs.app ∧ t.mem = s.mem
      ∧ t.comp = s.comp ∧ ∃ d, ∃ r ∈ (t.ras.logs.get d).recs, r.code = e.val := by
  intro t
  have ht : t = _ := barWrite_done (h.trans (takeWrite_reserved_code hg hl hne hr)) off
  rw [ht, log_sys, log_mem, log_comp]
  obtain ⟨r, hmem, hcode, _⟩ := log_recorded (withHold s (port, func, k) held) (if k.name.ofPartition then port else k.a) 255 k.part e 0 0
  exact ⟨putHold_get .., rfl, rfl, rfl, rfl, _, r, hmem, hcode⟩

/-- A taken write shows in the register's fields and is due at the next tick; nothing else that it does not clear changes (R16, R20,
R497). -/
theorem barWrite_taken (h : s.regWrite port func k w v = s.takeWrite port func k w v) (hg : given s port func k w v = (word, held))
    (hl : s.lockedHit k (s.visWord k) word = false)
    (hr : newWord s port k word = s.visWord k ∨ s.reservedWord k (newWord s port k word) = none) (hp : port < 4) (hf : func < 16)
    (off : Nat) :
    let t := s.barWrite port func off k w v
    (∀ x ∈ fieldsOf k.name, ¬(k.name = .glbBootmap ∧ x.hi ≤ 6) →
        bitsOf (t.visWord k) x.hi x.lo = fieldAfter (s.visWord k) word (keeps s port k word) x)
      ∧ (k.name = .glbBootmap → bitsOf (t.visWord k) 6 5 = port ∧ bitsOf (t.visWord k) 4 1 = func)
      ∧ (k.name ≠ .glbBootmap → t.appWord k = s.appWord k) ∧ k ∈ t.sys.regs.due ∧ t.sys.regs.holds.get? (port, func, k) = held
      ∧ (k.name ≠ .teModectl → t.mem = s.mem ∧ t.comp = s.comp) ∧ t.net = s.net ∧ t.req = s.req ∧ t.io = s.io := by
  intro t
  have ht : t = taken s port func k w word held := barWrite_done (h.trans (takeWrite_taken hg hl hr)) off
  rw [ht]
  exact ⟨fun _ hx hb => bitsOf_taken _ _ _ _ _ _ hx hb, fun hk => bitsOf_afterWrite_bootmap hk _ hp hf w, taken_appWord _ _ _ _ _ _,
    taken_due .., taken_holds .., taken_mem_comp _ _ _ _ _ _, taken_net .., taken_req .., taken_io ..⟩

end

/-! ### Reads -/

/-- What the port answers to a read, with the bytes of the register (R617). -/
theorem exec_read {s : State} {f : FuncRef} {off : Nat} (ha : off % 8 = 0) (hs : s.dieServes f.port.val = true) (w : BarWidth)
    {bs : List Byte} {t : State} (h : s.barLoad f.port.val f.func.val off w = (bs, t)) :
    exec (.glbTickRead f off w) s = .next (t.emit (.hostData f.port.val f.func.val bs false)) := by
  show execGlbTickRead f off w s = _
  simp [execGlbTickRead, ha, hs, h]

theorem exec_read_unsupported {s : State} {f : FuncRef} {off : Nat} (h : off % 8 ≠ 0 ∨ s.dieServes f.port.val = false) (w : BarWidth) :
    exec (.glbTickRead f off w) s = .next (s.emit (.hostUr f.port.val f.func.val)) := by
  show execGlbTickRead f off w s = _
  unfold execGlbTickRead
  dsimp only
  rw [if_pos (by simpa using h)]

section
variable {s : State} {port func off : Nat} {k : RegKey}

theorem barLoad_tick (ht : s.barTarget port func off = .reg k) (hk : k.name = .glbTick) (hu : s.unreachable port k = none ∨ off < 0x1000)
    (w : BarWidth) : s.barLoad port func off w = s.tickRead port func k w := by
  have hreach : ((s.unreachable port k).isSome && decide (0x1000 ≤ off)) = false := by rcases hu with h | h <;> simp [h]
  simp [State.barLoad, ht, hreach, hk]

theorem barLoad_reg (ht : s.barTarget port func off = .reg k) (hk : k.name ≠ .glbTick) (hu : s.unreachable port k = none ∨ off < 0x1000)
    (w : BarWidth) : s.barLoad port func off w = (readBytes w (s.readReg port k), s) := by
  have hreach : ((s.unreachable port k).isSome && decide (0x1000 ≤ off)) = false := by rcases hu with h | h <;> simp [h]
  simp [State.barLoad, ht, hreach, hk]

theorem barLoad_unreachable (ht : s.barTarget port func off = .reg k) (hu : (s.unreachable port k).isSome = true) (ho : 0x1000 ≤ off)
    (w : BarWidth) : s.barLoad port func off w = (readBytes w (2 ^ 64 - 1), s) := by
  simp [State.barLoad, ht, hu, ho]

end

/-- The upper half of TICK as a lower-half read has latched it, which a read of the upper half takes (R629). -/
theorem tickRead_latched {s : State} {port func : Nat} {k : RegKey} {h : Nat} (hl : s.sys.regs.latches.get? (port, func, k) = some h) :
    s.tickRead port func k .high
      = (leBytes 4 h, s.modRegs (fun r => { r with latches := r.latches.erase (port, func, k) })) := by simp [State.tickRead, hl]

theorem tickRead_unlatched {s : State} {port func : Nat} {k : RegKey} (hl : s.sys.regs.latches.get? (port, func, k) = none) :
    s.tickRead port func k .high = (leBytes 4 (s.tickOf k.a / 2 ^ 32), s) := by simp [State.tickRead, hl, readBytes]

/-! ### The commands -/

/-- Settles O44: a write is followed from the offset to the register and, where it is permitted, through the answers of the checks of
LOCKED fields and of reserved values; a read through what its offset names. -/
theorem registersWrittenAndRead : Obligations.RegistersWrittenAndRead := by
  unfold Obligations.RegistersWrittenAndRead
  refine ⟨fun s f off w v c names hc => ⟨fun h => ?dropped, fun o ha hs ht => ⟨fun hne => ?noTable, fun heq => ?table⟩,
      fun k ha hs ht hk => ?register⟩,
    fun s f off w => ⟨fun h => exec_read_unsupported h w, fun ha hs => ⟨fun ht => ?readReserved,
      fun o ht => ?readTable, fun o ht => ?readPending, fun k ht hu ho => ?readUnreachable, fun k ht hu hk => ?readRegister,
      fun k ht hk hu => ?readTick⟩⟩⟩
  case dropped => rw [exec_write hc, barStore_dropped h]
  case noTable => rw [exec_write_msix hc ha hs ht, if_neg hne]
  case table =>
    refine ⟨_, (exec_write_msix hc ha hs ht).trans (by rw [if_pos heq]), msixWord_msixWrite .., ?_, ?_, ?_⟩
    · exact msixWrite_keeps (·.sys) (fun _ _ => rfl) ..
    · exact msixWrite_keeps (·.mem) (fun _ _ => rfl) ..
    · exact msixWrite_keeps (·.req) (fun _ _ => rfl) ..
  case register =>
    have hx := exec_write_reg hc ha hs ht hk
    refine ⟨fun e hu => ⟨_, hx, barWrite_refuses_at_once (regWrite_unreachable hu ..) off⟩,
      fun hu hw => ⟨_, hx, barWrite_refuses_at_once (regWrite_denied hu hw ..) off⟩,
      fun hu hw hp => ⟨_, hx, barWrite_refuses_at_once (regWrite_resetting hu hw hp ..) off⟩, fun hu hw hp => ?_⟩
    have hreg := regWrite_permitted hu hw hp w v.toNat
    let g := given s f.port f.func k w v.toNat
    have hg : g = (g.1, g.2) := rfl
    refine ⟨fun hl => ?_, fun hl => ⟨fun hne hr => ?_, fun e hne hr => ?_, fun hr => ?_⟩⟩
    · obtain ⟨href, hhold⟩ := barWrite_locked hreg hg hl off
      exact ⟨_, ⟨hx, href⟩, hhold⟩
    · exact ⟨_, hx, barWrite_reserved hreg hg hl hne hr off⟩
    · exact ⟨_, hx, barWrite_reserved_code hreg hg hl hne hr off⟩
    · exact ⟨_, hx, barWrite_taken hreg hg hl hr f.port.isLt f.func.isLt off⟩
  case readReserved => exact exec_read ha hs w (by simp [State.barLoad, ht])
  case readTable => exact exec_read ha hs w (by simp [State.barLoad, ht])
  case readPending => exact exec_read ha hs w (by simp [State.barLoad, ht])
  case readUnreachable => exact exec_read ha hs w (barLoad_unreachable ht hu ho w)
  case readRegister => exact exec_read ha hs w (barLoad_reg ht hk hu w)
  case readTick =>
    refine ⟨exec_read ha hs _ (barLoad_tick ht hk hu .full), exec_read ha hs _ (barLoad_tick ht hk hu .low), fun h hl => ?_, fun hl => ?_⟩
    · exact exec_read ha hs _ ((barLoad_tick ht hk hu .high).trans (tickRead_latched hl))
    · exact exec_read ha hs _ ((barLoad_tick ht hk hu .high).trans (tickRead_unlatched hl))

end Sys2Proof.RegAccess
end

section
/-! SUPPORT. What the end of a request, the break of a scheduled region or a lock, and an error of a ring leave: clocks, registers, fuses,
Spindles, and which units and dies are fenced. Each of them changes requests, cores, the network, rings and the logs. -/

namespace Sys2Proof.Spared

open Sys2Proof.Machine Sys2Proof.Laws Sys2Proof.Registers

/-- The parts of the state that no end of a request, and no break of what it uses, touches. -/
structure Base where
  clk : Tbl Nat DieClk
  regs : Regs
  fuses : Fuses
  units : Tbl Nat UnitRec
  dieFenced : Tbl Nat Bool
  spindles : Tbl Nat Spindle

def base (s : State) : Base :=
  ⟨s.sys.clk, s.sys.regs, s.sys.fuses, s.ras.units, s.ras.dieFenced, s.comp.spindles⟩

section
variable {s t : State} (h : base t = base s)
include h

theorem clk_of_base : t.sys.clk = s.sys.clk := congrArg Base.clk h
theorem units_of_base : t.ras.units = s.ras.units := congrArg Base.units h
theorem dieFenced_of_base : t.ras.dieFenced = s.ras.dieFenced := congrArg Base.dieFenced h
theorem unitRec_of_base (d u : Nat) : t.unitRec d u = s.unitRec d u := congrArg (·.get (unitKey d u)) (units_of_base h)

end

/-- What each turn leaves is as it was after all of them. -/
theorem eachOf_keeps_of {A B : Type} (π : State → B) {f : A → State → State} (hf : ∀ x s, π (f x s) = π s) (l : List A) (s : State) :
    π (eachOf l f s) = π s := eachOf_keeps (fun t => π t = π s) l rfl fun x _ t ht => (hf x t).trans ht

theorem eachOf_base {A : Type} {f : A → State → State} (hf : ∀ x s, base (f x s) = base s) (l : List A) (s : State) :
    base (eachOf l f s) = base s := eachOf_keeps_of base hf l s

theorem foldl_base {A : Type} {f : State → A → State} (hf : ∀ s x, base (f s x) = base s) (l : List A) (s : State) :
    base (l.foldl f s) = base s := eachOf_base (fun x s => hf s x) l s

/-! ### Packets and records -/

@[simp] theorem send_base (s : State) (src : Nat) (dst : Dest) (vc n : Nat) (p r : Option Nat) (pay : Payload) :
    base (s.send src dst vc n p r pay) = base s := by rw [send_net]; rfl

@[simp] theorem platformEvent_base (s : State) (r : EventRec) : base (s.platformEvent r) = base s :=
  platformEvent_keeps base (fun _ _ => rfl) ..

@[simp] theorem log_base (s : State) (d n : Nat) (p : Option Nat) (c : Code) (x y : Nat) : base (s.log d n p c x y) = base s := by
  have hnote : base (noteEvent s d (s.mkEvent d n p c x y)) = base s := platformEvent_base ..
  obtain h | ⟨ad, h⟩ | ⟨src, dst, pay, h⟩ := log_cases s d n p c x y
  · rw [h, hnote]
  · rw [h]; exact hnote
  · rw [h, send_base, hnote]

@[simp] theorem wardenLog_base (s : State) (d : Nat) (c : Code) (x y : Nat) : base (s.wardenLog d c x y) = base s :=
  platformEvent_base ..

@[simp] theorem notice_base (s : State) (d u : Nat) : base (s.notice d u) = base s := by
  unfold State.notice
  split <;> rfl

/-! ### Requests and cores -/

@[simp] theorem cancelWait_base (s : State) (c : Nat) : base (s.cancelWait c) = base s := by
  unfold State.cancelWait
  dsimp only
  split
  · exact send_base ..
  · rfl

@[simp] theorem haltCore_base (s : State) (c : Nat) : base (s.haltCore c) = base s := cancelWait_base s c

@[simp] theorem endReq_base (s : State) (id : Nat) (c : Code) (r : Word) (aux : Nat) : base (s.endReq id c r aux) = base s := by
  unfold State.endReq
  split
  · rfl
  · dsimp only
    split
    · rfl
    · exact foldl_base haltCore_base ..

@[simp] theorem endReqs_base (s : State) (p : Request → Bool) (c : Code) : base (s.endReqs p c) = base s :=
  foldl_base (fun _ _ => endReq_base ..) ..

@[simp] theorem coreFault_base (s : State) (c cause : Nat) (v : Word) (code : Code) : base (s.coreFault c cause v code) = base s := by
  unfold State.coreFault
  dsimp only
  split
  · rfl
  · exact endReq_base ..

@[simp] theorem awaitFails_base (s : State) (w : AwaitEnt) (code : Code) : base (s.awaitFails w code) = base s := by
  unfold State.awaitFails
  dsimp only
  split
  · split <;> exact coreFault_base ..
  · exact endReq_base ..
  · next r _ => cases r with
    | none => rfl
    | some r => exact endReq_base ..
  · exact endReq_base ..
  · rfl

/-! ### Locks, scheduled regions and rings -/

@[simp] theorem breakLock_base (s : State) (i cause : Nat) : base (s.breakLock i cause) = base s := by
  unfold State.breakLock
  dsimp only
  split
  · exact log_base ..
  · rfl

@[simp] theorem breakLocks_base (s : State) (p : Nat → Lock → Bool) (cause : Nat) : base (s.breakLocks p cause) = base s :=
  eachOf_base (fun _ _ => breakLock_base ..) ..

@[simp] theorem breakSched_base (s : State) (c : Sched) : base (s.breakSched c) = base s := endReqs_base ..

@[simp] theorem breakScheds_base (s : State) (p : Sched → Bool) : base (s.breakScheds p) = base s :=
  foldl_base breakSched_base ..

@[simp] theorem ringError_base (s : State) (p : Nat) (cq : Bool) (q : Nat) (c : Code) : base (s.ringError p cq q c) = base s := by
  unfold State.ringError
  cases cq <;> exact log_base ..

@[simp] theorem ringsError_base (s : State) (p : Nat) (c : Code) : base (s.ringsError p c) = base s := by
  refine foldl_base (fun s k => ?_) ..
  split
  · exact ringError_base ..
  · rfl

/-! ### The service set (R522, R524) -/

@[simp] theorem enterNoService_base (s : State) : base s.enterNoService = base s := by
  unfold State.enterNoService
  dsimp only
  rw [eachOf_base (fun _ _ => ringsError_base ..), endReqs_base, eachOf_base (fun _ _ => log_base ..)]
  rfl

@[simp] theorem judgeService_base (s : State) : base s.judgeService = base s := by
  unfold State.judgeService
  split
  · exact enterNoService_base s
  · rfl

end Sys2Proof.Spared
end

section
/-! SUPPORT. The Pulse, TICK and its alignment (R35 to R37, R220, R363, R365, R634). -/

namespace Sys2Proof.Clocks

open Sys2Proof.Machine Sys2Proof.Laws Sys2Proof.Registers Sys2Proof.Spared

/-! ### Dies and the directions between them -/

theorem dirKey_inj {a b c d : Nat} (hb : b < 4) (hd : d < 4) : dirKey a b = dirKey c d ↔ a = c ∧ b = d := by
  unfold dirKey; omega

theorem mem_diePairs (a b : DieId) : (a.val, b.val) ∈ diePairs ↔ a ≠ b := by revert a b; decide

theorem diePairs_nodup : diePairs.Nodup := by decide

theorem diePairs_lt : ∀ x ∈ diePairs, x.1 < 4 ∧ x.2 < 4 := by decide

/-- A value of the table after every key of a list has changed once. -/
theorem tbl_get_modifyAll {K V : Type} [DecidableEq K] (f : K → V → V) (ks : List K) (h : ks.Nodup) (t : Tbl K V) (j : K) :
    (t.modifyAll ks f).get j = if j ∈ ks then f j (t.get j) else t.get j := by
  induction ks generalizing t with
  | nil => simp [Tbl.modifyAll]
  | cons k ks ih =>
    obtain ⟨hk, hks⟩ := List.nodup_cons.mp h
    rw [show t.modifyAll (k :: ks) f = (t.set k (f k (t.get k))).modifyAll ks f from rfl, ih hks, tbl_get_set]
    by_cases hj : j = k
    · subst hj; simp [hk]
    · simp [hj]

/-! ### Parts of a Pulse edge -/

/-- The clocks have counted, and the refreshes of a wrapped die begin a new epoch. -/
def counted (s : State) : State :=
  ({ s with sys := { s.sys with clk := s.sys.clk.modifyAll [0, 1, 2, 3] (fun _ k => k.edge) } } : State).wrapRefresh

theorem exec_pulseEdge {s : State} (h : s.sys.warden.pulse = true) :
    exec .pulseEdge s = .next (counted s).breakHard.applyDue.noteRunning.sendCheckWords := by
  show execPulseEdge s = _
  rw [execPulseEdge, h]
  rfl

theorem counted_clk (s : State) (d : DieId) : (counted s).sys.clk.get d.val = (s.sys.clk.get d.val).edge := by
  show (s.sys.clk.modifyAll [0, 1, 2, 3] (fun _ k => k.edge)).get d.val = _
  rw [tbl_get_modifyAll _ _ (by decide), if_pos (by revert d; decide)]

theorem edge_tick (k : DieClk) : k.edge.tick = if k.supplied && k.locked then k.tick + 1 else k.tick := by
  unfold DieClk.edge
  cases k.supplied <;> cases k.locked <;> rfl

theorem edge_aligned_locked (k : DieClk) : k.edge.aligned = k.aligned ∧ k.edge.locked = k.locked := by
  cases hs : k.supplied <;> cases hl : k.locked <;> simp [DieClk.edge, hs, hl]

/-- The count of a die that counts, wraps included, grows by 1 (R634). -/
theorem edge_extended {k : DieClk} (hs : k.supplied = true) (hl : k.locked = true) :
    k.edge.tick.toNat + 2 ^ 64 * k.edge.wraps = k.tick.toNat + 2 ^ 64 * k.wraps + 1 := by
  have hedge : k.edge = { k with
      age := k.age + 1, stepAge := k.stepAge + 1, tick := k.tick + 1
      wraps := if k.tick = BitVec.allOnes 64 then k.wraps + 1 else k.wraps } := by simp [DieClk.edge, hs, hl]
  rw [hedge]
  have hlt := k.tick.isLt
  by_cases h : k.tick = BitVec.allOnes 64
  · simp only [h, if_true]; simp; omega
  · have : k.tick.toNat ≠ 2 ^ 64 - 1 := fun e => h (BitVec.eq_of_toNat_eq (by simpa using e))
    simp only [if_neg h, BitVec.toNat_add]; simp; omega

theorem breakHard_base (s : State) : base s.breakHard = base s := by
  refine eachOf_base (fun d s => ?_) ..
  cases h : (s.sys.power.get d).breaking with
  | false => rfl
  | true => exact breakScheds_base ..

/-- With no hard action just taken no scheduled region breaks (R575). -/
theorem breakHard_idle {s : State} (h : ∀ d : DieId, (s.sys.power.get d.val).breaking = false) : s.breakHard = s := by
  refine eachOf_keeps (· = s) _ rfl fun d hd t ht => ?_
  have hlt : d < 4 := by revert d; decide
  rw [ht, h ⟨d, hlt⟩]
  rfl

/-- The writes of the tick before take effect in the registers as the hardware uses them, and nothing else changes (R497). -/
theorem applyDue_regs (s : State) : ∃ r : Regs, s.applyDue = s.modRegs (fun _ => r) ∧ r.vis = s.sys.regs.vis ∧ r.due = [] := by
  refine eachOf_keeps (fun t => ∃ r : Regs, t = s.modRegs (fun _ => r) ∧ r.vis = s.sys.regs.vis ∧ r.due = []) _ ⟨_, rfl, rfl, rfl⟩ ?_
  rintro k - t ⟨r, rfl, hvis, hdue⟩
  exact ⟨_, rfl, hvis, hdue⟩

/-! ### Check words (R365) -/

/-- Whether a check word leaves a die toward another. -/
def checkLeaves (s : State) (x : Nat × Nat) : Bool :=
  s.linkUp x.1 x.2 && decide (10 ≤ (s.sys.clk.get x.1).step) && decide (10 ≤ (s.sys.clk.get x.2).step)
    && (s.sys.clk.get x.1).locked && decide (s.tickOf x.1 % 256 = 0)

/-- The check words that leave in a tick. -/
def checkWords (s : State) (x : Nat × Nat) : List LinkWord :=
  if checkLeaves s x then [⟨.check, (s.sys.clk.get x.1).tick, BitVec.ofNat 64 (s.tickAfter x.1 (s.linkLag x.1 x.2)), false⟩] else []

/-- The turn of one direction. -/
def sendCheck (x : Nat × Nat) (s : State) : State :=
  if checkLeaves s x then s.modDir (dirKey x.1 x.2) (fun w => { w with words := w.words ++ checkWords s x }) else s

theorem sendCheckWords_eq (s : State) : s.sendCheckWords = eachOf diePairs sendCheck s := by
  unfold State.sendCheckWords sendCheck checkWords
  congr
  funext x s
  cases h : checkLeaves s x <;> simp_all [checkLeaves]

/-- The state with other contents of the link directions. -/
def withDirs (s : State) (l : Tbl Nat LinkDir) : State := { s with link := { s.link with dirs := l } }

theorem sendCheck_dirs (x : Nat × Nat) (s : State) : ∃ l, sendCheck x s = withDirs s l := by
  unfold sendCheck
  split
  · exact ⟨_, rfl⟩
  · exact ⟨_, rfl⟩

theorem sendCheck_words (x : Nat × Nat) (s : State) (k : Nat) : ((sendCheck x s).link.dirs.get k).words
    = (s.link.dirs.get k).words ++ if k = dirKey x.1 x.2 then checkWords s x else [] := by
  unfold sendCheck
  cases h : checkLeaves s x with
  | true => by_cases hk : k = dirKey x.1 x.2 <;> simp [tbl_get_modify, hk]
  | false => simp [checkWords, h]

theorem checkWords_withDirs (s : State) (l : Tbl Nat LinkDir) (x : Nat × Nat) : checkWords (withDirs s l) x = checkWords s x := rfl

/-- Of a list of directions each that is listed has its word. -/
theorem eachOf_sendCheck {l : List (Nat × Nat)} (hl : l.Nodup) (hlt : ∀ x ∈ l, x.1 < 4 ∧ x.2 < 4) (s : State) :
    ∃ w, eachOf l sendCheck s = withDirs s w ∧ ∀ y : Nat × Nat, y.2 < 4 →
      (w.get (dirKey y.1 y.2)).words = (s.link.dirs.get (dirKey y.1 y.2)).words ++ if y ∈ l then checkWords s y else [] := by
  induction l generalizing s with
  | nil => exact ⟨_, rfl, by simp⟩
  | cons x l ih =>
    obtain ⟨hx, hl⟩ := List.nodup_cons.mp hl
    obtain ⟨v, hv⟩ := sendCheck_dirs x s
    obtain ⟨w, hw, hwords⟩ := ih hl (fun z hz => hlt z (.tail _ hz)) (sendCheck x s)
    refine ⟨w, hw.trans (by rw [hv]; rfl), fun y hy => ?_⟩
    have hkey : dirKey y.1 y.2 = dirKey x.1 x.2 ↔ y = x := by rw [dirKey_inj hy (hlt x (.head _)).2, Prod.ext_iff]
    rw [hwords y hy, sendCheck_words, hv, checkWords_withDirs]
    by_cases hxy : y = x
    · subst hxy; simp [hx]
    · simp [hkey, hxy]

/-- A check word that leaves names t + L (R365). -/
theorem checkWords_eq (t : State) (a b : Nat) : checkWords t (a, b)
    = if t.linkUp a b = true ∧ 10 ≤ (t.sys.clk.get a).step ∧ 10 ≤ (t.sys.clk.get b).step
          ∧ (t.sys.clk.get a).locked = true ∧ t.tickOf a % 256 = 0 then
        [⟨.check, (t.sys.clk.get a).tick, BitVec.ofNat 64 (t.tickOf a + t.linkLag a b), false⟩] else [] := by
  have hword : BitVec.ofNat 64 (t.tickAfter a (t.linkLag a b)) = BitVec.ofNat 64 (t.tickOf a + t.linkLag a b) := by
    apply BitVec.eq_of_toNat_eq
    simp [State.tickAfter]
  simp only [checkWords, checkLeaves, Bool.and_eq_true, decide_eq_true_eq, and_assoc, hword]

/-! ### PULSE_EDGE -/

/-- What a Pulse edge leaves where no hard action has just been taken (R35, R365, R497). -/
theorem pulseEdge_effect {s : State} (hp : s.sys.warden.pulse = true) (hb : ∀ d : DieId, (s.sys.power.get d.val).breaking = false) :
    ∃ t, exec .pulseEdge s = .next t ∧ (∀ d : DieId, t.sys.clk.get d.val = (s.sys.clk.get d.val).edge)
      ∧ t.sys.regs.due = [] ∧ t.sys.regs.vis = s.sys.regs.vis
      ∧ (∀ a b : DieId, a ≠ b → (t.link.dirs.get (dirKey a.val b.val)).words
          = (s.link.dirs.get (dirKey a.val b.val)).words ++ checkWords t (a.val, b.val))
      ∧ t = { s with
          sys := { s.sys with clk := t.sys.clk, regs := t.sys.regs }, mem := { s.mem with edramNext := t.mem.edramNext }
          link := { s.link with dirs := t.link.dirs } } := by
  have hbreak : (counted s).breakHard = counted s := breakHard_idle hb
  obtain ⟨r, hr, hvis, hdue⟩ := applyDue_regs (counted s)
  obtain ⟨w, hw, hwords⟩ := eachOf_sendCheck diePairs_nodup diePairs_lt ((counted s).modRegs (fun _ => r)).noteRunning
  refine ⟨withDirs ((counted s).modRegs (fun _ => r)).noteRunning w, ?_, counted_clk s, hdue, hvis, fun a b hab => ?_, rfl⟩
  · rw [exec_pulseEdge hp, hbreak, hr, sendCheckWords_eq, hw]
  · rw [checkWords_withDirs]
    exact (hwords (a.val, b.val) b.isLt).trans (by rw [if_pos ((mem_diePairs a b).mpr hab)]; rfl)

/-- The last parts of a Pulse edge leave the clocks. -/
theorem noted_clk (u : State) (r : Regs) (w : Tbl Nat LinkDir) :
    (withDirs (u.modRegs (fun _ => r)).noteRunning w).sys.clk = u.sys.clk := rfl

theorem extTick_of_edge {s t : State} {d : Nat} (h : t.sys.clk.get d = (s.sys.clk.get d).edge) (hs : (s.sys.clk.get d).supplied = true)
    (hl : (s.sys.clk.get d).locked = true) : t.extTick d = s.extTick d + 1 := by
  rw [State.extTick, State.tickOf, h]
  exact edge_extended hs hl

/-- The extended count grows by 1 at each Pulse edge of a die that counts (R634). -/
theorem pulseEdge_extTick {s : State} (d : DieId) (hp : s.sys.warden.pulse = true) (hs : (s.sys.clk.get d.val).supplied = true)
    (hl : (s.sys.clk.get d.val).locked = true) : ∃ t, exec .pulseEdge s = .next t ∧ t.extTick d.val = s.extTick d.val + 1 := by
  obtain ⟨r, hr, -, -⟩ := applyDue_regs (counted s).breakHard
  obtain ⟨w, hw, -⟩ := eachOf_sendCheck diePairs_nodup diePairs_lt ((counted s).breakHard.modRegs (fun _ => r)).noteRunning
  refine ⟨withDirs ((counted s).breakHard.modRegs (fun _ => r)).noteRunning w, ?_, extTick_of_edge ?_ hs hl⟩
  · rw [exec_pulseEdge hp, hr, sendCheckWords_eq, hw]
  · rw [noted_clk, clk_of_base (breakHard_base (counted s)), counted_clk]

/-! ### TICK_ALIGN (R363, R220) -/

/-- The state with other refresh counters and bank times. -/
def withRefreshes (s : State) (next busy : Tbl Nat Nat) : State := s.modMem (fun m => { m with edramNext := next, edramBusy := busy })

/-- With no error in memory a scrub of a word finds none. -/
theorem scrubWord_clean {s : State} (hm : s.mem.mem.marks.entries = []) (w : Nat) : s.scrubWord w = s := by
  have h : s.mem.mem.marks.get? w = none := by simp [Map.get?, hm, lookupEntry]
  simp [State.scrubWord, h]

/-- With no error in memory and no correction queued a refresh occupies its bank, and that is all (R219). -/
theorem runRefresh_clean {s : State} (hm : s.mem.mem.marks.entries = []) (hc : s.ras.corrections = []) (ms bank n cycle : Nat) :
    s.runRefresh ms bank n cycle = withRefreshes s s.mem.edramNext (s.mem.edramBusy.set (32 * ms + bank) (cycle + 8)) := by
  have hscrub : ∀ ws, eachOf ws (fun w s => State.scrubWord s w)
      (withRefreshes s s.mem.edramNext (s.mem.edramBusy.set (32 * ms + bank) (cycle + 8)))
        = withRefreshes s s.mem.edramNext (s.mem.edramBusy.set (32 * ms + bank) (cycle + 8)) := fun ws =>
    eachOf_keeps (· = _) ws rfl fun w _ t ht => by rw [ht, scrubWord_clean]; exact hm
  unfold State.runRefresh
  simp only [hc, List.filter_nil, eachOf_nil]
  split
  · exact hscrub _
  · rfl

/-- The refreshes that a jump of TICK skips change the refresh counters and the bank times alone, where memory is clean (R220). -/
theorem catchUp_clean {s : State} (hm : s.mem.mem.marks.entries = []) (hc : s.ras.corrections = []) (d old new : Nat) :
    ∃ next busy, s.catchUp d old new = withRefreshes s next busy := by
  refine eachOf_keeps (fun t => ∃ next busy, t = withRefreshes s next busy) _ ⟨_, _, rfl⟩ ?_
  rintro ⟨ms, b⟩ - t ht
  have hrun : ∀ (ks : List Nat) (f : Nat → Nat),
      ∃ next busy, eachOf ks (fun k s => State.runRefresh s ms b (f k) (4 * new)) t = withRefreshes s next busy := fun ks f => by
    refine eachOf_keeps (fun t => ∃ next busy, t = withRefreshes s next busy) ks ht ?_
    rintro k - _ ⟨next, busy, rfl⟩
    exact ⟨_, _, runRefresh_clean (s := withRefreshes s next busy) hm hc ..⟩
  dsimp only
  generalize List.filter _ (List.range 1024) = due
  obtain ⟨next, busy, h⟩ := hrun due (fun k => new / 16000 * 1024 + k)
  rw [h]
  exact ⟨_, _, rfl⟩

/-- The first die, in order, that has an alignment word for a die. -/
theorem alignSource {s : State} {a d : DieId} {w : LinkWord} (had : a ≠ d) (hup : s.linkUp a.val d.val = true)
    (hw : s.dueWord a.val d.val .align = some w)
    (hfirst : ∀ e : DieId, e < a → e ≠ d → s.linkUp e.val d.val = true → s.dueWord e.val d.val .align = none) :
    [0, 1, 2, 3].find? (fun e => e != d.val && s.linkUp e d.val && (s.dueWord e d.val .align).isSome) = some a.val := by
  have hnot : ∀ e : DieId, e < a → (e.val != d.val && s.linkUp e.val d.val && (s.dueWord e.val d.val .align).isSome) = false := by
    intro e he
    by_cases hed : e = d
    · simp [hed]
    · cases hl : s.linkUp e.val d.val with
      | false => simp
      | true => simp [hfirst e he hed hl]
  have hyes : (a.val != d.val && s.linkUp a.val d.val && (s.dueWord a.val d.val .align).isSome) = true := by
    simp [hup, hw, Fin.val_ne_of_ne had]
  generalize hp : (fun e => e != d.val && s.linkUp e d.val && (s.dueWord e d.val .align).isSome) = p
  replace hnot : ∀ e : DieId, e < a → p e.val = false := fun e he => hp ▸ hnot e he
  replace hyes : p a.val = true := hp ▸ hyes
  have hlist : [0, 1, 2, 3] = List.range 4 := rfl
  rw [hlist, List.find?_range_eq_some]
  exact ⟨hyes, by simp, fun j hj => by simpa using hnot ⟨j, by omega⟩ hj⟩

/-- A die's TICK jumps from one value to another as it takes a word, and skipped refreshes run (R363, R220). -/
def jump (s : State) (a d : Nat) (w : LinkWord) (old new : Nat) : State :=
  (((s.dropWord a d w).modClk d (fun k => { k with tick := BitVec.ofNat 64 new, wraps := 0, aligned := true })).catchUp d old new).modRas
    (fun r => { r with heartbeat := r.heartbeat.modify d (fun h => (h + new + 2 ^ 64 - old) % 2 ^ 64) })

theorem takeAlign_eq_jump (s : State) (a d : Nat) (w : LinkWord) :
    s.takeAlign a d w = jump s a d w (s.tickOf d) ((w.tick.toNat + s.linkLag a d + s.since a w.due.toNat) % 2 ^ 64) := rfl

theorem jump_clean {s : State} (hm : s.mem.mem.marks.entries = []) (hc : s.ras.corrections = []) (a d : Nat) (w : LinkWord) (old new : Nat) :
    ∃ next busy heartbeat, jump s a d w old new
      = { withRefreshes ((s.dropWord a d w).modClk d (fun k => { k with tick := BitVec.ofNat 64 new, wraps := 0, aligned := true }))
          next busy with ras := { s.ras with heartbeat := heartbeat } } := by
  obtain ⟨next, busy, h⟩ := catchUp_clean
    (s := (s.dropWord a d w).modClk d (fun k => { k with tick := BitVec.ofNat 64 new, wraps := 0, aligned := true })) hm hc d old new
  exact ⟨next, busy, _, by rw [jump, h]; rfl⟩

/-- A die that takes an alignment word (R363). -/
theorem takeAlign_effect {s : State} (hm : s.mem.mem.marks.entries = []) (hc : s.ras.corrections = []) (a d : Nat) (w : LinkWord) :
    ∃ next busy heartbeat, s.takeAlign a d w
      = { withRefreshes ((s.dropWord a d w).modClk d (fun k => { k with
          tick := BitVec.ofNat 64 (w.tick.toNat + s.linkLag a d + s.since a w.due.toNat), wraps := 0, aligned := true })) next busy with
        ras := { s.ras with heartbeat := heartbeat } } := by
  have hword (n : Nat) : BitVec.ofNat 64 (n % 2 ^ 64) = BitVec.ofNat 64 n := BitVec.eq_of_toNat_eq (by simp)
  rw [takeAlign_eq_jump, ← hword]
  exact jump_clean hm hc ..

theorem exec_tickAlign {s : State} {a d : DieId} {w : LinkWord} (had : a ≠ d) (hup : s.linkUp a.val d.val = true)
    (hw : s.dueWord a.val d.val .align = some w)
    (hfirst : ∀ e : DieId, e < a → e ≠ d → s.linkUp e.val d.val = true → s.dueWord e.val d.val .align = none) :
    exec (.tickAlign d) s = .next (s.takeAlign a.val d.val w) := by
  show execTickAlign d s = _
  rw [execTickAlign, alignSource had hup hw hfirst, withSome_some, hw, withSome_some]

/-! ### TICK_CHECK_WORD (R365, R36) -/

theorem exec_tickCheckWord {s : State} {a b : DieId} {w : LinkWord} (hab : a ≠ b) (hup : s.linkUp a.val b.val = true)
    (hw : s.dueWord a.val b.val .check = some w) :
    exec (.tickCheckWord a b) s = .next ((s.dropWord a.val b.val w).compareWord a.val b.val w) := by
  show execTickCheckWord a b s = _
  have h : (decide (a ≠ b) && s.linkUp a b) = true := by simp [hab, hup]
  rw [execTickCheckWord, if_pos h, hw, withSome_some]

/-- A comparison is kept at the link, and a difference is logged (R365). -/
theorem compareWord_keeps {A : Type} (π : State → A) (hras : ∀ s f, π (State.modRas s f) = π s) (hnet : ∀ s f, π (State.modNet s f) = π s)
    (hio : ∀ s f, π (State.modIo s f) = π s) (s : State) (a b : Nat) {w : LinkWord} (hw : w.delayed = false) :
    π (s.compareWord a b w) = π (s.modLink (linkKey a b)
      (·.setCmp (decide (b < a)) (decide (s.tickOf b = (w.due.toNat + s.since a w.due.toNat) % 2 ^ 64)))) := by
  unfold State.compareWord
  dsimp only
  rw [if_neg (by simp [hw])]
  split
  · rfl
  · exact log_keeps π hras hnet hio ..

/-! ### ALIGNMENT_DECISION (R37) -/

/-- A die marked unaligned: no other clock changes, and of its own the mark alone. -/
theorem unalign_clk (s : State) (d : Nat) : (s.unalign d).sys.clk = s.sys.clk.modify d (fun k => { k with aligned := false }) :=
  clk_of_base (endReqs_base ..)

theorem unalign_aligned (s : State) (x d : Nat) :
    ((s.unalign x).sys.clk.get d).aligned = ((s.sys.clk.get d).aligned && decide (d ≠ x)) := by
  by_cases h : d = x <;> simp [unalign_clk, tbl_get_modify, h]

theorem eachOf_unalign_aligned (l : List Nat) (s : State) (d : Nat) :
    ((eachOf l (fun x s => s.unalign x) s).sys.clk.get d).aligned = ((s.sys.clk.get d).aligned && decide (d ∉ l)) := by
  induction l generalizing s with
  | nil => simp
  | cons x l ih => rw [eachOf_cons, ih, unalign_aligned, Bool.and_assoc]; simp [not_or]

theorem exec_alignmentDecision {s : State} {a b : Nat} (hr : s.sys.warden.running = true) (ha : a ∈ s.alignedDies) (hb : b ∈ s.alignedDies)
    (hab : a < b) (hup : s.linkUp a b = true) (hno : s.agree a b = false) :
    exec .alignmentDecision s
      = .next (eachOf (s.alignedDies.filter (fun d => !s.keptGroup.contains d)) (fun d s => s.unalign d) s) := by
  have hslip : s.alignedDies.any (fun a => s.alignedDies.any (fun b => decide (a < b) && s.linkUp a b && !s.agree a b)) = true :=
    List.any_eq_true.mpr ⟨a, ha, List.any_eq_true.mpr ⟨b, hb, by simp [hab, hup, hno]⟩⟩
  show execAlignmentDecision s = _
  unfold execAlignmentDecision
  dsimp only
  rw [hslip, hr]
  rfl

/-- Settles O8: the parts of a Pulse edge one after another; the catch-up of a clean memory; a log leaves what the check word's comparison
says; and a die marked unaligned changes no other clock. -/
theorem clocksCountAndAlign : Obligations.ClocksCountAndAlign := by
  unfold Obligations.ClocksCountAndAlign
  refine ⟨fun s hp hb => ?edge, fun s d hp hs hl => pulseEdge_extTick d hp hs hl, fun s a d w had hup hw hfirst hm hc => ?align,
    fun s a b w hab hup hw => ⟨fun hd => ?compared, fun hd => ?delayed⟩, fun s a b hr ha hb hab hup hno => ?decision⟩
  case edge =>
    obtain ⟨t, hx, hclk, hdue, hvis, hwords, hframe⟩ := pulseEdge_effect hp hb
    refine ⟨t, hx, fun d => ?_, fun d => ?_, hdue, hvis, fun a b hab => ?_, hframe⟩
    · rw [hclk, edge_tick]
    · rw [hclk]; exact edge_aligned_locked _
    · rw [hwords a b hab, checkWords_eq]
  case align =>
    obtain ⟨next, busy, heartbeat, h⟩ := takeAlign_effect hm hc a.val d.val w
    refine ⟨_, (exec_tickAlign had hup hw hfirst).trans (congrArg _ h), ?_, ?_, ?_, fun e he => ?_, ?_, rfl⟩
    · exact congrArg DieClk.tick (tbl_get_modify_same ..)
    · exact congrArg DieClk.wraps (tbl_get_modify_same ..)
    · exact congrArg DieClk.aligned (tbl_get_modify_same ..)
    · exact tbl_get_modify_other (Fin.val_ne_of_ne he) ..
    · exact congrArg LinkDir.words (tbl_get_modify_same ..)
  case compared =>
    have hkeeps := fun {A : Type} (π : State → A) hras hnet hio =>
      compareWord_keeps π hras hnet hio (s.dropWord a.val b.val w) a.val b.val hd
    have hlink := hkeeps (·.link) (fun _ _ => rfl) (fun _ _ => rfl) (fun _ _ => rfl)
    refine ⟨_, exec_tickCheckWord hab hup hw, ?_, ⟨fun hlt => ?_, fun hlt => ?_⟩, ?_, ?_, ?_, ?_⟩
    · rw [hlink]; exact congrArg LinkDir.words (tbl_get_modify_same ..)
    · rw [hlink, modLink_links, tbl_get_modify_same, decide_eq_true (show b.val < a.val from hlt)]; rfl
    · rw [hlink, modLink_links, tbl_get_modify_same, decide_eq_false (show ¬b.val < a.val from Nat.lt_asymm hlt)]; rfl
    · exact hkeeps (·.sys.clk) (fun _ _ => rfl) (fun _ _ => rfl) (fun _ _ => rfl)
    · exact hkeeps (·.mem) (fun _ _ => rfl) (fun _ _ => rfl) (fun _ _ => rfl)
    · exact hkeeps (·.comp) (fun _ _ => rfl) (fun _ _ => rfl) (fun _ _ => rfl)
    · exact hkeeps (·.req) (fun _ _ => rfl) (fun _ _ => rfl) (fun _ _ => rfl)
  case delayed =>
    rw [exec_tickCheckWord hab hup hw, State.compareWord, if_pos hd]
    rfl
  case decision =>
    refine ⟨_, exec_alignmentDecision hr ha hb hab hup hno, fun d hd => ?_⟩
    have haligned : (s.sys.clk.get d.val).aligned = true := by
      have := (List.mem_filter.mp hd).2
      simp_all
    rw [eachOf_unalign_aligned, haligned]
    simp [hd]

end Sys2Proof.Clocks
end

section
/-! SUPPORT. The mesh and the crossings between dies (R30, R286 to R294, R315, R334, R338, R353 to R355): what a router's ports send and
what an input takes. -/

namespace Sys2Proof.Crossing

open Sys2Proof.Machine Sys2Proof.Laws Sys2Proof.Registers Sys2Proof.Spared

/-! ### What a packet handed over leaves of the network -/

/-- A packet handed over takes a near link, reaches the block of its own node, or waits at its node's router (R286, R304, R28). -/
theorem send_cases (s : State) (src : Nat) (dst : Dest) (vc k : Nat) (p r : Option Nat) (pay : Payload) :
    (∃ id near pos, (s.send src dst vc k p r pay).net = { s.net with nextId := id, near := near, nearPos := pos })
      ∨ (∃ id fs, (s.send src dst vc k p r pay).net = { s.net with nextId := id, eject := s.net.eject.modify src (· ++ fs) })
      ∨ ∃ id inj, (s.send src dst vc k p r pay).net = { s.net with nextId := id, inject := inj } := by
  unfold State.send State.sendAt State.sendNear
  dsimp only
  split
  · exact .inl ⟨_, _, _, rfl⟩
  · generalize (decide (dst = Dest.node src) && _) = own
    cases own with
    | true => exact .inr (.inl ⟨_, _, rfl⟩)
    | false => exact .inr (.inr ⟨_, _, rfl⟩)

section
variable {A : Type} (π : Net → A)
  (hπ : ∀ n id inj ej near pos, π { n with nextId := id, inject := inj, eject := ej, near := near, nearPos := pos } = π n)
include hπ

theorem send_keeps_net (s : State) (src : Nat) (dst : Dest) (vc k : Nat) (p r : Option Nat) (pay : Payload) :
    π (s.send src dst vc k p r pay).net = π s.net := by
  obtain ⟨id, near, pos, h⟩ | ⟨id, fs, h⟩ | ⟨id, inj, h⟩ := send_cases s src dst vc k p r pay
  · rw [h]; exact hπ s.net _ s.net.inject s.net.eject _ _
  · rw [h]; exact hπ s.net _ s.net.inject _ s.net.near s.net.nearPos
  · rw [h]; exact hπ s.net _ _ s.net.eject s.net.near s.net.nearPos

theorem log_keeps_net (s : State) (d m : Nat) (p : Option Nat) (c : Code) (x y : Nat) : π (s.log d m p c x y).net = π s.net := by
  have hnote : (noteEvent s d (s.mkEvent d m p c x y)).net = s.net := noteEvent_keeps (·.net) (fun _ _ => rfl) (fun _ _ => rfl) ..
  obtain h | ⟨ad, h⟩ | ⟨src, dst, pay, h⟩ := log_cases s d m p c x y
  · rw [h, hnote]
  · rw [h]; exact congrArg π hnote
  · rw [h, send_keeps_net π hπ, hnote]

end

/-- What an ejection port has sent stays until its block takes it. -/
theorem mem_eject_send {s : State} {k : Nat} {g : BufFlit} (hg : g ∈ s.net.eject.get k) (src : Nat) (dst : Dest) (vc j : Nat)
    (p r : Option Nat) (pay : Payload) : g ∈ (s.send src dst vc j p r pay).net.eject.get k := by
  obtain ⟨id, near, pos, h⟩ | ⟨id, fs, h⟩ | ⟨id, inj, h⟩ := send_cases s src dst vc j p r pay
  · rwa [h]
  · rw [h, tbl_get_modify]
    split
    · next hk => subst hk; exact List.mem_append_left _ hg
    · exact hg
  · rwa [h]

theorem mem_eject_log {s : State} {k : Nat} {g : BufFlit} (hg : g ∈ s.net.eject.get k) (d m : Nat) (p : Option Nat) (c : Code) (x y : Nat) :
    g ∈ (s.log d m p c x y).net.eject.get k := by
  have hnote : (noteEvent s d (s.mkEvent d m p c x y)).net = s.net := noteEvent_keeps (·.net) (fun _ _ => rfl) (fun _ _ => rfl) ..
  have hg' : g ∈ (noteEvent s d (s.mkEvent d m p c x y)).net.eject.get k := by rwa [hnote]
  obtain h | ⟨ad, h⟩ | ⟨src, dst, pay, h⟩ := log_cases s d m p c x y
  · rwa [h]
  · rw [h]; exact hg'
  · rw [h]; exact mem_eject_send hg' ..

/-! ### Entering a router (R291, R334, R338) -/

section
variable {A : Type} {π : State → A} (hnet : ∀ s f, π (State.modNet s f) = π s)
include hnet

theorem notePhase_keeps (s : State) (node : Nat) (p : Packet) : π (s.notePhase node p) = π s := by
  unfold State.notePhase
  split
  · split
    · rfl
    · exact eachOf_keeps_of π (fun _ _ => hnet ..) ..
  · rfl

theorem enter_keeps (s : State) (node : Nat) (inp : Port) (p : Packet) (idx entered : Nat) : π (s.enter node inp p idx entered) = π s := by
  unfold State.enter
  dsimp only
  split
  · rw [eachOf_keeps_of π (fun _ _ => hnet ..), notePhase_keeps hnet]
  · split
    · exact notePhase_keeps hnet ..
    · rw [hnet, notePhase_keeps hnet]

theorem spendTo_keeps (s : State) (node port : Nat) (ms : List (Nat × Nat)) (flits : Nat) : π (s.spendTo node port ms flits) = π s :=
  eachOf_keeps_of π (fun _ _ => hnet ..) ..

theorem injectOne_keeps (s : State) (node now : Nat) (p : Packet) : π (s.injectOne node now p) = π s := by
  unfold State.injectOne
  dsimp only
  rw [enter_keeps hnet]
  have hspend : ∀ u, π u = π s → π (if p.first = 0 then u.spendTo node 0 (injMeters node p).2 p.flits else u) = π s := fun u hu => by
    split
    · rw [spendTo_keeps hnet, hu]
    · exact hu
  have hwindow : ∀ (u : State) (f : Nat × Bool → Net → Net) (o : Option (Nat × Bool)), π u = π s →
      π (match o with | some x => u.modNet (f x) | none => u) = π s := fun u f o hu => by
    cases o with
    | none => exact hu
    | some x => exact (hnet ..).trans hu
  refine hwindow _ _ _ (hspend _ ?_)
  split
  · exact (hnet ..).trans (hnet ..)
  · exact hnet ..

theorem injectFlits_keeps (node now k : Nat) (p : Packet) (s : State) : π (State.injectFlits node now k p s).1 = π s := by
  induction k generalizing p s with
  | zero => rfl
  | succ k ih =>
    rw [State.injectFlits]
    split
    · rfl
    · split
      · rw [ih, injectOne_keeps hnet]
      · rfl

theorem refill_keeps (hras : ∀ s f, π (State.modRas s f) = π s) (hio : ∀ s f, π (State.modIo s f) = π s) (s : State) (node now : Nat) :
    π (s.refill node now) = π s := by
  unfold State.refill
  dsimp only
  rw [hnet]
  refine List.foldlRecOn (motive := fun acc : State × List Packet × List (Option Nat × Nat × Bool × Option Nat) => π acc.1 = π s) _ _ rfl ?_
  rintro ⟨u, keep, held⟩ hu p -
  dsimp only at hu ⊢
  split
  · exact hu
  · split
    · exact (log_keeps π hras hnet hio ..).trans hu
    · split
      · exact hu
      · have hin := injectFlits_keeps hnet node now (p.last + 1) p u
        split <;> next h => rw [h] at hin; exact hin.trans hu

theorem checkFlit_keeps (s : State) (node : Nat) (o : Port) (c : Nat) (e : FlitErr) : π (s.checkFlit node o c e) = π s := by
  unfold State.checkFlit
  split
  · rfl
  · split
    · rfl
    · exact hnet ..
    · exact hnet ..

end

/-! ### The winner of a cycle (R294) -/

theorem mem_of_oldestOf {s : State} {node c : Nat} {l : List (Port × BufFlit)} {x : Port × BufFlit} (h : s.oldestOf node c l = some x) :
    x ∈ l := by
  unfold State.oldestOf at h
  dsimp only at h
  split at h
  · exact (List.mem_filter.mp (List.mem_of_find?_eq_some h)).1
  · cases h

theorem mem_ready_of_winner {s : State} {node : Nat} {o : Port} {c : Nat} {x : Port × BufFlit} (h : s.winner node o c = some x) :
    x ∈ s.ready node o c := by
  unfold State.winner at h
  dsimp only at h
  split at h
  · exact (List.mem_filter.mp (mem_of_oldestOf h)).1
  · exact (List.mem_filter.mp (List.mem_filter.mp (mem_of_oldestOf h)).1).1

/-- There is room downstream for the winner (R289, R355). -/
theorem roomFor_of_winner {s : State} {node : Nat} {o : Port} {c : Nat} {x : Port × BufFlit} (h : s.winner node o c = some x) :
    s.roomFor (8 * s.tickOf (nodeDie node) + c) node o x.2.pkt = true := by
  have := (List.mem_filter.mp (mem_ready_of_winner h)).2
  simp only [Bool.and_eq_true] at this
  exact this.1.2

/-- Every router has a neighbour to its east or to its west. -/
theorem meshPorts_pos (n : Nat) : 0 < meshPorts n := by
  refine List.length_pos_of_mem (a := if nodeX n = 7 then Port.w else Port.e) (List.mem_filter.mpr ⟨?_, ?_⟩)
  · split <;> simp
  · split
    · next h => simp [neighbour, h]
    · next h => simp [neighbour, h]

theorem localWidth_pos (n : Nat) : 0 < localWidth n := by
  unfold localWidth
  split
  case h_5 => exact meshPorts_pos n
  all_goals exact Nat.one_pos

/-- An output with a winner sends in that cycle. -/
theorem outWidth_pos {s : State} {node : Nat} {o : Port} {c : Nat} {x : Port × BufFlit} (h : s.winner node o c = some x) :
    0 < s.outWidth node o := by
  have hroom := roomFor_of_winner h
  cases o with
  | l => exact localWidth_pos node
  | sx =>
    unfold State.roomFor at hroom
    unfold State.outWidth
    dsimp only at hroom ⊢
    cases hl : slLink node with
    | none => simp [hl] at hroom
    | some x => dsimp only; split <;> decide
  | _ => exact Nat.one_pos

end Sys2Proof.Crossing
end

section
/-! SUPPORT. One flit leaves its output (R30, R287, R290, R294, R298, R310, R353, R354). -/

namespace Sys2Proof.Crossing

open Sys2Proof.Machine Sys2Proof.Laws Sys2Proof.Registers Sys2Proof.Spared

/-! ### One flit leaves its output (R30, R290, R353) -/

/-- The state as the winner leaves its input: the meters it meets have counted it, the output's record says that it was sent, and its slot
is freed. -/
def leaving (s : State) (node : Nat) (o : Port) (c : Nat) (inp : Port) (f : BufFlit) : State :=
  ((if f.idx = 0 then s.spendTo node (portNo o) (s.outMeters node o f.pkt) f.pkt.flits else s).modNet
    (fun n => { n with ports := n.ports.set (node, o) ((s.portNow node o).sent c f) })).freeSlot node inp o f
      (8 * s.tickOf (nodeDie node) + c)

theorem sendOne_winner {s : State} {node : Nat} {o : Port} {c : Nat} {inp : Port} {f : BufFlit} (h : s.winner node o c = some (inp, f)) :
    s.sendOne node o c = ((leaving s node o c inp f).passOn node o c f).timingOpens node o f.pkt := by
  unfold State.sendOne
  rw [h]
  rfl

theorem sendOne_none {s : State} {node : Nat} {o : Port} {c : Nat} (h : s.winner node o c = none) : s.sendOne node o c = s := by
  unfold State.sendOne
  rw [h]

theorem spendTo_net (s : State) (node port : Nat) (ms : List (Nat × Nat)) (flits : Nat) :
    ∃ spent, s.spendTo node port ms flits = s.modNet (fun n => { n with toSpent := spent }) := by
  refine eachOf_keeps (fun t => ∃ spent, t = s.modNet (fun n => { n with toSpent := spent })) _ ⟨_, rfl⟩ ?_
  rintro m - _ ⟨spent, rfl⟩
  exact ⟨_, rfl⟩

theorem freeSlot_net (s : State) (node : Nat) (inp o : Port) (f : BufFlit) (now : Nat) :
    ∃ bufs freed, s.freeSlot node inp o f now = s.modNet (fun n => { n with bufs := bufs, freed := freed }) := by
  unfold State.freeSlot
  dsimp only
  split
  · exact ⟨_, _, rfl⟩
  · exact ⟨_, _, rfl⟩

/-- A flit that leaves its input changes the meters, its input's buffer and its output's record. -/
theorem leaving_net (s : State) (node : Nat) (o : Port) (c : Nat) (inp : Port) (f : BufFlit) :
    ∃ spent bufs freed, leaving s node o c inp f = s.modNet (fun n => { n with
      toSpent := spent, bufs := bufs, freed := freed, ports := n.ports.set (node, o) ((s.portNow node o).sent c f) }) := by
  have hspent : ∃ spent, (if f.idx = 0 then s.spendTo node (portNo o) (s.outMeters node o f.pkt) f.pkt.flits else s)
      = s.modNet (fun n => { n with toSpent := spent }) := by
    split
    · exact spendTo_net ..
    · exact ⟨_, rfl⟩
  obtain ⟨spent, hspent⟩ := hspent
  unfold leaving
  rw [hspent]
  obtain ⟨bufs, freed, h⟩ := freeSlot_net ((s.modNet (fun n => { n with toSpent := spent })).modNet
    (fun n => { n with ports := n.ports.set (node, o) ((s.portNow node o).sent c f) })) node inp o f (8 * s.tickOf (nodeDie node) + c)
  exact ⟨spent, bufs, freed, h⟩

/-- A request whose timing opens is marked, and the opening is logged (R384). -/
theorem timingOpens_cases (s : State) (node : Nat) (o : Port) (p : Packet) :
    s.timingOpens node o p = s
      ∨ ∃ id f part, s.timingOpens node o p = (s.modReq id f).log (nodeDie node) node part .detTimingOpen 0 0 := by
  unfold State.timingOpens
  dsimp only
  split
  · exact .inl rfl
  · split
    · exact .inr ⟨_, _, _, rfl⟩
    · exact .inl rfl

theorem timingOpens_keeps_net {A : Type} (π : Net → A)
    (hπ : ∀ n id inj ej near pos, π { n with nextId := id, inject := inj, eject := ej, near := near, nearPos := pos } = π n)
    (s : State) (node : Nat) (o : Port) (p : Packet) : π (s.timingOpens node o p).net = π s.net := by
  obtain h | ⟨id, f, part, h⟩ := timingOpens_cases s node o p
  · rw [h]
  · rw [h, log_keeps_net π hπ]; rfl

theorem mem_eject_timingOpens {s : State} {k : Nat} {g : BufFlit} (hg : g ∈ s.net.eject.get k) (node : Nat) (o : Port) (p : Packet) :
    g ∈ (s.timingOpens node o p).net.eject.get k := by
  obtain h | ⟨id, f, part, h⟩ := timingOpens_cases s node o p
  · rwa [h]
  · have hmod : g ∈ (s.modReq id f).net.eject.get k := hg
    rw [h]
    exact mem_eject_log hmod ..

theorem addStall_keeps {A : Type} (π : State → A) (hreq : ∀ s f, π (State.modReqs s f) = π s) (s : State) (r kind cost node place : Nat) :
    π (s.addStall r kind cost node place) = π s := by
  unfold State.addStall State.modReq
  exact hreq ..

theorem halfStall_keeps {A : Type} (π : State → A) (hreq : ∀ s f, π (State.modReqs s f) = π s) (s : State) (a b : Nat) (p : Packet) :
    π (s.halfStall a b p) = π s := by
  unfold State.halfStall
  split
  · rfl
  · split
    · dsimp only
      split
      · exact hreq ..
      · exact addStall_keeps π hreq ..
    · rfl

section
variable {A : Type} {π : State → A} (hras : ∀ s f, π (State.modRas s f) = π s) (hnet : ∀ s f, π (State.modNet s f) = π s)
  (hio : ∀ s f, π (State.modIo s f) = π s) (hreq : ∀ s f, π (State.modReqs s f) = π s) (hdir : ∀ s k f, π (State.modDir s k f) = π s)

include hras hnet hio hreq in
theorem timingOpens_keeps (s : State) (node : Nat) (o : Port) (p : Packet) : π (s.timingOpens node o p) = π s := by
  obtain h | ⟨id, f, part, h⟩ := timingOpens_cases s node o p
  · rw [h]
  · rw [h, log_keeps π hras hnet hio]; exact hreq ..

include hreq hdir in
theorem sendLink_keeps (s : State) (a b : Nat) (p : Packet) (idx c : Nat) (sched : Bool) : π (s.sendLink a b p idx c sched) = π s := by
  unfold State.sendLink
  rw [halfStall_keeps π hreq, hdir]

include hnet hreq hdir in
theorem passOn_keeps (s : State) (node : Nat) (o : Port) (c : Nat) (f : BufFlit) : π (s.passOn node o c f) = π s := by
  unfold State.passOn
  dsimp only
  split
  · exact hnet ..
  · exact hnet ..
  · split
    · exact sendLink_keeps hreq hdir ..
    · rfl
  · split
    · exact hnet ..
    · rfl

include hras hnet hio hreq hdir in
/-- What neither the network, the links, the requests, the logs nor the outputs hold is as it was after a flit is sent. -/
theorem sendOne_keeps (s : State) (node : Nat) (o : Port) (c : Nat) : π (s.sendOne node o c) = π s := by
  cases h : s.winner node o c with
  | none => rw [sendOne_none h]
  | some x =>
    obtain ⟨spent, bufs, freed, hl⟩ := leaving_net s node o c x.1 x.2
    rw [sendOne_winner h, timingOpens_keeps hras hnet hio hreq, passOn_keeps hnet hreq hdir, hl, hnet]

end

/-! ### What each kind of output does with a flit -/

/-- A flit passed on changes no output's record. -/
theorem passOn_ports (s : State) (node : Nat) (o : Port) (c : Nat) (f : BufFlit) : (s.passOn node o c f).net.ports = s.net.ports := by
  unfold State.passOn
  dsimp only
  split
  · rfl
  · rfl
  · split
    · exact sendLink_keeps (π := (·.net.ports)) (fun _ _ => rfl) (fun _ _ _ => rfl) ..
    · rfl
  · split <;> rfl

/-- An output that sends in a cycle has used it. -/
theorem sendOne_nextCycle {s : State} {node : Nat} {o : Port} {c : Nat} {x : Port × BufFlit} (h : s.winner node o c = some x) :
    ((s.sendOne node o c).net.ports.get (node, o)).nextCycle = c + 1 := by
  obtain ⟨spent, bufs, freed, hl⟩ := leaving_net s node o c x.1 x.2
  rw [sendOne_winner h, timingOpens_keeps_net (·.ports) (fun _ _ _ _ _ _ => rfl), passOn_ports, hl, modNet_net, tbl_get_set_same]
  rfl

theorem passOn_eject_mem {s : State} {k : Nat} {g : BufFlit} (hg : g ∈ s.net.eject.get k) (node : Nat) (o : Port) (c : Nat) (f : BufFlit) :
    g ∈ (s.passOn node o c f).net.eject.get k := by
  unfold State.passOn
  dsimp only
  split
  · rw [modNet_net, tbl_get_modify]
    split
    · next hk => subst hk; exact List.mem_append_left _ hg
    · exact hg
  · exact hg
  · split
    · rwa [sendLink_keeps (π := (·.net.eject)) (fun _ _ => rfl) (fun _ _ _ => rfl)]
    · exact hg
  · split <;> exact hg

theorem mem_eject_sendOne {s : State} {k : Nat} {g : BufFlit} (hg : g ∈ s.net.eject.get k) (node : Nat) (o : Port) (c : Nat) :
    g ∈ (s.sendOne node o c).net.eject.get k := by
  cases h : s.winner node o c with
  | none => rwa [sendOne_none h]
  | some x =>
    obtain ⟨spent, bufs, freed, hl⟩ := leaving_net s node o c x.1 x.2
    rw [sendOne_winner h]
    exact mem_eject_timingOpens (passOn_eject_mem (by rw [hl]; exact hg) ..) ..

/-- At the ejection port a flit waits for its block (R298). -/
theorem sendOne_ejects {s : State} {node c : Nat} {inp : Port} {f : BufFlit} (h : s.winner node .l c = some (inp, f)) :
    ∃ g ∈ (s.sendOne node .l c).net.eject.get node, g.pkt = f.pkt ∧ g.idx = f.idx := by
  let at_ := 8 * (leaving s node .l c inp f).tickOf (nodeDie node) + c + if f.pkt.tickRel then 0 else 1
  refine ⟨{ f with entered := at_ }, ?_, rfl, rfl⟩
  rw [sendOne_winner h]
  refine mem_eject_timingOpens ?_ ..
  unfold State.passOn
  simp only [modNet_net, tbl_get_modify_same]
  exact List.mem_append_right _ (List.mem_singleton.mpr rfl)

/-- At the home port an operation waits for the Beacon unit (R310). -/
theorem sendOne_home {s : State} {node c : Nat} {inp : Port} {f : BufFlit} (h : s.winner node .h c = some (inp, f)) :
    (s.sendOne node .h c).net.home.get node = s.net.home.get node ++ [f.pkt] := by
  obtain ⟨spent, bufs, freed, hl⟩ := leaving_net s node .h c inp f
  rw [sendOne_winner h, timingOpens_keeps_net (·.home) (fun _ _ _ _ _ _ => rfl)]
  unfold State.passOn
  simp only [modNet_net, tbl_get_modify_same]
  rw [hl]
  rfl

/-- At a mesh output a flit goes onto the crossing to the neighbour's input (R30, R290). -/
theorem sendOne_cross {s : State} {node : Nat} {o : Port} {c : Nat} {inp : Port} {f : BufFlit} {m : Nat}
    (h : s.winner node o c = some (inp, f)) (ho : o ∈ [Port.n, .e, .s, .w]) (hm : neighbour node o = some m) :
    (s.sendOne node o c).net.cross.get (m, opposite o) = s.net.cross.get (m, opposite o) ++
      [⟨f.pkt, f.idx, let t := s.tickOf (nodeDie node)
        if f.pkt.tickRel then 8 * (t + if 6 ≤ c then 2 else 1) else 8 * t + c + if isSeam node o then 5 else 2⟩] := by
  obtain ⟨spent, bufs, freed, hl⟩ := leaving_net s node o c inp f
  have hpass : ∀ u : State, (u.passOn node o c f).net.cross.get (m, opposite o) = u.net.cross.get (m, opposite o) ++
      [⟨f.pkt, f.idx, if f.pkt.tickRel then 8 * (u.tickOf (nodeDie node) + if 6 ≤ c then 2 else 1)
        else 8 * u.tickOf (nodeDie node) + c + if isSeam node o then 5 else 2⟩] := fun u => by
    cases o with
    | l | h | sx => simp at ho
    | n | e | s | w => simp [State.passOn, hm]
  rw [sendOne_winner h, timingOpens_keeps_net (·.cross) (fun _ _ _ _ _ _ => rfl), hpass, hl]
  rfl

/-! ### Sundya ports (R353, R354) -/

theorem sendLink_flight (s : State) (a b : Nat) (p : Packet) (idx c : Nat) (sched : Bool) (k : Nat) :
    ((s.sendLink a b p idx c sched).link.dirs.get k).flight = (s.link.dirs.get k).flight ++
      if k = dirKey a b then
        [⟨(s.link.dirs.get k).nextSeq, p, idx, s.linkDue a b (s.tickOf a) c p.tickRel, sched, 0, false⟩] else [] := by
  unfold State.sendLink
  rw [halfStall_keeps (·.link) (fun _ _ => rfl)]
  by_cases h : k = dirKey a b
  · subst h; simp
  · simp [tbl_get_modify_other h, h]

theorem timingOpens_link (s : State) (node : Nat) (o : Port) (p : Packet) : (s.timingOpens node o p).link = s.link :=
  timingOpens_keeps (π := (·.link)) (fun _ _ => rfl) (fun _ _ => rfl) (fun _ _ => rfl) (fun _ _ => rfl) ..

theorem mem_flight_passOn {s : State} {k : Nat} {g : LinkFlit} (hg : g ∈ (s.link.dirs.get k).flight) (node : Nat) (o : Port) (c : Nat)
    (f : BufFlit) : g ∈ ((s.passOn node o c f).link.dirs.get k).flight := by
  unfold State.passOn
  dsimp only
  split
  · exact hg
  · exact hg
  · split
    · rw [sendLink_flight]; exact List.mem_append_left _ hg
    · exact hg
  · split <;> exact hg

/-- What a link carries stays in its replay buffer while outputs send. -/
theorem mem_flight_sendOne {s : State} {k : Nat} {g : LinkFlit} (hg : g ∈ (s.link.dirs.get k).flight) (node : Nat) (o : Port) (c : Nat) :
    g ∈ ((s.sendOne node o c).link.dirs.get k).flight := by
  cases h : s.winner node o c with
  | none => rwa [sendOne_none h]
  | some x =>
    obtain ⟨spent, bufs, freed, hl⟩ := leaving_net s node o c x.1 x.2
    rw [sendOne_winner h, timingOpens_link]
    exact mem_flight_passOn (by rw [hl]; exact hg) ..

/-- At a Sundya port a flit waits in the replay buffer until it is handed over (R353, R354). -/
theorem sendOne_flight {s : State} {node c : Nat} {inp : Port} {f : BufFlit} {a b : Nat} (h : s.winner node .sx c = some (inp, f))
    (hl : slLink node = some (a, b)) : ∃ g ∈ ((s.sendOne node .sx c).link.dirs.get (dirKey a b)).flight,
      g.pkt = f.pkt ∧ g.idx = f.idx ∧ g.due = s.linkDue a b (s.tickOf a) c f.pkt.tickRel := by
  obtain ⟨spent, bufs, freed, hleft⟩ := leaving_net s node .sx c inp f
  refine ⟨⟨(s.link.dirs.get (dirKey a b)).nextSeq, f.pkt, f.idx, s.linkDue a b (s.tickOf a) c f.pkt.tickRel, f.pkt.srid.isSome, 0, false⟩,
    ?_, rfl, rfl, rfl⟩
  rw [sendOne_winner h, timingOpens_link, hleft]
  unfold State.passOn
  simp only [hl]
  rw [sendLink_flight, if_pos rfl]
  exact List.mem_append_right _ (.head _)

end Sys2Proof.Crossing
end

section
/-! SUPPORT. FLIT_SEND and the handovers, at inputs and over links (R30, R290, R291, R315, R334, R338, R353 to R355). -/

namespace Sys2Proof.Crossing

open Sys2Proof.Machine Sys2Proof.Laws Sys2Proof.Registers Sys2Proof.Spared

/-! ### FLIT_SEND -/

/-- What the first flit brings about, and each later one keeps, holds after an output has sent. -/
theorem sends_induct (P : State → Prop) {s : State} {node : Nat} {o : Port} {c w : Nat} (hw : 0 < w) (h1 : P (s.sendOne node o c))
    (hP : ∀ t, P t → P (t.sendOne node o c)) : P ((List.range w).foldl (fun s _ => s.sendOne node o c) s) := by
  obtain ⟨k, rfl⟩ := Nat.exists_eq_succ_of_ne_zero (Nat.pos_iff_ne_zero.mp hw)
  rw [List.range_succ_eq_map, List.foldl_cons]
  exact List.foldlRecOn (motive := P) _ _ h1 fun t ht _ _ => hP t ht

theorem exec_flitSend {s s1 : State} {n : NodeId} {o : Port} {c : Fin 8} {e : FlitErr} (hn : nodeOk n = true)
    (hf : s.dieFencedB (nodeDie n.toNat) = false) (hc : (s.portNow n.toNat o).nextCycle ≤ c.val)
    (hs : s1 = (s.refill n.toNat (8 * s.tickOf (nodeDie n.toNat) + c.val)).checkFlit n.toNat o c.val e) :
    exec (.flitSend n o ⟨c, e⟩) s
      = .next ((List.range (s1.outWidth n.toNat o)).foldl (fun s _ => s.sendOne n.toNat o c.val) s1) := by
  show execFlitSend n o ⟨c, e⟩ s = _
  have hv : nodeValid n.toNat = true := (Answering.nodeValid_eq_nodeOk n).trans hn
  unfold execFlitSend
  simp [hv, hf, hc, hs, whenB]

/-- What neither the network, the links, the requests, the logs nor the outputs hold is as it was after FLIT_SEND. -/
theorem flitSend_keeps {A : Type} {π : State → A} (hras : ∀ s f, π (State.modRas s f) = π s) (hnet : ∀ s f, π (State.modNet s f) = π s)
    (hio : ∀ s f, π (State.modIo s f) = π s) (hreq : ∀ s f, π (State.modReqs s f) = π s) (hdir : ∀ s k f, π (State.modDir s k f) = π s)
    (s : State) (node : Nat) (o : Port) (now c w : Nat) (e : FlitErr) :
    π ((List.range w).foldl (fun s _ => s.sendOne node o c) ((s.refill node now).checkFlit node o c e)) = π s := by
  refine List.foldlRecOn (motive := fun t => π t = π s) _ _ ?_ fun t ht _ _ => (sendOne_keeps hras hnet hio hreq hdir ..).trans ht
  rw [checkFlit_keeps hnet, refill_keeps hnet hras hio]

/-! ### Handovers (R30, R290, R291, R334, R338) -/

/-- The outputs that a packet takes do not depend on what the network holds. -/
theorem outsAt_modNet (s : State) (f : Net → Net) (cur : Nat) (p : Packet) : (s.modNet f).outsAt cur p = s.outsAt cur p := rfl

/-- A flit as it stands in an input. -/
def entering (s : State) (node : Nat) (p : Packet) (idx due : Nat) : BufFlit :=
  ⟨{ p with first := 0, last := p.flits }, idx, due, s.outsAt node p⟩

theorem notePhase_of_not_phase {s : State} {p : Packet} (h : p.isPhase = false) (node : Nat) : s.notePhase node p = s := by
  unfold State.notePhase
  split
  · next hp => simp [Packet.isPhase, hp] at h
  · rfl

theorem eachOf_schedBufs (h : Tbl (Nat × Port × Port) (List BufFlit) → Port → Tbl (Nat × Port × Port) (List BufFlit)) (l : List Port)
    (s : State) : eachOf l (fun o u => u.modNet (fun n => { n with schedBufs := h n.schedBufs o })) s
      = s.modNet (fun n => { n with schedBufs := l.foldl h n.schedBufs }) := by
  induction l generalizing s with
  | nil => rfl
  | cons o l ih => rw [eachOf_cons, ih]; rfl

/-- A scheduled flit enters the scheduled queue of each output that it takes (R334). -/
theorem enter_scheduled {s : State} {p : Packet} (hs : p.srid.isSome = true) (hp : p.isPhase = false) (node : Nat) (inp : Port) (idx due : Nat) :
    s.enter node inp p idx due = s.modNet (fun n => { n with
      schedBufs := (s.outsAt node p).foldl (fun b o => b.modify (node, inp, o) (· ++ [entering s node p idx due])) n.schedBufs }) := by
  unfold State.enter
  dsimp only
  rw [notePhase_of_not_phase hp, if_pos hs]
  exact eachOf_schedBufs (fun b o => b.modify (node, inp, o) (· ++ [entering s node p idx due])) ..

/-- Any other flit enters the input buffer of its VC and kind, behind the flits there (R291); one that takes no output goes nowhere. -/
theorem enter_buffered {s : State} {p : Packet} (hs : p.srid = none) (hp : p.isPhase = false) (node : Nat) (inp : Port) (idx due : Nat) :
    s.enter node inp p idx due = if (s.outsAt node p).isEmpty then s else s.modNet (fun n => { n with
      bufs := n.bufs.modify ⟨node, inp, p.vc, p.tickRel⟩ (· ++ [entering s node p idx due]) }) := by
  unfold State.enter
  dsimp only
  rw [notePhase_of_not_phase hp, if_neg (by simp [hs])]
  rfl

/-- The handover commands of an input: the first flit of their kind that is due there (R30, R290). -/
theorem exec_handover {s : State} {n : NodeId} {p : Port} {x : CrossFlit} {rel : Bool} (hn : nodeOk n = true)
    (hx : s.dueCross n.toNat p rel = some x) (hp : rel = false → p ≠ .sx) :
    exec (if rel then .crossingHandover n p else .freeRunningHandover n p) s = .next (s.handOver n.toNat p x) := by
  have hv : nodeValid n.toNat = true := (Answering.nodeValid_eq_nodeOk n).trans hn
  cases rel with
  | true =>
    show execCrossingHandover n p s = _
    unfold execCrossingHandover
    simp [hv, hx]
  | false =>
    show execFreeRunningHandover n p s = _
    unfold execFreeRunningHandover
    dsimp only
    rw [if_neg (by simp [hv])]
    split
    · exact absurd rfl (hp rfl)
    · rw [hx]; rfl

/-- The ports of a region at a router note a phase notice (R338). -/
theorem notePhase_noted {s : State} {p : Packet} {i k T : Nat} {c : Sched} (hp : p.payload = .phase i k T) (hc : s.findSched i = some c)
    {node : Nat} {q : SchedPort} {o : Port} (hq : q ∈ c.ports) (hn : q.node = node) (ho : portOfNo q.port = some o) :
    ((s.notePhase node p).net.phases.get (node, o, i)).noted = some (k, T, true) := by
  have heach : ∀ (l : List Port) (u : State), o ∈ l ∨ (u.net.phases.get (node, o, i)).noted = some (k, T, true) →
      ((eachOf l (fun o u => u.modNet (fun n => { n with
        phases := n.phases.modify (node, o, i) (fun x => { x with noted := some (k, T, true) }) })) u).net.phases.get (node, o, i)).noted
        = some (k, T, true) := fun l => by
    induction l with
    | nil => intro u hu; simpa using hu
    | cons x l ih =>
      intro u hu
      rw [eachOf_cons]
      refine ih _ ?_
      by_cases hox : o = x
      · subst hox; exact .inr (by simp)
      · refine hu.imp (fun h => (List.mem_cons.mp h).resolve_left hox) fun h => ?_
        rw [modNet_net, tbl_get_modify_other (by simpa using hox)]
        exact h
  unfold State.notePhase
  simp only [hp, hc]
  refine heach _ s (.inl (List.mem_filterMap.mpr ⟨q, List.mem_filter.mpr ⟨hq, by simp [hn]⟩, ho⟩))

/-- A flit that enters a router changes no note of a phase but by its own notice. -/
theorem enter_phases (s : State) (node : Nat) (inp : Port) (p : Packet) (idx due : Nat) :
    (s.enter node inp p idx due).net.phases = (s.notePhase node p).net.phases := by
  unfold State.enter
  dsimp only
  split
  · refine eachOf_keeps_of (·.net.phases) (fun o u => ?_) ..
    rfl
  · split <;> rfl

/-! ### Handovers over a link (R353 to R355) -/

theorem slLink_slToward {a b : DieId} (h : a ≠ b) :
    nodeValid (slToward b.val a.val) = true ∧ slLink (slToward b.val a.val) = some (b.val, a.val) := by revert a b; decide

/-- The handover commands of a link: the first flit of their kind that is due over it (R353, R354). -/
theorem exec_landing {s : State} {a b : DieId} {f : LinkFlit} {rel : Bool} (hab : a ≠ b) (hf : s.dueFlight a.val b.val rel = some f) :
    exec (if rel then .sundyaHandover a b else .freeRunningHandover (BitVec.ofNat 8 (slToward b.val a.val)) .sx) s
      = .next (s.landFlit a.val b.val f) := by
  obtain ⟨hv, hl⟩ := slLink_slToward hab
  cases rel with
  | true =>
    show execSundyaHandover a b s = _
    unfold execSundyaHandover
    rw [if_pos hab, hf]
    rfl
  | false =>
    have hlt : slToward b.val a.val < 256 := by simp only [nodeValid, Bool.and_eq_true, decide_eq_true_eq] at hv; exact hv.1
    have hn : (BitVec.ofNat 8 (slToward b.val a.val)).toNat = slToward b.val a.val := by
      rw [BitVec.toNat_ofNat, Nat.mod_eq_of_lt hlt]
    show execFreeRunningHandover _ .sx s = _
    unfold execFreeRunningHandover
    simp [hn, hv, hl, hf]

/-- A flit behind which no other of its packet waits is an entry of its own (R355). -/
theorem landed_alone {l : List Packet} {f : LinkFlit} (h : ∀ q ∈ l, ¬(q.id = f.pkt.id ∧ q.last = f.idx)) :
    landed l f = l ++ [{ f.pkt with start := f.due, first := f.idx, last := f.idx + 1 }] := by
  have hno : l.any (fun p => p.id == f.pkt.id && p.last == f.idx) = false := by simpa using h
  unfold landed
  dsimp only
  rw [hno]
  rfl

theorem mapWhere_eq_self {A : Type} {p : A → Bool} {l : List A} (h : ∀ x ∈ l, p x = false) (f : A → A) : mapWhere p f l = l :=
  (List.map_congr_left fun x hx => by simp [h x hx]).trans (List.map_id' l)

/-- A flit joins the flit of its packet before it (R355). -/
theorem landed_joins {l r : List Packet} {p : Packet} {f : LinkFlit} (hid : p.id = f.pkt.id) (hlast : p.last = f.idx)
    (h : ∀ q ∈ l ++ r, ¬(q.id = f.pkt.id ∧ q.last = f.idx)) : landed (l ++ p :: r) f = l ++ { p with last := f.idx + 1 } :: r := by
  have hno : ∀ q ∈ l ++ r, (q.id == f.pkt.id && q.last == f.idx) = false := by simpa using h
  have hp : (p.id == f.pkt.id && p.last == f.idx) = true := by simp [hid, hlast]
  unfold landed
  dsimp only
  rw [if_pos (by simp [hid, hlast])]
  have hl := mapWhere_eq_self (fun q hq => hno q (List.mem_append_left r hq)) (fun q => { q with last := f.idx + 1 })
  have hr := mapWhere_eq_self (fun q hq => hno q (List.mem_append_right l hq)) (fun q => { q with last := f.idx + 1 })
  unfold mapWhere at hl hr ⊢
  rw [List.map_append, List.map_cons, hl, hr, if_pos hp]

/-! ### The statement -/

/-- What FLIT_SEND does (R30, R290, R294, R298, R310, R353). -/
theorem flitSend_effect {s s1 : State} {n : NodeId} {o : Port} {c : Fin 8} {e : FlitErr} {inp : Port} {f : BufFlit} (hn : nodeOk n = true)
    (hf : s.dieFencedB (nodeDie n.toNat) = false) (hc : (s.portNow n.toNat o).nextCycle ≤ c.val)
    (hs : s1 = (s.refill n.toNat (8 * s.tickOf (nodeDie n.toNat) + c.val)).checkFlit n.toNat o c.val e)
    (hw : s1.winner n.toNat o c.val = some (inp, f)) :
    ∃ t, exec (.flitSend n o ⟨c, e⟩) s = .next t
      ∧ (t.net.ports.get (n.toNat, o)).nextCycle = c.val + 1
      ∧ (∀ m, o ∈ [Port.n, .e, .s, .w] → neighbour n.toNat o = some m →
          t.net.cross.get (m, opposite o) = s1.net.cross.get (m, opposite o) ++
            [⟨f.pkt, f.idx, let T := s.tickOf (nodeDie n.toNat)
              if f.pkt.tickRel then 8 * (T + if 6 ≤ c.val then 2 else 1)
              else 8 * T + c.val + if isSeam n.toNat o then 5 else 2⟩])
      ∧ (o = .l → ∃ g ∈ t.net.eject.get n.toNat, g.pkt = f.pkt ∧ g.idx = f.idx)
      ∧ (o = .h → t.net.home.get n.toNat = s1.net.home.get n.toNat ++ [f.pkt])
      ∧ (∀ a b, o = .sx → slLink n.toNat = some (a, b) →
          ∃ g ∈ (t.link.dirs.get (dirKey a b)).flight, g.pkt = f.pkt ∧ g.idx = f.idx ∧ g.due = s1.linkDue a b (s1.tickOf a) c.val f.pkt.tickRel)
      ∧ t.comp = s.comp ∧ t.mem = s.mem := by
  have hpos := outWidth_pos hw
  have htick : s1.tickOf (nodeDie n.toNat) = s.tickOf (nodeDie n.toNat) := by
    rw [hs, checkFlit_keeps (π := (·.tickOf (nodeDie n.toNat))) (fun _ _ => rfl),
      refill_keeps (π := (·.tickOf (nodeDie n.toNat))) (fun _ _ => rfl) (fun _ _ => rfl) (fun _ _ => rfl)]
  refine ⟨_, exec_flitSend hn hf hc hs, ?_, fun m ho hm => ?_, ?_, ?_, ?_, ?_, ?_⟩
  · refine sends_induct (fun t => (t.net.ports.get (n.toNat, o)).nextCycle = c.val + 1) hpos (sendOne_nextCycle hw) fun t ht => ?_
    cases h : t.winner n.toNat o c.val with
    | none => rwa [sendOne_none h]
    | some x => exact sendOne_nextCycle h
  · have hone : s1.outWidth n.toNat o = 1 := by
      cases o with
      | l | h | sx => simp at ho
      | n | e | s | w => rfl
    rw [hone, ← htick]
    exact sendOne_cross hw ho hm
  · rintro rfl
    refine sends_induct (fun t => ∃ g ∈ t.net.eject.get n.toNat, g.pkt = f.pkt ∧ g.idx = f.idx) hpos (sendOne_ejects hw) ?_
    rintro t ⟨g, hg, hgf⟩
    exact ⟨g, mem_eject_sendOne hg .., hgf⟩
  · rintro rfl
    exact sendOne_home hw
  · rintro a b rfl hl
    refine sends_induct (fun t => ∃ g ∈ (t.link.dirs.get (dirKey a b)).flight, g.pkt = f.pkt ∧ g.idx = f.idx
      ∧ g.due = s1.linkDue a b (s1.tickOf a) c.val f.pkt.tickRel) hpos (sendOne_flight hw hl) ?_
    rintro t ⟨g, hg, hgf⟩
    exact ⟨g, mem_flight_sendOne hg .., hgf⟩
  · rw [hs]
    exact flitSend_keeps (π := (·.comp)) (fun _ _ => rfl) (fun _ _ => rfl) (fun _ _ => rfl) (fun _ _ => rfl) (fun _ _ _ => rfl) ..
  · rw [hs]
    exact flitSend_keeps (π := (·.mem)) (fun _ _ => rfl) (fun _ _ => rfl) (fun _ _ => rfl) (fun _ _ => rfl) (fun _ _ _ => rfl) ..

/-- A corrected link error is counted, and a data word with an uncorrectable one poisons the packet's flit (R315). -/
theorem checkFlit_effect {s : State} {node : Nat} {o : Port} {c : Nat} {inp : Port} {f : BufFlit} (h : s.winner node o c = some (inp, f)) :
    (s.checkFlit node o c .corrected).net.linkCe.get node = s.net.linkCe.get node + 1
      ∧ ∀ g ∈ (s.checkFlit node o c .dataUe).net.bufs.get ⟨node, inp, f.pkt.vc, f.pkt.tickRel⟩,
        g.pkt.id = f.pkt.id → g.idx = f.idx → g.pkt.poison = true := by
  unfold State.checkFlit
  simp only [h, modNet_net, tbl_get_modify_same, true_and]
  intro g hg hid hidx
  obtain ⟨x, -, rfl⟩ := List.mem_map.mp hg
  by_cases hx : (x.pkt.id == f.pkt.id && x.idx == f.idx) = true
  · rw [if_pos hx]
  · rw [if_neg hx] at hid hidx
    simp [hid, hidx] at hx

/-- Settles O11: the frames of what precedes and follows a winner's leaving, one equation for each kind of output, and one for each way of
entering a router. -/
theorem flitsCross : Obligations.FlitsCross := by
  unfold Obligations.FlitsCross
  refine ⟨fun s s1 n o c e inp f hn hf hc hs hw => flitSend_effect hn hf hc hs hw, fun s n o c inp f h => checkFlit_effect h,
    fun s n p x rel hn hx hp => ?handover, fun s a b f rel hab hf => ?landing,
    fun l r p f => ⟨landed_alone, landed_joins⟩⟩
  case handover =>
    have hexec := exec_handover hn hx hp
    refine ⟨fun hs hph ho => ?_, fun hs hph ho => ?_, fun hs hph => ?_, fun i k T c hpl hc => ?_⟩
    · rw [hexec, State.handOver, enter_buffered hs hph, outsAt_modNet, if_neg (by simpa using ho)]
      rfl
    · rw [hexec, State.handOver, enter_buffered hs hph, outsAt_modNet, if_pos (by simpa using ho)]
      rfl
    · rw [hexec, State.handOver, enter_scheduled hs hph]
      rfl
    · refine ⟨_, hexec, enter_keeps (π := (·.mem)) (fun _ _ => rfl) .., enter_keeps (π := (·.comp)) (fun _ _ => rfl) .., fun q hq o hqn ho => ?_⟩
      rw [State.handOver, enter_phases]
      refine notePhase_noted hpl ?_ hq hqn ho
      exact hc
  case landing =>
    have hexec := exec_landing hab hf
    refine ⟨fun hs => ?_, fun hs hsr hph => ?_⟩
    · rw [hexec, State.landFlit, hs]
      rfl
    · rw [hexec, State.landFlit, hs]
      dsimp only
      rw [if_pos rfl, enter_scheduled hsr hph]
      rfl

end Sys2Proof.Crossing
end

section
/-! SUPPORT. Units and dies that are fenced (R516 to R522, R612): the records of units, and what a fence leaves. -/

namespace Sys2Proof.Fences

open Sys2Proof.Machine Sys2Proof.Laws Sys2Proof.Registers Sys2Proof.Spared

/-! ### One unit's record (R516, R517) -/

/-- The table of units after one is marked as fenced. -/
def marked (t : Tbl Nat UnitRec) (k : Nat) (cause : Half) : Tbl Nat UnitRec :=
  t.modify k (fun r => { r with st := .fenced, gen := (t.get k).gen + 1, cause := cause, origin := false })

theorem markFenced_base (s : State) (d u : Nat) (cause : Half) :
    base (s.markFenced d u cause) = { base s with units := marked s.ras.units (unitKey d u) cause } := by
  unfold State.markFenced
  dsimp only
  rw [notice_base, log_base]
  rfl

theorem marked_same (t : Tbl Nat UnitRec) (k : Nat) (cause : Half) :
    ((marked t k cause).get k).st = .fenced ∧ ((marked t k cause).get k).cause = cause := by simp [marked]

theorem marked_other {j k : Nat} (h : j ≠ k) (t : Tbl Nat UnitRec) (cause : Half) : (marked t k cause).get j = t.get j :=
  tbl_get_modify_other h ..

/-! ### What follows from a unit's leaving service (R518) -/

@[simp] theorem loseUnit_base (s : State) (d u : Nat) : base (s.loseUnit d u) = base s := by
  unfold State.loseUnit
  dsimp only
  split
  · refine (foldl_base (fun t c => ?_) ..).trans rfl
    rfl
  · split
    · rfl
    · split <;> rfl

@[simp] theorem unitLeaves_base (s : State) (d u : Nat) : base (s.unitLeaves d u) = base s := by
  unfold State.unitLeaves
  dsimp only
  rw [loseUnit_base]
  split
  · rw [breakLocks_base, breakScheds_base, endReqs_base]
  · rw [breakScheds_base, endReqs_base]

theorem fenceOne_base {u : Nat} (hu : u < 32) (s : State) (d : Nat) (cause : Half) (own : Request → Bool) :
    base (s.fenceOne d u cause own) = { base s with units := marked s.ras.units (unitKey d u) cause } := by
  unfold State.fenceOne
  rw [if_neg (by omega), unitLeaves_base, markFenced_base]

/-- A unit of a die other than a link and HC0, fenced where it is in service, changes no other unit's record and fences no die. -/
theorem fenceUnit_base {u : Nat} (hu : u < 32) (h28 : u ≠ 28) (s : State) (d : Nat) (cause : Half) :
    base (s.fenceUnit d u cause) = { base s with
      units := if (s.unitRec d u).st = .inService then marked s.ras.units (unitKey d u) cause else s.ras.units } := by
  unfold State.fenceUnit
  by_cases h : (s.unitRec d u).st = .inService
  · simp only [if_pos h, if_neg h28]
    rw [judgeService_base, fenceOne_base hu]
  · simp only [if_neg h]
    rfl

/-! ### A link that goes down (R358) -/

theorem checkAligned_ras (s : State) (d : Nat) : (s.checkAligned d).ras = s.ras := by
  unfold State.checkAligned
  split <;> rfl

theorem linkLost_units_dieFenced (s : State) (a b : Nat) (own : Request → Bool) :
    (s.linkLost a b own).ras.units = s.ras.units ∧ (s.linkLost a b own).ras.dieFenced = s.ras.dieFenced := by
  unfold State.linkLost
  dsimp only
  rw [checkAligned_ras, checkAligned_ras]
  refine ⟨units_of_base ?_, dieFenced_of_base ?_⟩ <;>
  · rw [foldl_base (fun _ _ => awaitFails_base ..), breakScheds_base, foldl_base (fun _ _ => endReq_base ..)]
    rfl

/-! ### A die that is fenced (R520, R521) -/

@[simp] theorem loseSteward_base (s : State) (d : Nat) : base (s.loseSteward d) = base s := by
  unfold State.loseSteward
  dsimp only
  refine (foldl_base (fun t x => ?_) ..).trans (foldl_base (fun _ _ => ringsError_base ..) ..)
  rfl

@[simp] theorem dropWaits_base (s : State) (d : Nat) : base (s.dropWaits d) = base s := foldl_base (fun _ _ => awaitFails_base ..) ..

/-- The state as the units of a die that is being fenced are still to be fenced. -/
def losing (s : State) (d : Nat) : State := ((s.log d 255 none .dieFenced d 0).wardenLog d .dieFenced d 0).loseSteward d

theorem losing_base (s : State) (d : Nat) : base (losing s d) = base s := by
  unfold losing
  rw [loseSteward_base, wardenLog_base, log_base]

/-- The units of a die are fenced one after another. -/
def unitsFenced (s : State) (d : Nat) (own : Request → Bool) : State :=
  eachOf ((List.range 35).filter (fun u => decide ((s.unitRec d u).st = .inService)))
    (fun u s => s.fenceOne d u Code.dieFenced.val (fun r => own r || (r.running && r.dies.contains d))) (losing s d)

/-- The die counts as fenced; what waits at it from other dies, and its requests, end. -/
def dieCloses (s : State) (d : Nat) : State :=
  (((s.modRas (fun r => { r with dieFenced := r.dieFenced.set d true })).dropWaits d).endReqs
    (fun r => r.dies.contains d) .unitFenced).modClk d (fun k => { k with ready := false })

theorem fenceDieBut_eq (s : State) (d : Nat) (own : Request → Bool) : s.fenceDieBut d own
    = if s.dieFencedB d then s else (dieCloses (unitsFenced s d own) d).judgeService := by
  unfold State.fenceDieBut dieCloses unitsFenced losing
  dsimp only

theorem dieCloses_ras (s : State) (d : Nat) :
    (dieCloses s d).ras.units = s.ras.units ∧ (dieCloses s d).ras.dieFenced = s.ras.dieFenced.set d true := by
  have hbase := (endReqs_base ((s.modRas (fun r => { r with dieFenced := r.dieFenced.set d true })).dropWaits d)
    (fun r => r.dies.contains d) .unitFenced).trans (dropWaits_base _ d)
  have hunits := units_of_base hbase
  have hfenced := dieFenced_of_base hbase
  exact ⟨hunits, hfenced⟩

/-- A die that was not fenced: its units are fenced, then the die. -/
theorem fenceDieBut_ras {s : State} {d : Nat} (h : s.dieFencedB d = false) (own : Request → Bool) :
    (s.fenceDieBut d own).ras.units = (unitsFenced s d own).ras.units
      ∧ (s.fenceDieBut d own).ras.dieFenced = (unitsFenced s d own).ras.dieFenced.set d true := by
  rw [fenceDieBut_eq, if_neg (by simp [h]), units_of_base (judgeService_base _), dieFenced_of_base (judgeService_base _)]
  exact dieCloses_ras ..

/-- A die that is to be fenced is fenced, whatever its state was (R520). -/
theorem fenceDie_fenced (s : State) (d : Nat) : (s.fenceDie d).dieFencedB d = true := by
  cases h : s.dieFencedB d with
  | true =>
    unfold State.fenceDie State.fenceDieBut
    rwa [if_pos h]
  | false =>
    show (s.fenceDieBut d _).ras.dieFenced.get d = true
    rw [(fenceDieBut_ras h _).2, tbl_get_set_same]

/-! ### What every fence keeps

`C` holds of the keys of the units that may be fenced: of every unit in service. -/

section
variable {P : Tbl Nat UnitRec → Prop} {C : Nat → Prop} (hC : ∀ t k, P t → (t.get k).st = .inService → C k)
  (hP : ∀ t k cause, C k → P t → P (marked t k cause))

include hP in
theorem markFenced_keeps {s : State} {d u : Nat} (hc : C (unitKey d u)) (h : P s.ras.units) (cause : Half) :
    P (s.markFenced d u cause).ras.units := by
  rw [show (s.markFenced d u cause).ras.units = _ from congrArg Base.units (markFenced_base ..)]
  exact hP _ _ _ hc h

include hC hP

theorem linkGoesDown_keeps {s : State} (h : P s.ras.units) (a b : Nat) (own : Request → Bool) : P (s.linkGoesDown a b own).ras.units := by
  unfold State.linkGoesDown
  dsimp only
  rw [(linkLost_units_dieFenced ..).1]
  refine eachOf_keeps (fun t => P t.ras.units) _ ?_ fun d hd t ht => markFenced_keeps hP ?_ ht _
  · rwa [units_of_base (log_base ..)]
  · exact hC _ _ h (of_decide_eq_true (List.mem_filter.mp hd).2)

theorem fenceOne_keeps {s : State} {d u : Nat} (hc : C (unitKey d u)) (h : P s.ras.units) (cause : Half) (own : Request → Bool) :
    P (s.fenceOne d u cause own).ras.units := by
  unfold State.fenceOne
  split
  · split
    · exact linkGoesDown_keeps hC hP h ..
    · exact markFenced_keeps hP hc h _
  · rw [units_of_base (unitLeaves_base ..)]
    exact markFenced_keeps hP hc h _

theorem fenceDie_keeps {s : State} (h : P s.ras.units) (d : Nat) : P (s.fenceDie d).ras.units := by
  cases hf : s.dieFencedB d with
  | true =>
    unfold State.fenceDie State.fenceDieBut
    rwa [if_pos hf]
  | false =>
    have hl : P (losing s d).ras.units := by rwa [units_of_base (losing_base s d)]
    show P (s.fenceDieBut d _).ras.units
    rw [(fenceDieBut_ras hf _).1]
    refine eachOf_keeps (fun t => P t.ras.units) _ hl fun u hu t ht => fenceOne_keeps hC hP ?_ ht ..
    exact hC _ _ h (of_decide_eq_true (List.mem_filter.mp hu).2)

theorem fenceUnit_keeps {s : State} (h : P s.ras.units) (d u : Nat) (cause : Half) : P (s.fenceUnit d u cause).ras.units := by
  unfold State.fenceUnit
  split
  · next hs =>
    have h1 : P (s.fenceOne d u cause).ras.units := fenceOne_keeps hC hP (hC _ _ h hs) h ..
    dsimp only
    split
    · exact fenceDie_keeps hC hP h1 d
    · rwa [units_of_base (judgeService_base _)]
  · exact h

end

/-! ### Units out of service, and units that are fenced -/

section
variable {s : State} {e x : Nat} (h : (s.unitRec e x).st ≠ .inService)
include h

/-- A fence leaves the record of a unit that is not in service (R517). -/
theorem fenceDie_unitRec_out (d : Nat) : (s.fenceDie d).unitRec e x = s.unitRec e x :=
  fenceDie_keeps (P := fun t => t.get (unitKey e x) = s.unitRec e x) (C := (· ≠ unitKey e x))
    (fun t k ht hk hkx => h (by rw [← ht, ← hkx]; exact hk)) (fun t k _ hk ht => (marked_other (Ne.symm hk) ..).trans ht) rfl d

theorem fenceUnit_unitRec_out (d u : Nat) (cause : Half) : (s.fenceUnit d u cause).unitRec e x = s.unitRec e x :=
  fenceUnit_keeps (P := fun t => t.get (unitKey e x) = s.unitRec e x) (C := (· ≠ unitKey e x))
    (fun t k ht hk hkx => h (by rw [← ht, ← hkx]; exact hk)) (fun t k _ hk ht => (marked_other (Ne.symm hk) ..).trans ht) rfl d u cause

end

/-- Whether a unit serves, or is fenced. -/
def servesOrFenced (r : UnitRec) : Prop := r.st = .inService ∨ r.st = .fenced

theorem fenceUnit_servesOrFenced {s : State} {e x : Nat} (h : servesOrFenced (s.unitRec e x)) (d u : Nat) (cause : Half) :
    servesOrFenced ((s.fenceUnit d u cause).unitRec e x) :=
  fenceUnit_keeps (P := fun t => servesOrFenced (t.get (unitKey e x))) (C := fun _ => True) (fun _ _ _ _ => trivial)
    (fun t k c _ ht => by
      by_cases hk : unitKey e x = k
      · subst hk; exact .inr (marked_same ..).1
      · rwa [marked_other hk]) h d u cause

/-- A unit in service below the links is fenced with the cause that is given (R517), also where its die is fenced with it (R518). -/
theorem fenceUnit_fenced {s : State} {d u : Nat} (hu : u < 32) (h : (s.unitRec d u).st = .inService) (cause : Half) :
    ((s.fenceUnit d u cause).unitRec d u).st = .fenced ∧ ((s.fenceUnit d u cause).unitRec d u).cause = cause := by
  have h1 : (s.fenceOne d u cause).unitRec d u = (marked s.ras.units (unitKey d u) cause).get (unitKey d u) := by
    show (base (s.fenceOne d u cause)).units.get _ = _
    rw [fenceOne_base hu]
  have hm := marked_same s.ras.units (unitKey d u) cause
  have hout : ((s.fenceOne d u cause).unitRec d u).st ≠ .inService := by rw [h1, hm.1]; decide
  have hrec : (s.fenceUnit d u cause).unitRec d u = (s.fenceOne d u cause).unitRec d u := by
    unfold State.fenceUnit
    rw [if_pos h]
    dsimp only
    split
    · exact fenceDie_unitRec_out hout d
    · exact unitRec_of_base (judgeService_base _) ..
  rw [hrec, h1]
  exact hm

/-- A fenced HC0 fences its die (R518). -/
theorem fenceUnit_hc0 {s : State} {d : Nat} (h : (s.unitRec d 28).st = .inService) (cause : Half) :
    (s.fenceUnit d 28 cause).dieFencedB d = true := by
  unfold State.fenceUnit
  rw [if_pos h]
  exact fenceDie_fenced ..

end Sys2Proof.Fences
end

section
/-! SUPPORT. The first steps of a die's bring-up (R39, R225, R533, R539, R595, R597). -/

namespace Sys2Proof.BringUp

open Sys2Proof.Machine Sys2Proof.Laws Sys2Proof.Registers Sys2Proof.Spared Sys2Proof.Fences

/-! ### A step of a die -/

/-- A die as its step begins (R605). -/
def begun (s : State) (d n : Nat) : State := s.modClk d (fun k => { k with step := n, stepAge := 0 })

theorem bringStep_due {s : State} {d n : Nat} (h : s.stepDue d n = true) (f : State → State) :
    s.bringStep d n f = .next (f (begun s d n)).nextReset := by
  unfold State.bringStep
  rw [h]
  rfl

theorem bringStep_idle {s : State} {d n : Nat} (h : s.stepDue d n = false) (f : State → State) : s.bringStep d n f = .next s := by
  unfold State.bringStep
  rw [h]
  rfl

/-- A die whose step is due is not fenced. -/
theorem not_fenced_of_stepDue {s : State} {d n : Nat} (h : s.stepDue d n = true) : s.dieFencedB d = false := by
  simp only [State.stepDue, Bool.and_eq_true, Bool.not_eq_true'] at h
  exact h.1.1.2

theorem begun_not_fenced {s : State} {d n : Nat} (h : s.stepDue d n = true) : (begun s d n).dieFencedB d = false := by
  show s.dieFencedB d = false
  exact not_fenced_of_stepDue h

theorem begun_clk (s : State) (d n : Nat) : (begun s d n).sys.clk.get d = { s.sys.clk.get d with step := n, stepAge := 0 } :=
  tbl_get_modify_same ..

/-- A key written twice holds the last value. -/
theorem tbl_set_set {K V : Type} [DecidableEq K] (t : Tbl K V) (k : K) (v w : V) : (t.set k v).set k w = t.set k w := by
  have h : ∀ es : List (K × V), putEntry k w (putEntry k v es) = putEntry k w es := fun es => by
    induction es with
    | nil => simp [putEntry]
    | cons e es ih =>
      by_cases he : e.1 = k
      · simp [putEntry, he]
      · simp [putEntry, he, ih]
  simp [Tbl.set, h]

theorem tbl_modify_modify {K V : Type} [DecidableEq K] (t : Tbl K V) (k : K) (f g : V → V) :
    (t.modify k f).modify k g = t.modify k (fun v => g (f v)) := by
  simp only [Tbl.modify, tbl_get_set_same, tbl_set_set]

theorem modClk_modClk (s : State) (d : Nat) (f g : DieClk → DieClk) : (s.modClk d f).modClk d g = s.modClk d (fun k => g (f k)) := by
  unfold State.modClk
  dsimp only
  rw [tbl_modify_modify]

theorem unitKey_inj (d : Nat) {u x : Nat} : unitKey d u = unitKey d x ↔ u = x := by unfold unitKey; omega

/-! ### D1 (R3, R533, R630) -/

theorem eachOf_fused (d : Nat) (l : List Nat) (s : State) (i : Nat) :
    ((eachOf l (fun i s => s.modUnit d i (fun r => { r with st := .fused })) s).unitRec d i).st
      = if i ∈ l then .fused else (s.unitRec d i).st := by
  induction l generalizing s with
  | nil => simp
  | cons x l ih =>
    rw [eachOf_cons, ih]
    have hx : ((s.modUnit d x (fun r => { r with st := .fused })).unitRec d i).st = if i = x then .fused else (s.unitRec d i).st := by
      show ((s.ras.units.modify (unitKey d x) _).get (unitKey d i)).st = _
      by_cases h : i = x
      · subst h; simp
      · rw [tbl_get_modify_other (fun e => h ((unitKey_inj d).mp e)), if_neg h]; rfl
    rw [hx]
    by_cases h : i = x <;> simp [h]

theorem loadFuses_st {i : Nat} (hi : i < 16) (s : State) (d : Nat) :
    ((s.loadFuses d).unitRec d i).st = if s.scFused d i then .fused else (s.unitRec d i).st := by
  unfold State.loadFuses
  rw [eachOf_fused]
  simp [hi]

theorem loadFuses_keeps {A : Type} {π : State → A} (hras : ∀ s f, π (State.modRas s f) = π s) (s : State) (d : Nat) :
    π (s.loadFuses d) = π s := eachOf_keeps_of π (fun _ _ => hras ..) ..

theorem exec_d1_due {s : State} {d : DieId} (h : s.stepDue d.val 1 = true) (ok : Bool) :
    exec (.d1 d ok) s = .next (if ok then
      ((begun s d.val 1).loadFuses d.val).modSec d.val (fun c => { c with keyOk := ((begun s d.val 1).loadFuses d.val).udsOk d.val })
      else (begun s d.val 1).fenceDie d.val).nextReset := by
  show execD1 d ok s = _
  unfold execD1
  exact bringStep_due h _

/-! ### D2 (R39, R523) -/

/-- A die that has locked to the Pulse: TICK is 0, and the heartbeat's bound is counted from here. -/
def pulseLocked (s : State) (d : Nat) : State :=
  (s.modClk d (fun k => { k with locked := true, tick := 0, wraps := 0 })).modRas (fun r => { r with heartbeat := r.heartbeat.set d 0 })

theorem exec_d2_due {s : State} {d : DieId} (h : s.stepDue d.val 2 = true) (locked : Bool) :
    exec (.d2 d locked) s = .next (if locked && s.sys.warden.pulse then pulseLocked (begun s d.val 2) d.val
      else ((begun s d.val 2).log d.val 255 none .pulseLost 0 0).fenceDie d.val).nextReset := by
  show execD2 d locked s = _
  unfold execD2
  exact bringStep_due h _

/-! ### D3 and D5: the stacks (R518, R595) -/

theorem exec_d3_due {s : State} {d : DieId} (h : s.stepDue d.val 3 = true) (ok : Bool) :
    exec (.d3 d ok) s = .next ((begun s d.val 3).trainStack d.val 0 ok).nextReset := by
  show execD3 d ok s = _
  unfold execD3
  exact bringStep_due h _

theorem exec_d5_due {s : State} {d : DieId} (h : s.stepDue d.val 5 = true) (a b c : Bool) :
    exec (.d5 d a b c) s
      = .next ((((begun s d.val 5).trainStack d.val 1 a).trainStack d.val 2 b).trainStack d.val 3 c).nextReset := by
  show execD5 d a b c s = _
  unfold execD5
  exact bringStep_due h _

theorem trainStack_true (s : State) (d i : Nat) : s.trainStack d i true = s.modClk d (fun k => { k with trained := k.trained ++ [i] }) := rfl

theorem trainStack_false (s : State) (d i : Nat) : s.trainStack d i false = s.fenceUnit d (28 + i) Code.hbmTrainFail.val := rfl

section
variable {i : Nat} (h0 : 0 < i) (h4 : i < 4)
include h0 h4

/-- A stack other than stack 0 that does not train fences its HC, and no die. -/
theorem trainStack_dieFencedB (s : State) (d e : Nat) (ok : Bool) : (s.trainStack d i ok).dieFencedB e = s.dieFencedB e := by
  cases ok with
  | true => rfl
  | false =>
    show (base (s.fenceUnit d (28 + i) _)).dieFenced.get e = _
    rw [fenceUnit_base (by omega) (by omega)]
    rfl

theorem trainStack_unitRec_other {u : Nat} (hu : u ≠ 28 + i) (s : State) (d : Nat) (ok : Bool) :
    (s.trainStack d i ok).unitRec d u = s.unitRec d u := by
  cases ok with
  | true => rfl
  | false =>
    show (base (s.fenceUnit d (28 + i) _)).units.get _ = _
    rw [fenceUnit_base (by omega) (by omega)]
    dsimp only
    split
    · exact marked_other (fun e => hu ((unitKey_inj d).mp e)) ..
    · rfl

end

theorem trainStack_unitRec_own {i : Nat} (h4 : i < 4) {s : State} {d : Nat} (h : (s.unitRec d (28 + i)).st = .inService) (ok : Bool) :
    ((s.trainStack d i ok).unitRec d (28 + i)).st = (if ok then .inService else .fenced)
      ∧ (ok = false → ((s.trainStack d i ok).unitRec d (28 + i)).cause = Code.hbmTrainFail.val) := by
  cases ok with
  | true => exact ⟨h, by simp⟩
  | false =>
    obtain ⟨hst, hcause⟩ := fenceUnit_fenced (show 28 + i < 32 by omega) h Code.hbmTrainFail.val
    exact ⟨hst, fun _ => hcause⟩

/-- What training HC1 to HC3 leaves of each of them (R595). -/
theorem d5_stacks (s : State) (d : Nat) (a b c : Bool) {i : Nat} {ok : Bool} (hi : (i, ok) ∈ [(1, a), (2, b), (3, c)])
    (h : (s.unitRec d (28 + i)).st = .inService) :
    let p := ((s.trainStack d 1 a).trainStack d 2 b).trainStack d 3 c
    (p.unitRec d (28 + i)).st = (if ok then .inService else .fenced)
      ∧ (ok = false → (p.unitRec d (28 + i)).cause = Code.hbmTrainFail.val) := by
  intro p
  have h1 {u : Nat} (hu : u ≠ 29) := trainStack_unitRec_other (i := 1) (by decide) (by decide) hu s d a
  have h2 {u : Nat} (hu : u ≠ 30) := trainStack_unitRec_other (i := 2) (by decide) (by decide) hu (s.trainStack d 1 a) d b
  have h3 {u : Nat} (hu : u ≠ 31) := trainStack_unitRec_other (i := 3) (by decide) (by decide) hu ((s.trainStack d 1 a).trainStack d 2 b) d c
  simp only [List.mem_cons, Prod.mk.injEq, List.not_mem_nil, or_false] at hi
  obtain ⟨rfl, rfl⟩ | ⟨rfl, rfl⟩ | ⟨rfl, rfl⟩ := hi
  · rw [h3 (by decide), h2 (by decide)]
    exact trainStack_unitRec_own (by decide) h ok
  · rw [h3 (by decide)]
    exact trainStack_unitRec_own (by decide) (by rwa [h1 (by decide)]) ok
  · exact trainStack_unitRec_own (by decide) (by rwa [h2 (by decide), h1 (by decide)]) ok

end Sys2Proof.BringUp
end

section
/-! SUPPORT. The later of the first steps of a die's bring-up: images (R225, R539, R550, R595), unit tests and Spindles (R104, R118, R597). -/

namespace Sys2Proof.BringUp

open Sys2Proof.Machine Sys2Proof.Laws Sys2Proof.Registers Sys2Proof.Spared Sys2Proof.Fences

/-! ### D4: the image in system memory (R225, R636) -/

/-- A run of bytes that the tray writes where addresses stand for themselves. -/
theorem readCell_put {m : Mem} (h : m.wf = true) (a : Nat) (bs : List Byte) (hn : ∀ j, j < bs.length → normAddr (a + j) = a + j) (x : Nat) :
    readCell (m.put a bs).cells x = if a ≤ x ∧ x < a + bs.length then bs.getD (x - a) 0 else readCell m.cells x := by
  induction bs generalizing m a with
  | nil => rw [if_neg (by simp)]; rfl
  | cons b bs ih =>
    have hnext : ∀ j, j < bs.length → normAddr (a + 1 + j) = a + 1 + j := fun j hj => by
      have := hn (j + 1) (by simpa using hj)
      rwa [show a + 1 + j = a + (j + 1) by omega]
    have hfirst : normAddr a = a := hn 0 (by simp)
    have hset : readCell (m.setByte a b).cells x = if x = a then b else readCell m.cells x := by
      show readCell (writeCell m.cells (normAddr a) b) x = _
      rw [hfirst]
      exact readCell_writeCell h ..
    rw [Mem.put, ih (setByte_wf h a b) (a + 1) hnext, hset]
    by_cases hx : x = a
    · subst hx
      rw [if_neg (by omega), if_pos rfl, if_pos (by simp)]
      simp
    · rw [if_neg hx, List.length_cons]
      by_cases hin : a + 1 ≤ x ∧ x < a + 1 + bs.length
      · rw [if_pos hin, if_pos (by omega), show x - a = (x - (a + 1)) + 1 by omega]
        rfl
      · rw [if_neg hin, if_neg (by omega)]

/-- The address of a byte of a stack is its own (R224). -/
theorem normAddr_stack {a : Nat} (h : a < 0x8000000000) (h' : a % 0x800000000 < 0x600000000) : normAddr a = a := by
  have hp : placeOf a = .hbm (a / 0x800000000) (a % 0x800000000) := by
    unfold placeOf
    rw [if_pos h, if_pos h']
  unfold normAddr
  simp only [hp, Place.addr]
  omega

/-- Steward's part of a die's system memory lies in one stack (R225, R636). -/
theorem normAddr_image (d : DieId) {j : Nat} (hj : j < 0x7E00000) :
    normAddr (sysBase d.val + 0x18000000 + j) = sysBase d.val + 0x18000000 + j := by
  have hd := d.isLt
  have hbase : sysBase d.val = 4 * d.val * 0x800000000 + 0x5E0000000 := rfl
  exact normAddr_stack (by omega) (by omega)

/-- The bytes of an image as a die runs it (R583, R595). -/
def imageBytes (s : State) (k : ImageKind) (copy : Nat) : List Byte := (s.sys.warden.images.get (imageKey k copy)).take 0x7E00000

theorem pokeMem_cells (s : State) (a : Nat) (bs : List Byte) :
    (s.pokeMem a bs).mem.mem.cells = ((s.mem.cleanWords (wordsOf a bs.length)).mem.put a bs).cells := rfl

theorem placeImage_eq (s : State) (d : Nat) (k : ImageKind) (img : RunImage) :
    s.placeImage d k img = s.pokeMem (sysBase d + 0x18000000) (imageBytes s k img.copy) := by
  unfold State.placeImage imageBytes
  rfl

theorem placeImage_cells {s : State} (h : s.mem.mem.wf = true) (d : DieId) (k : ImageKind) (img : RunImage) (x : Nat) :
    readCell (s.placeImage d.val k img).mem.mem.cells x
      = if sysBase d.val + 0x18000000 ≤ x ∧ x < sysBase d.val + 0x18000000 + (imageBytes s k img.copy).length
        then (imageBytes s k img.copy).getD (x - (sysBase d.val + 0x18000000)) 0 else readCell s.mem.mem.cells x := by
  have hlen : (imageBytes s k img.copy).length ≤ 0x7E00000 := List.length_take_le ..
  have hclean : ∀ ws, (s.mem.cleanWords ws).mem.wf = true := fun _ => h
  rw [placeImage_eq, pokeMem_cells]
  exact readCell_put (hclean _) _ _ (fun j hj => normAddr_image d (Nat.lt_of_lt_of_le hj hlen)) x

/-- What an image's acceptance reads is Warden's and in the fuses (R539). -/
theorem bootImage_congr {s t : State} (hw : t.sys.warden = s.sys.warden) (hf : t.sys.fuses = s.sys.fuses) (d : Nat) (k : ImageKind) :
    t.bootImage d k = s.bootImage d k := by
  unfold State.bootImage State.imageOk State.imageSigned
  rw [hw, hf]

/-- The state as the ROM has taken Steward: its bytes are placed, and Steward has learnt the life-cycle state (R550). -/
def stewardTaken (s : State) (d : Nat) (img : RunImage) : State :=
  (s.placeImage d .steward img).modSec d (fun c => { c with
    steward := some img, lc := some s.sys.warden.lc, slotsUsed := s.sys.warden.slotsUsed.length
    torn := s.sys.warden.readJournal.2.2.length })

/-- The effect of D4 on a die as its step begins. -/
def takeImages (s : State) (d : Nat) : State :=
  match s.bootImage d .steward with
  | none => s.noImage d true
  | some img =>
    match (stewardTaken s d img).bootImage d .runtime with
    | none => (stewardTaken s d img).noImage d false
    | some rt => (stewardTaken s d img).modSec d (fun c => { c with runtime := some rt })

theorem exec_d4_due {s : State} {d : DieId} (h : s.stepDue d.val 4 = true) (hw : s.sys.warden.running = true) :
    exec (.d4 d) s = .next (takeImages (begun s d.val 4) d.val).nextReset := by
  show execD4 d s = _
  unfold execD4
  rw [if_neg (by simp [hw])]
  exact bringStep_due h _

theorem takeImages_both {s : State} {d : Nat} {a b : RunImage} (ha : s.bootImage d .steward = some a) (hb : s.bootImage d .runtime = some b) :
    takeImages s d = (stewardTaken s d a).modSec d (fun c => { c with runtime := some b }) := by
  have hb' : (stewardTaken s d a).bootImage d .runtime = some b := (bootImage_congr rfl rfl ..).trans hb
  unfold takeImages
  simp only [ha, hb']

/-- What the security engine of a die holds of the images it has taken, and of the life cycle (R550). -/
theorem imagesTaken_sec (s : State) (d : Nat) (a b : RunImage) :
    let c := ((stewardTaken s d a).modSec d (fun c => { c with runtime := some b })).sys.sec.get d
    c.steward = some a ∧ c.runtime = some b ∧ c.lc = some s.sys.warden.lc := by simp [stewardTaken]

/-- Without one of its images a die is fenced (R539). -/
theorem takeImages_none {s : State} {d : Nat} (h : s.bootImage d .steward = none ∨ s.bootImage d .runtime = none) :
    (takeImages s d).dieFencedB d = true := by
  unfold takeImages
  cases ha : s.bootImage d .steward with
  | none => exact fenceDie_fenced ..
  | some a =>
    have hb : (stewardTaken s d a).bootImage d .runtime = none :=
      (bootImage_congr rfl rfl ..).trans (h.resolve_left (by simp [ha]))
    simp only [hb]
    exact fenceDie_fenced ..

end Sys2Proof.BringUp
end

section
/-! SUPPORT. The unit tests of a die's bring-up and the start of its Spindles (R104, R118, R536, R597); the statement on D1 to D6. -/

namespace Sys2Proof.BringUp

open Sys2Proof.Machine Sys2Proof.Laws Sys2Proof.Registers Sys2Proof.Spared Sys2Proof.Fences

/-! ### D6: units that fail their tests (R118, R597) -/

/-- What holds until the turn of an element, which brings about what every turn then keeps. -/
theorem eachOf_reaches {A : Type} {f : A → State → State} (Q R : State → Prop) {l : List A} {x : A} (hx : x ∈ l)
    (hQ : ∀ y t, Q t → Q (f y t)) (hR : ∀ y t, R t → R (f y t)) (hturn : ∀ t, Q t → R (f x t)) {s : State} (hs : Q s) :
    R (eachOf l f s) := by
  induction l generalizing s with
  | nil => simp at hx
  | cons y l ih =>
    rw [eachOf_cons]
    rcases List.mem_cons.mp hx with rfl | hx
    · exact eachOf_keeps R l (hturn s hs) fun z _ t => hR z t
    · exact ih hx (hQ y s hs)

theorem katFails_eq (s : State) (d u : Nat) : s.katFails d u
    = if (s.unitRec d u).st = .inService then
        (s.log d (unitNode d u) none .zcgKatFail 0 0).fenceUnit d u Code.zcgKatFail.val else s := rfl

/-- The record of a unit whose vectors fail is its own affair. -/
theorem katFails_base (s : State) (d : Nat) (u : Fin 16) : base (s.katFails d u.val) = { base s with
    units := if (s.unitRec d u.val).st = .inService then marked s.ras.units (unitKey d u.val) Code.zcgKatFail.val else s.ras.units } := by
  rw [katFails_eq]
  by_cases h : (s.unitRec d u.val).st = .inService
  · have hu := u.isLt
    rw [if_pos h, fenceUnit_base (by omega) (by omega), log_base, unitRec_of_base (log_base ..), units_of_base (log_base ..)]
  · rw [if_neg h, if_neg h]
    rfl

theorem katFails_unitRec_other {d x : Nat} {u : Fin 16} (h : x ≠ u.val) (s : State) : (s.katFails d u.val).unitRec d x = s.unitRec d x := by
  show (base (s.katFails d u.val)).units.get _ = _
  rw [katFails_base]
  dsimp only
  split
  · exact marked_other (fun e => h ((unitKey_inj d).mp e)) ..
  · rfl

theorem katFails_fenced {s : State} {d : Nat} {u : Fin 16} (h : (s.unitRec d u.val).st = .inService) :
    ((s.katFails d u.val).unitRec d u.val).st = .fenced ∧ ((s.katFails d u.val).unitRec d u.val).cause = Code.zcgKatFail.val := by
  have hrec : (s.katFails d u.val).unitRec d u.val = (base (s.katFails d u.val)).units.get (unitKey d u.val) := rfl
  rw [hrec, katFails_base, if_pos h]
  exact marked_same ..

theorem katFails_servesOrFenced {s : State} {e x : Nat} (h : servesOrFenced (s.unitRec e x)) (d u : Nat) :
    servesOrFenced ((s.katFails d u).unitRec e x) := by
  rw [katFails_eq]
  split
  · exact fenceUnit_servesOrFenced (by rwa [unitRec_of_base (log_base ..)]) ..
  · exact h

/-- Every SC whose vectors fail is fenced, then every other unit that fails its test. -/
def tested (s : State) (d : Nat) (failed : List UnitNo) (kat : List (Fin 16)) : State :=
  eachOf (failed.filter (fun u => decide (u.val < 32))) (fun u s => s.fenceUnit d u.val Code.unitInternal.val)
    (eachOf kat (fun u s => s.katFails d u.val) s)

theorem tested_kat {s : State} {d : Nat} {failed : List UnitNo} {kat : List (Fin 16)} {u : Fin 16} (hu : u ∈ kat)
    (h : (s.unitRec d u.val).st = .inService) :
    ((tested s d failed kat).unitRec d u.val).st = .fenced ∧ ((tested s d failed kat).unitRec d u.val).cause = Code.zcgKatFail.val := by
  let R (t : State) : Prop := (t.unitRec d u.val).st = .fenced ∧ (t.unitRec d u.val).cause = Code.zcgKatFail.val
  have hout : ∀ t, R t → (t.unitRec d u.val).st ≠ .inService := fun t ht => by rw [ht.1]; decide
  have hkeep : ∀ (y : Fin 16) t, R t → R (t.katFails d y.val) := fun y t ht => by
    by_cases hy : u.val = y.val
    · rw [← hy, katFails_eq, if_neg (hout t ht)]; exact ht
    · show _ ∧ _
      rw [katFails_unitRec_other hy]; exact ht
  have hkat : R (eachOf kat (fun u s => s.katFails d u.val) s) := by
    refine eachOf_reaches (fun t => (t.unitRec d u.val).st = .inService ∨ R t) R hu (fun y t ht => ?_) hkeep (fun t ht => ?_) (.inl h)
    · refine ht.elim (fun ht => ?_) fun ht => .inr (hkeep y t ht)
      by_cases hy : u = y
      · exact .inr (hy ▸ katFails_fenced ht)
      · exact .inl (by rwa [katFails_unitRec_other (fun e => hy (Fin.ext e))])
    · exact ht.elim katFails_fenced (hkeep u t)
  refine eachOf_keeps R _ hkat fun y _ t ht => ?_
  show _ ∧ _
  rw [fenceUnit_unitRec_out (hout t ht)]
  exact ht

theorem tested_failed {s : State} {d : Nat} {failed : List UnitNo} {kat : List (Fin 16)} {u : UnitNo} (hu : u ∈ failed) (hlt : u.val < 32)
    (h : (s.unitRec d u.val).st = .inService) : ((tested s d failed kat).unitRec d u.val).st = .fenced := by
  have hkat : servesOrFenced ((eachOf kat (fun u s => State.katFails s d u.val) s).unitRec d u.val) :=
    eachOf_keeps (fun t => servesOrFenced (t.unitRec d u.val)) kat (.inl h) fun y _ t ht => katFails_servesOrFenced ht ..
  have hkeep : ∀ (y : UnitNo) t, (State.unitRec t d u.val).st = .fenced →
      ((t.fenceUnit d y.val Code.unitInternal.val).unitRec d u.val).st = .fenced := fun y t ht => by
    rwa [fenceUnit_unitRec_out (by rw [ht]; decide)]
  exact eachOf_reaches (fun t => servesOrFenced (t.unitRec d u.val)) (fun t => (t.unitRec d u.val).st = .fenced)
    (List.mem_filter.mpr ⟨hu, decide_eq_true hlt⟩) (fun y t ht => fenceUnit_servesOrFenced ht ..) hkeep
    (fun t ht => ht.elim (fun ht => (fenceUnit_fenced hlt ht _).1) (hkeep u t)) hkat

section
variable {failed : List UnitNo} (h28 : ∀ u ∈ failed, u.val ≠ 28)
include h28

/-- Tests that HC0 passes change records of units, and neither clocks, registers, fuses nor Spindles; no die is fenced. -/
theorem tested_base (s : State) (d : Nat) (kat : List (Fin 16)) : ∃ w, base (tested s d failed kat) = { base s with units := w } := by
  refine eachOf_keeps (fun t => ∃ w, base t = { base s with units := w }) _ ?_ ?_
  · refine eachOf_keeps (fun t => ∃ w, base t = { base s with units := w }) kat ⟨_, rfl⟩ ?_
    rintro u - t ⟨w, ht⟩
    exact ⟨_, (katFails_base t d u).trans (by rw [ht])⟩
  · rintro u hu t ⟨w, ht⟩
    obtain ⟨hf, hlt⟩ := List.mem_filter.mp hu
    exact ⟨_, (fenceUnit_base (of_decide_eq_true hlt) (h28 u hf) t d _).trans (by rw [ht])⟩

theorem tested_unitRec_other {u : Nat} (hf : ∀ x ∈ failed, x.val ≠ u) {kat : List (Fin 16)} (hk : ∀ x ∈ kat, x.val ≠ u) (s : State) (d : Nat) :
    (tested s d failed kat).unitRec d u = s.unitRec d u := by
  refine eachOf_keeps (fun t => t.unitRec d u = s.unitRec d u) _ ?_ fun x hx t ht => ?_
  · exact eachOf_keeps (fun t => t.unitRec d u = s.unitRec d u) kat rfl fun x hx t ht =>
      (katFails_unitRec_other (Ne.symm (hk x hx)) t).trans ht
  · obtain ⟨hx, hlt⟩ := List.mem_filter.mp hx
    refine Eq.trans ?_ ht
    show (base (t.fenceUnit d x.val _)).units.get _ = _
    rw [fenceUnit_base (of_decide_eq_true hlt) (h28 x hx)]
    dsimp only
    split
    · exact marked_other (fun e => hf x hx ((unitKey_inj d).mp e).symm) ..
    · rfl

end

/-! ### D6: Spindles (R104, R108, R536) -/

/-- One Spindle of a die starts, where it is enabled and off (R104). -/
def startSpindle (d : Nat) (south : Bool) (s : State) : State :=
  if bitOf (s.appWord ⟨.secSpindlectl, d, b2n south, 0⟩) 0 && decide ((s.comp.spindles.get (spindleKey d south)).st = .off) then
    s.modSpindle (spindleKey d south) (·.start)
  else s

theorem startSpindles_eq (s : State) (d : Nat) : s.startSpindles d = startSpindle d true (startSpindle d false s) := rfl

section
variable {A : Type} {π : State → A} (hcomp : ∀ s f, π (State.modComp s f) = π s)
include hcomp

theorem startSpindle_keeps (d : Nat) (south : Bool) (s : State) : π (startSpindle d south s) = π s := by
  unfold startSpindle State.modSpindle
  split
  · exact hcomp ..
  · rfl

theorem draw_keeps (s : State) (d n : Nat) : π (s.draw d n).2 = π s := by
  unfold State.draw
  dsimp only
  split
  · rfl
  · split
    · rfl
    · exact eachOf_keeps_of π (f := fun k s => s.modSpindle k (fun p => { p with pool := p.pool.drop n })) (fun _ _ => hcomp ..) ..

theorem seedDrbg_keeps (hsec : ∀ s d f, π (State.modSec s d f) = π s) (s : State) (d : Nat) : π (s.seedDrbg d) = π s := by
  unfold State.seedDrbg
  split
  · next hd => rw [hsec, ← draw_keeps hcomp s d 48, hd]
  · rfl

end

theorem startSpindle_other {d : Nat} {south : Bool} {k : Nat} (h : k ≠ spindleKey d south) (s : State) :
    (startSpindle d south s).comp.spindles.get k = s.comp.spindles.get k := by
  unfold startSpindle
  split
  · exact tbl_get_modify_other h ..
  · rfl

/-- A Spindle that is enabled and off starts up. -/
theorem startSpindle_starts {s : State} {d : Nat} {south : Bool} (hen : s.appF .secSpindlectl d (b2n south) 0 0 0 = 1)
    (hoff : (s.comp.spindles.get (spindleKey d south)).st = .off) :
    ((startSpindle d south s).comp.spindles.get (spindleKey d south)).st = .startup := by
  have hbit : bitOf (s.appWord ⟨.secSpindlectl, d, b2n south, 0⟩) 0 = true := by
    simpa [State.appF, bitsOf, bitOf, Nat.testBit_zero] using hen
  unfold startSpindle
  rw [hbit, hoff]
  simp [Spindle.start]

theorem startSpindles_starts {s : State} {d : Nat} {south : Bool} (hen : s.appF .secSpindlectl d (b2n south) 0 0 0 = 1)
    (hoff : (s.comp.spindles.get (spindleKey d south)).st = .off) :
    ((s.startSpindles d).comp.spindles.get (spindleKey d south)).st = .startup := by
  have hkeys : spindleKey d true ≠ spindleKey d false := by simp [spindleKey, b2n]
  rw [startSpindles_eq]
  cases south with
  | false => rw [startSpindle_other hkeys.symm]; exact startSpindle_starts hen hoff
  | true =>
    refine startSpindle_starts ?_ (by rwa [startSpindle_other hkeys])
    rwa [startSpindle_keeps (π := fun s => s.appF .secSpindlectl d (b2n true) 0 0 0) (fun _ _ => rfl)]

/-- A draw takes bytes and leaves the Spindles' states (R108). -/
theorem draw_spindle_st (s : State) (d n k : Nat) : ((s.draw d n).2.comp.spindles.get k).st = (s.comp.spindles.get k).st := by
  unfold State.draw
  dsimp only
  split
  · rfl
  · split
    · rfl
    · refine eachOf_keeps_of (fun s => (s.comp.spindles.get k).st)
        (f := fun k s => s.modSpindle k (fun p => { p with pool := p.pool.drop n })) (fun j t => ?_) ..
      rw [modSpindle_spindles, tbl_get_modify]
      split
      · next h => rw [h]
      · rfl

theorem seedDrbg_spindle_st (s : State) (d k : Nat) : ((s.seedDrbg d).comp.spindles.get k).st = (s.comp.spindles.get k).st := by
  unfold State.seedDrbg
  split
  · next hd => rw [modSec_comp, ← draw_spindle_st s d 48, hd]
  · rfl

/-- The end of D6 on a die that its tests leave in service. -/
def spindlesOn (s : State) (d : Nat) : State := if s.dieFencedB d then s else (s.startSpindles d).seedDrbg d

theorem spindlesOn_keeps {A : Type} {π : State → A} (hcomp : ∀ s f, π (State.modComp s f) = π s)
    (hsec : ∀ s d f, π (State.modSec s d f) = π s) (s : State) (d : Nat) : π (spindlesOn s d) = π s := by
  unfold spindlesOn
  split
  · rfl
  · rw [seedDrbg_keeps hcomp hsec, startSpindles_eq, startSpindle_keeps hcomp, startSpindle_keeps hcomp]

theorem exec_d6_due {s : State} {d : DieId} (h : s.stepDue d.val 6 = true) (failed : List UnitNo) (kat : List (Fin 16)) :
    exec (.d6 d failed kat true) s = .next (spindlesOn (tested (begun s d.val 6) d.val failed kat) d.val).nextReset
      ∧ exec (.d6 d failed kat false) s = .next ((begun s d.val 6).fenceDie d.val).nextReset := by
  constructor
  · show execD6 d failed kat true s = _
    unfold execD6
    exact bringStep_due h _
  · show execD6 d failed kat false s = _
    unfold execD6
    exact bringStep_due h _

/-- What the tests and the Spindles' start leave of a die whose HC0 passes. -/
theorem d6_passes {s : State} {d : Nat} {failed : List UnitNo} (h28 : ∀ u ∈ failed, u.val ≠ 28) (hf : s.dieFencedB d = false)
    (kat : List (Fin 16)) :
    let t := spindlesOn (tested s d failed kat) d
    (t.sys.clk.get d).step = (s.sys.clk.get d).step ∧ t.dieFencedB d = false
      ∧ (∀ u, (∀ x ∈ failed, x.val ≠ u) → (∀ x ∈ kat, x.val ≠ u) → t.unitRec d u = s.unitRec d u)
      ∧ ∀ south, s.appF .secSpindlectl d (b2n south) 0 0 0 = 1 → (s.comp.spindles.get (spindleKey d south)).st = .off →
          (t.comp.spindles.get (spindleKey d south)).st = .startup := by
  intro t
  obtain ⟨w, hw⟩ := tested_base h28 s d kat
  have hclk : (tested s d failed kat).sys.clk = s.sys.clk := congrArg Base.clk hw
  have hregs : (tested s d failed kat).sys.regs = s.sys.regs := congrArg Base.regs hw
  have hfenced : (tested s d failed kat).dieFencedB d = false := (congrArg (fun b => b.dieFenced.get d) hw).trans hf
  have hspindles : (tested s d failed kat).comp.spindles = s.comp.spindles := congrArg Base.spindles hw
  refine ⟨?_, ?_, fun u hu hk => ?_, fun south hen hoff => ?_⟩
  · rw [spindlesOn_keeps (π := (·.sys.clk)) (fun _ _ => rfl) (fun _ _ _ => rfl), hclk]
  · rw [spindlesOn_keeps (π := (·.dieFencedB d)) (fun _ _ => rfl) (fun _ _ _ => rfl), hfenced]
  · rw [spindlesOn_keeps (π := (·.unitRec d u)) (fun _ _ => rfl) (fun _ _ _ => rfl), tested_unitRec_other h28 hu hk]
  · have hen' : (tested s d failed kat).appF .secSpindlectl d (b2n south) 0 0 0 = 1 := by
      unfold State.appF State.appWord at hen ⊢
      rwa [hregs]
    show ((spindlesOn _ d).comp.spindles.get _).st = _
    unfold spindlesOn
    rw [hfenced, if_neg (by simp), seedDrbg_spindle_st]
    exact startSpindles_starts hen' (by rwa [hspindles])

/-! ### The statement -/

/-- A step that is not the die's next, and D4 without Warden, change nothing. -/
theorem steps_idle (s : State) (d : DieId) (a b c : Bool) (failed : List UnitNo) (kat : List (Fin 16)) :
    (s.stepDue d.val 1 = false → exec (.d1 d a) s = .next s) ∧ (s.stepDue d.val 2 = false → exec (.d2 d a) s = .next s)
      ∧ (s.stepDue d.val 3 = false → exec (.d3 d a) s = .next s)
      ∧ ((s.stepDue d.val 4 = false ∨ s.sys.warden.running = false) → exec (.d4 d) s = .next s)
      ∧ (s.stepDue d.val 5 = false → exec (.d5 d a b c) s = .next s)
      ∧ (s.stepDue d.val 6 = false → exec (.d6 d failed kat a) s = .next s) := by
  refine ⟨fun h => ?_, fun h => ?_, fun h => ?_, fun h => ?_, fun h => ?_, fun h => ?_⟩
  · show execD1 d a s = _
    unfold execD1
    exact bringStep_idle h _
  · show execD2 d a s = _
    unfold execD2
    exact bringStep_idle h _
  · show execD3 d a s = _
    unfold execD3
    exact bringStep_idle h _
  · show execD4 d s = _
    unfold execD4
    cases hw : s.sys.warden.running with
    | false => rfl
    | true =>
      rw [if_neg (by simp)]
      exact bringStep_idle (h.resolve_right (by simp [hw])) _
  · show execD5 d a b c s = _
    unfold execD5
    exact bringStep_idle h _
  · show execD6 d failed kat a s = _
    unfold execD6
    exact bringStep_idle h _

/-- Settles O59: a step that fences its die by what a fence always does, the others by the state that they are left with. -/
theorem dieStepsToUnitTests : Obligations.DieStepsToUnitTests := by
  unfold Obligations.DieStepsToUnitTests
  refine ⟨steps_idle, fun s d => ⟨fun h => ?d1, fun h => ?d2, fun h => ?d3, fun h hw => ?d4, fun h => ?d5, fun h failed kat => ?d6⟩⟩
  case d1 =>
    refine ⟨_, _, exec_d1_due h true, exec_d1_due h false, ?_, ?_, fun i hi => ?_, ?_, ?_, fenceDie_fenced ..⟩
    · exact (congrArg (·.get d.val) (loadFuses_keeps (π := (·.sys.clk)) (fun _ _ => rfl) ..)).trans (begun_clk ..)
    · refine (congrArg DieSec.keyOk (tbl_get_modify_same ..)).trans ?_
      exact loadFuses_keeps (π := (·.udsOk d.val)) (fun _ _ => rfl) ..
    · exact loadFuses_st hi ..
    · exact loadFuses_keeps (π := (·.mem)) (fun _ _ => rfl) ..
    · exact loadFuses_keeps (π := (·.comp)) (fun _ _ => rfl) ..
  case d2 =>
    refine ⟨_, _, exec_d2_due h true, exec_d2_due h false, fun hp => ?_, fun hp => ?_, fenceDie_fenced ..⟩
    · rw [hp]
      refine ⟨?_, rfl, rfl⟩
      show (pulseLocked (begun s d.val 2) d.val).sys.clk.get d.val = _
      unfold pulseLocked
      rw [modRas_sys, modClk_clk, tbl_get_modify_same, begun_clk]
    · rw [hp]
      exact fenceDie_fenced ..
  case d3 =>
    refine ⟨_, _, exec_d3_due h true, exec_d3_due h false, ?_, fun hs => ?_⟩
    · rw [trainStack_true, begun, modClk_modClk]
      rfl
    · rw [trainStack_false]
      obtain ⟨hst, hcause⟩ := fenceUnit_fenced (s := begun s d.val 3) (by decide) hs Code.hbmTrainFail.val
      exact ⟨fenceUnit_hc0 (s := begun s d.val 3) hs _, hst, hcause⟩
  case d4 =>
    have hbegun (k : ImageKind) : (begun s d.val 4).bootImage d.val k = s.bootImage d.val k := bootImage_congr rfl rfl ..
    refine ⟨fun a b ha hb => ⟨_, exec_d4_due h hw, ?_⟩, fun hnone => ⟨_, exec_d4_due h hw, takeImages_none (by rwa [hbegun, hbegun])⟩⟩
    rw [takeImages_both ((hbegun _).trans ha) ((hbegun _).trans hb)]
    obtain ⟨hsteward, hruntime, hlc⟩ := imagesTaken_sec (begun s d.val 4) d.val a b
    have hfenced := begun_not_fenced h
    refine ⟨hsteward, hruntime, hlc, ?_, hfenced, rfl, fun hwf => ⟨fun i hi => ?_, fun x hx => ?_⟩⟩
    · exact congrArg DieClk.step (begun_clk s d.val 4)
    · refine (placeImage_cells (s := begun s d.val 4) hwf d .steward a _).trans ?_
      rw [if_pos ⟨Nat.le_add_right .., Nat.add_lt_add_left hi _⟩, Nat.add_sub_cancel_left]
      rfl
    · refine (placeImage_cells (s := begun s d.val 4) hwf d .steward a x).trans ?_
      rw [if_neg fun hin => hx.elim (Nat.not_lt.mpr hin.1) (Nat.not_le.mpr hin.2)]
      rfl
  case d5 =>
    refine ⟨_, exec_d5_due h true true true, ?_, fun a b c => ⟨_, exec_d5_due h a b c, ?_, fun i ok hi hs => ?_⟩⟩
    · rw [trainStack_true, trainStack_true, trainStack_true, begun, modClk_modClk, modClk_modClk, modClk_modClk]
      simp only [List.append_assoc, List.cons_append, List.nil_append]
      rfl
    · rw [trainStack_dieFencedB (by decide) (by decide), trainStack_dieFencedB (by decide) (by decide),
        trainStack_dieFencedB (by decide) (by decide)]
      exact begun_not_fenced h
    · exact d5_stacks (begun s d.val 5) d.val a b c hi hs
  case d6 =>
    obtain ⟨hx, hx'⟩ := exec_d6_due h failed kat
    have hrec (u : Nat) := spindlesOn_keeps (π := (·.unitRec d.val u)) (fun _ _ => rfl) (fun _ _ _ => rfl)
      (tested (begun s d.val 6) d.val failed kat) d.val
    refine ⟨_, _, hx, hx', fenceDie_fenced .., fun u hu hs => ?_, fun u hu hlt hs => ?_, fun h28 => ?_⟩
    · rw [hrec]; exact tested_kat hu hs
    · rw [hrec]; exact tested_failed hu hlt hs
    · obtain ⟨hstep, hfenced, hother, hspindle⟩ := d6_passes h28 (s := begun s d.val 6) (begun_not_fenced h) kat
      refine ⟨hstep.trans ?_, hfenced, fun u _ => hother u, hspindle⟩
      rw [begun_clk]

end Sys2Proof.BringUp
end

section
/-! SUPPORT. The Spindles (R103 to R105): what gated bits, the states and a failed health test make of one; the statement on them. -/

namespace Sys2Proof.Spindles

open Sys2Proof.Machine Sys2Proof.Laws Sys2Proof.Registers

/-! ### The pool (R103) -/

theorem packBits_eight {bs : List Bool} (h : bs.length = 8) : (packBits bs).length = 1 := by
  obtain ⟨b, rest, rfl⟩ := List.exists_cons_of_length_eq_add_one h
  have hrest : (b :: rest).drop 8 = [] := List.drop_eq_nil_of_le (Nat.le_of_eq h)
  rw [packBits, h, packBitsFuel, hrest]
  rfl

/-- A gated bit is discarded, is kept for the byte that it belongs to, or completes one. -/
theorem feed_cases (p : Spindle) (b : Bool) :
    512 ≤ p.pool.length ∧ p.feed b = p
      ∨ p.pool.length < 512 ∧ (p.feed b = { p with bits := p.bits ++ [b] }
        ∨ ∃ x : List Byte, x.length = 1 ∧ p.feed b = { p with pool := p.pool ++ x, bits := [] }) := by
  unfold Spindle.feed
  split
  · next hfull => exact .inl ⟨hfull, rfl⟩
  · next hroom =>
    refine .inr ⟨Nat.lt_of_not_le hroom, ?_⟩
    split
    · next hbits => exact .inr ⟨_, packBits_eight (by simp [hbits]), rfl⟩
    · exact .inl rfl

/-- What gated bits make of a Spindle `p`: its state is kept, its pool only grows, and to no more than 512 bytes. -/
def FedFrom (p q : Spindle) : Prop :=
  q.st = p.st ∧ p.pool <+: q.pool ∧ q.pool.length ≤ 512 ∧ (p.pool.length = 512 → q.pool = p.pool)

theorem feed_fedFrom {p q : Spindle} (h : FedFrom p q) (b : Bool) : FedFrom p (q.feed b) := by
  obtain ⟨hst, hpre, hle, hfull⟩ := h
  obtain ⟨-, hq⟩ | ⟨hroom, hq | ⟨x, hx, hq⟩⟩ := feed_cases q b
  · rw [hq]; exact ⟨hst, hpre, hle, hfull⟩
  · rw [hq]; exact ⟨hst, hpre, hle, hfull⟩
  · rw [hq]
    refine ⟨hst, hpre.trans ⟨x, rfl⟩, ?_, fun h512 => ?_⟩
    · rw [List.length_append, hx]; exact hroom
    · exact absurd (hfull h512 ▸ h512) (Nat.ne_of_lt hroom)

theorem foldl_feed_fedFrom {p : Spindle} (h : p.pool.length ≤ 512) (bits : List Bool) : FedFrom p (bits.foldl Spindle.feed p) :=
  List.foldlRecOn bits Spindle.feed ⟨rfl, ⟨[], List.append_nil _⟩, h, fun _ => rfl⟩ fun _ hq b _ => feed_fedFrom hq b

/-! ### The states (R104) -/

section
variable {s : State} {d : DieId} {south : Bool} {xs : List Sample}

theorem exec_spindleEnable (hst : (s.comp.spindles.get (spindleKey d south)).st = .off)
    (hen : s.appF .secSpindlectl d.val (b2n south) 0 0 0 = 1) (hstep : 6 ≤ (s.sys.clk.get d.val).step) :
    exec (.spindleEnable d south) s = .next (s.modSpindle (spindleKey d south) (·.start)) := by
  show execSpindleEnable d south s = _
  simp [execSpindleEnable, hst, hen, hstep]

theorem exec_spindleDisable (hst : (s.comp.spindles.get (spindleKey d south)).st ≠ .retired)
    (hen : s.appF .secSpindlectl d.val (b2n south) 0 0 0 = 0) :
    exec (.spindleDisable d south) s = .next (s.modSpindle (spindleKey d south) (·.stop)) := by
  show execSpindleDisable d south s = _
  simp [execSpindleDisable, hst, hen]

/-- The tests of a Spindle over samples, with the cutoffs in force. -/
def tests (s : State) (d : Nat) (south : Bool) (xs : List Sample) : HealthRun :=
  (s.comp.spindles.get (spindleKey d south)).health (s.rctCut d south) (s.aptCut d south) xs

theorem exec_spindleStartupPass (hpass : (tests s d south xs).failed = false)
    (hst : (s.comp.spindles.get (spindleKey d south)).st = .startup) (hlen : xs.length = 4096) :
    exec (.spindleStartupPass d south xs) s
      = .next (s.modSpindle (spindleKey d south) (fun p => { p with st := .run, runs := (tests s d south xs).runs })) := by
  show execSpindleStartupPass d south xs s = _
  unfold tests at hpass
  simp [execSpindleStartupPass, tests, hpass, hst, hlen]

/-- The conditioned bits of a window of samples (R101, R103). -/
def windowBits (s : State) (d : Nat) (south : Bool) (xs : List Sample) : List Bool :=
  condition (decide (s.appF .secSpindlectl d (b2n south) 0 2 1 = 1)) (xs.map (fun x => (streamBits x).getD 3 false))

theorem exec_spindleWindowClose (hpass : (tests s d south xs).failed = false)
    (hst : (s.comp.spindles.get (spindleKey d south)).st = .run) (hlen : xs.length = 1024) :
    exec (.spindleWindowClose d south xs) s = .next (s.modSpindle (spindleKey d south)
      (fun p => { (windowBits s d south xs).foldl Spindle.feed p with runs := (tests s d south xs).runs })) := by
  show execSpindleWindowClose d south xs s = _
  unfold tests at hpass
  simp [execSpindleWindowClose, windowBits, tests, hpass, hst, hlen]

/-! ### A failed health test (R105) -/

/-- The earlier failures of a Spindle that count towards its retirement. -/
def recentFails (s : State) (d : Nat) (p : Spindle) : List Nat := p.failTicks.filter (fun x => decide (s.since d x < 2 ^ 28))

/-- What a failed health test makes of a Spindle `p`. -/
def FailedFrom (s : State) (d : Nat) (p q : Spindle) : Prop :=
  q.pool = [] ∧ q.bits = [] ∧ q.fails = satTo (2 ^ 32 - 1) (p.fails + 1)
    ∧ q.st = if 2 ≤ (recentFails s d p).length then .retired else .startup

theorem modSpindle_const {s u : State} (h : u.comp = s.comp) (k : Nat) (q : Spindle) :
    (u.modSpindle k (fun _ => q)).comp.spindles = s.comp.spindles.set k q := by rw [← h]; rfl

/-- A failed health test changes its Spindle, and logs. -/
theorem spindleFails_cases (s : State) (d : Nat) (south : Bool) (h : HealthRun) :
    ∃ q, FailedFrom s d (s.comp.spindles.get (spindleKey d south)) q
      ∧ (s.spindleFails d south h).comp.spindles = s.comp.spindles.set (spindleKey d south) q
      ∧ (s.spindleFails d south h).mem = s.mem ∧ (s.spindleFails d south h).req = s.req := by
  have hreq (s : State) (n : Nat) (c : Code) : (s.log d n none c 0 0).req = s.req :=
    log_keeps (·.req) (fun _ _ => rfl) (fun _ _ => rfl) (fun _ _ => rfl) ..
  unfold State.spindleFails
  dsimp only
  rw [List.length_append, List.length_singleton]
  split
  · next hthird =>
    have hretires := Nat.le_of_succ_le_succ hthird
    exact ⟨_, ⟨rfl, rfl, rfl, (if_pos hretires).symm⟩, (congrArg _ (log_comp ..)).trans (modSpindle_const (log_comp ..) ..),
      by simp, by simp [hreq]⟩
  · next hfewer =>
    have hstays := fun hle => hfewer (Nat.succ_le_succ hle)
    exact ⟨_, ⟨rfl, rfl, rfl, (if_neg hstays).symm⟩, modSpindle_const (log_comp ..) .., by simp, by simp [hreq]⟩

theorem exec_spindleHealth (hspan : (s.comp.spindles.get (spindleKey d south)).st = .run ∧ xs.length ≤ 1024
      ∨ (s.comp.spindles.get (spindleKey d south)).st = .startup ∧ xs.length ≤ 4096)
    (hearly : (tests s d south xs).early = false)
    (hfail : ((tests s d south xs).rct.any id || (tests s d south xs).apt.any id) = true) :
    exec (.spindleHealth d south xs) s = .next (s.spindleFails d.val south (tests s d south xs)) := by
  show execSpindleHealth d south xs s = _
  unfold tests at hearly hfail ⊢
  unfold execSpindleHealth
  simp only [hearly, hfail, Bool.not_false, Bool.and_true]
  obtain ⟨hst, hlen⟩ | ⟨hst, hlen⟩ := hspan <;> rw [hst] <;> simp [hlen]

end

/-! ### The statement -/

/-- Settles O9: each command by its equation, the pool by what every gated bit keeps, a failed test by the Spindle that it leaves. -/
theorem spindlesRun : Obligations.SpindlesRun := by
  unfold Obligations.SpindlesRun
  refine ⟨fun s d south => ⟨exec_spindleEnable, exec_spindleDisable⟩, fun s d south xs => ?_, fun s d south xs => ?_⟩
  · intro k p hpass
    refine ⟨fun hst hlen => ⟨_, exec_spindleStartupPass hpass hst hlen, ?_⟩,
      fun hst hlen hle => ⟨_, exec_spindleWindowClose hpass hst hlen, ?_⟩⟩
    · rw [modSpindle_spindles, tbl_get_modify_same]
      exact ⟨rfl, rfl, rfl⟩
    · obtain ⟨hrun, hpre, hle', hfull⟩ := foldl_feed_fedFrom hle (windowBits s d south xs)
      rw [modSpindle_spindles, tbl_get_modify_same]
      exact ⟨hrun.trans hst, hpre, hle', hfull, rfl⟩
  · intro k p h hspan hearly hfail
    obtain ⟨q, ⟨hpool, hbits, hfails, hst⟩, hspindles, hmem, hreq⟩ := spindleFails_cases s d.val south h
    refine ⟨_, exec_spindleHealth hspan hearly hfail, ?_⟩
    rw [show tests s d south xs = h from rfl, hspindles, tbl_get_set_same]
    refine ⟨hpool, hbits, hfails.trans ?_, hst, fun j hj => tbl_get_set_other hj .., hmem, hreq⟩
    rw [satTo, Nat.min_comm, Nat.min_def]

end Sys2Proof.Spindles
end

section
/-! SUPPORT. Draws of Spindle bytes (R108), and the seeds (R109) and live keys (R110) that they give; the statement on them. -/

namespace Sys2Proof.Draws

open Sys2Proof.Machine Sys2Proof.Laws Sys2Proof.Spared Sys2Proof.BringUp

/-! ### A draw (R108) -/

section
variable {s : State} {d n : Nat}

theorem draw_fst_none (h : (s.draw d n).1 = .none) : s.draw d n = (.none, s) := by
  revert h
  unfold State.draw
  dsimp only
  split
  · exact fun _ => rfl
  · split
    · exact fun h => nomatch h
    · exact fun h => nomatch h

/-- A draw changes the pools alone. -/
theorem draw_bytes_keeps {s1 : State} {bs : List Byte} (h : s.draw d n = (.bytes bs, s1)) {A : Type} {π : State → A}
    (hcomp : ∀ s f, π (State.modComp s f) = π s) : π s1 = π s := by
  rw [← draw_keeps hcomp s d n, h]

/-- Neither Spindle of the die is in RUN. -/
theorem draw_of_none (ha : (s.comp.spindles.get (2 * d)).st ≠ .run) (hb : (s.comp.spindles.get (2 * d + 1)).st ≠ .run) :
    s.draw d n = (.none, s) := by
  simp [State.draw, ha, hb]

/-- The Spindles of a die that are in RUN. -/
def running (s : State) (d : Nat) : List Nat := [2 * d, 2 * d + 1].filter (fun k => decide ((s.comp.spindles.get k).st = .run))

/-- A Spindle in RUN whose pool is short of bytes holds the draw up. -/
theorem draw_of_short {k : Nat} (hk : k = 2 * d ∨ k = 2 * d + 1) (hup : (s.comp.spindles.get k).st = .run)
    (hshort : (s.comp.spindles.get k).pool.length < n) : s.draw d n = (.wait, s) := by
  have hmem : k ∈ running s d := by simpa [running, hup] using hk
  have hsome : ¬(running s d).isEmpty = true := by simpa using List.ne_nil_of_mem hmem
  have hany : (running s d).any (fun k => decide ((s.comp.spindles.get k).pool.length < n)) = true :=
    List.any_eq_true.mpr ⟨k, hmem, decide_eq_true hshort⟩
  exact (if_neg hsome).trans (if_pos hany)

theorem draw_of_first (ha : (s.comp.spindles.get (2 * d)).st = .run) (hb : (s.comp.spindles.get (2 * d + 1)).st ≠ .run)
    (hn : n ≤ (s.comp.spindles.get (2 * d)).pool.length) :
    s.draw d n = (.bytes (xorBytes (zeros n) ((s.comp.spindles.get (2 * d)).pool.take n)),
      s.modSpindle (2 * d) (fun p => { p with pool := p.pool.drop n })) := by
  simp [State.draw, ha, hb, hn]

theorem draw_of_second (ha : (s.comp.spindles.get (2 * d)).st ≠ .run) (hb : (s.comp.spindles.get (2 * d + 1)).st = .run)
    (hn : n ≤ (s.comp.spindles.get (2 * d + 1)).pool.length) :
    s.draw d n = (.bytes (xorBytes (zeros n) ((s.comp.spindles.get (2 * d + 1)).pool.take n)),
      s.modSpindle (2 * d + 1) (fun p => { p with pool := p.pool.drop n })) := by
  simp [State.draw, ha, hb, hn]

theorem draw_of_both (ha : (s.comp.spindles.get (2 * d)).st = .run) (hb : (s.comp.spindles.get (2 * d + 1)).st = .run)
    (hna : n ≤ (s.comp.spindles.get (2 * d)).pool.length) (hnb : n ≤ (s.comp.spindles.get (2 * d + 1)).pool.length) :
    s.draw d n = (.bytes (xorBytes (xorBytes (zeros n) ((s.comp.spindles.get (2 * d)).pool.take n))
        ((s.comp.spindles.get (2 * d + 1)).pool.take n)),
      (s.modSpindle (2 * d) (fun p => { p with pool := p.pool.drop n })).modSpindle (2 * d + 1)
        (fun p => { p with pool := p.pool.drop n })) := by
  simp [State.draw, ha, hb, hna, hnb]

/-- Changes of two Spindles, each from what it was before both. -/
theorem modSpindle_modSpindle {j k : Nat} (h : k ≠ j) (f g : Spindle → Spindle) :
    (s.modSpindle j f).modSpindle k g = { s with comp := { s.comp with
      spindles := (s.comp.spindles.set j (f (s.comp.spindles.get j))).set k (g (s.comp.spindles.get k)) } } := by
  have hget : (s.modSpindle j f).comp.spindles.get k = s.comp.spindles.get k := tbl_get_modify_other h ..
  rw [← hget]
  rfl

end

/-! ### A request that is changed -/

theorem findReq_congr {s t : State} (h : t.req = s.req) (id : Nat) : t.findReq id = s.findReq id := by
  unfold State.findReq
  rw [h]

theorem findReq_modReq {s : State} {r : Request} (hr : s.findReq r.id = some r) {f : Request → Request} (hf : ∀ q, (f q).id = q.id) :
    (s.modReq r.id f).findReq r.id = some (f r) := by
  have hid : ((fun q : Request => q.id == r.id) ∘ fun q => if q.id == r.id then f q else q) = fun q => q.id == r.id := by
    funext q
    simp only [Function.comp]
    split
    · rw [hf]
    · rfl
  unfold State.findReq at hr ⊢
  rw [modReq_requests, mapWhere, List.find?_map, hid, hr]
  simp

theorem withReq_found {s : State} {id : Nat} {r : Request} {p : Request → Bool} (hr : s.findReq id = some r) (hp : p r = true)
    (f : Request → State → State) : s.withReq id p f = f r s := by
  rw [State.withReq, hr, Option.filter_some_pos hp, withSome_some]

/-! ### From the seed to launch (R109, R369, R390) -/

section
variable {s : State} {r : Request}

/-- The request as its launch by barrier begins at tick `a`. -/
def launching (a : Nat) (q : Request) : Request :=
  { q with step := .launch, launch := { q.launch with admitted := a, tick := 0 } }

theorem beginLaunch_barrier (hb : r.launch.barrier = true) (a : Nat) :
    (s.beginLaunch r a).req = (s.modReq r.id (launching a)).req ∧ (s.beginLaunch r a).comp = s.comp
      ∧ (s.beginLaunch r a).mem = s.mem := by
  have hsends {A : Type} (π : State → A) (hnet : ∀ s f, π (State.modNet s f) = π s) :
      π (s.beginLaunch r a) = π (s.modReq r.id (launching a)) := by
    unfold State.beginLaunch
    rw [if_pos hb]
    refine eachOf_keeps_of π (fun d u => ?_) ..
    rw [send_net]
    exact hnet u (fun _ => _)
  exact ⟨hsends (·.req) fun _ _ => rfl, hsends (·.comp) fun _ _ => rfl, hsends (·.mem) fun _ _ => rfl⟩

variable (hr : s.findReq r.id = some r)
include hr

/-- A request that waits for no scheduled region and no command on its model goes on to launch (R337, R483, R485). -/
theorem toLaunch_unheld (hsrid : r.srid = none) (hdescs : ∀ e ∈ s.req.descs, e.part ≠ r.part) (a : Nat) :
    s.toLaunch r.id a = s.beginLaunch r a := by
  have hwait : s.mustWait r = false := by
    unfold State.mustWait
    simp only [hsrid, Option.bind_none, Option.any_none, Option.isSome_none, Bool.false_and, Bool.false_or]
    exact List.any_eq_false.mpr fun e he => by simp [hdescs e he]
  rw [State.toLaunch, withReq_found hr rfl]
  simp [hsrid, hwait]

/-- The request as it is admitted with the number `n` (R390). -/
def numbered (n : Nat) (q : Request) : Request := { q with seqNo := n, trailDue := true }

theorem proceed_unarmed (hstep : r.step = .arm) (hpin : r.pinCount = 0) (harm : r.armIndex = none) :
    s.proceed r.id = ((s.modReqs (fun k => { k with seqs := k.seqs.set r.part (s.req.seqs.get r.part + 1) })).modReq r.id
      (numbered (s.req.seqs.get r.part))).toLaunch r.id (s.tickOf ((s.admitDie r.part).getD 0)) := by
  rw [State.proceed, withReq_found hr (decide_eq_true hstep)]
  simp only [hpin, harm, if_pos]
  rfl

end

/-- An admission whose seed is drawn ends, and its launch by barrier begins. -/
theorem proceed_launches {s : State} {r : Request} (hr : s.findReq r.id = some r) (hstep : r.step = .arm) (hpin : r.pinCount = 0)
    (harm : r.armIndex = none) (hsrid : r.srid = none) (hb : r.launch.barrier = true) (hdescs : ∀ e ∈ s.req.descs, e.part ≠ r.part) :
    ∃ q, (s.proceed r.id).findReq r.id = some q ∧ q.seed = r.seed ∧ q.step = .launch ∧ q.seqNo = s.req.seqs.get r.part
      ∧ (s.proceed r.id).req.seqs.get r.part = s.req.seqs.get r.part + 1
      ∧ (s.proceed r.id).comp = s.comp ∧ (s.proceed r.id).mem = s.mem := by
  let n := s.req.seqs.get r.part
  let a := s.tickOf ((s.admitDie r.part).getD 0)
  let v := s.modReqs (fun k => { k with seqs := k.seqs.set r.part (n + 1) })
  let u := v.modReq r.id (numbered n)
  have hv : v.findReq r.id = some r := hr
  have hu : u.findReq r.id = some (numbered n r) := findReq_modReq hv fun _ => rfl
  have hproceed : s.proceed r.id = u.beginLaunch (numbered n r) a :=
    (proceed_unarmed hr hstep hpin harm).trans (toLaunch_unheld (r := numbered n r) hu hsrid hdescs a)
  obtain ⟨hreq, hcomp, hmem⟩ := beginLaunch_barrier (s := u) (r := numbered n r) hb a
  rw [hproceed]
  refine ⟨launching a (numbered n r), ?_, rfl, rfl, rfl, ?_, hcomp, hmem⟩
  · exact (findReq_congr hreq _).trans (findReq_modReq (r := numbered n r) hu fun _ => rfl)
  · rw [hreq]
    exact tbl_get_set_same ..

/-! ### SEED_DRAW and LIVE_KEY_DRAW -/

/-- A request with drawn bytes as its seed (R109). -/
def seeded (key : List Byte) (q : Request) : Request := { q with seed := key }

/-- A request with drawn bytes as the live key of its segment (R110). -/
def keyed (key : List Byte) (q : Request) : Request := { q with prog := q.prog.map (fun g => { g with liveKey := some key }) }

section
variable {s s1 : State} {r : Request} {key : List Byte}

theorem drawLiveKey_bytes (hdraw : s.draw ((s.admitDie r.part).getD 0) 16 = (.bytes key, s1)) :
    s.drawLiveKey r = s1.modReq r.id (keyed key) := by
  rw [State.drawLiveKey, hdraw]
  rfl

theorem drawLiveKey_none (hdraw : s.draw ((s.admitDie r.part).getD 0) 16 = (.none, s)) :
    s.drawLiveKey r = s.endReq r.id .entropyUnavail 0 0 := by
  simp [State.drawLiveKey, hdraw]

variable (hr : s.findReq r.id = some r)
include hr

section
variable (hstep : r.step = .arm) (hdrawn : r.drawn = true) (hseed : r.seed = []) (hrows : s.rowsRun = false)
include hstep hdrawn hseed hrows

theorem exec_seedDraw_bytes (hdraw : s.draw ((s.admitDie r.part).getD 0) 16 = (.bytes key, s1)) (hready : s1.islandsReady r = true) :
    exec (.seedDraw r.id) s = .next ((s1.modReq r.id (seeded key)).proceed r.id) := by
  show execSeedDraw r.id s = _
  rw [execSeedDraw, heldWait_quiet hrows, withReq_found hr (by simp [hstep, hdrawn, hseed]), hdraw]
  simp only [hready, whenB_true]
  rfl

theorem exec_seedDraw_none (hdraw : s.draw ((s.admitDie r.part).getD 0) 16 = (.none, s)) :
    exec (.seedDraw r.id) s = .next (s.endReq r.id .entropyUnavail 0 0) := by
  show execSeedDraw r.id s = _
  rw [execSeedDraw, heldWait_quiet hrows, withReq_found hr (by simp [hstep, hdrawn, hseed])]
  simp [hdraw]

end

theorem exec_liveKeyDraw {g : Program} (hg : r.prog = some g) (hkey : g.liveKey = none) (hsweep : g.sweeping = false)
    (hfin : g.finished = false) (hlive : r.live = true) (hstep : r.step = .run) :
    exec (.liveKeyDraw r.id) s = .next (s.drawLiveKey r) := by
  show execLiveKeyDraw r.id s = _
  simp [execLiveKeyDraw, hr, hg, hkey, hsweep, hfin, hlive, hstep]

end

/-! ### The statement -/

/-- Settles O10: a draw by the Spindles in RUN; a seed by the admission's end and its launch, a key by the request that takes it. -/
theorem drawsGiveSeedsAndKeys : Obligations.DrawsGiveSeedsAndKeys := by
  unfold Obligations.DrawsGiveSeedsAndKeys
  refine ⟨fun s d n => ⟨draw_of_none, fun ha hb hn => draw_of_first ha hb hn, fun ha hb hn => draw_of_second ha hb hn,
    fun ha hb hna hnb => ?both, fun hshort => ?short⟩, fun s s1 r key hr hdraw => ?drawn,
    fun s r hr hnone => ⟨fun g hg hkey hsweep hfin hlive hstep => ?noKey, fun hstep hdrawn hseed hrows => ?noSeed⟩⟩
  case both =>
    rw [draw_of_both ha hb hna hnb, modSpindle_modSpindle (by omega)]
  case short =>
    obtain ⟨hup, hn⟩ | ⟨hup, hn⟩ := hshort
    · exact draw_of_short (.inl rfl) hup (Nat.lt_of_not_le hn)
    · exact draw_of_short (.inr rfl) hup (Nat.lt_of_not_le hn)
  case drawn =>
    have hr1 : s1.findReq r.id = some r := (draw_bytes_keeps hdraw (π := (·.findReq r.id)) fun _ _ => rfl).trans hr
    refine ⟨fun g hg hkey hsweep hfin hlive hstep => ?key, fun hstep hdrawn hseed hrows hready hpin harm hsrid hb hdescs => ?seed⟩
    case key =>
      have hkeyed : keyed key r = { r with prog := some { g with liveKey := some key } } := by rw [keyed, hg]; rfl
      rw [exec_liveKeyDraw hr hg hkey hsweep hfin hlive hstep, drawLiveKey_bytes hdraw]
      exact ⟨rfl, (findReq_modReq (f := keyed key) hr1 fun _ => rfl).trans (congrArg some hkeyed)⟩
    case seed =>
      have hready1 : s1.islandsReady r = true := (draw_bytes_keeps hdraw (π := (·.islandsReady r)) fun _ _ => rfl).trans hready
      have hreq1 : s1.req = s.req := draw_bytes_keeps hdraw (π := (·.req)) fun _ _ => rfl
      have hmem1 : s1.mem = s.mem := draw_bytes_keeps hdraw (π := (·.mem)) fun _ _ => rfl
      obtain ⟨q, hq, hqseed, hqstep, hqno, hseqs, hcomp, hmem⟩ := proceed_launches (s := s1.modReq r.id (seeded key))
        (r := seeded key r) (findReq_modReq hr1 fun _ => rfl) hstep hpin harm hsrid hb (by rwa [modReq_descs, hreq1])
      rw [modReq_seqs, hreq1] at hqno hseqs
      have hexec := exec_seedDraw_bytes hr hstep hdrawn hseed hrows hdraw hready1
      exact ⟨_, q, hexec, hq, hqseed, hqstep, hqno, hseqs, hcomp, hmem.trans hmem1⟩
  case noKey =>
    rw [exec_liveKeyDraw hr hg hkey hsweep hfin hlive hstep, drawLiveKey_none (draw_fst_none hnone)]
  case noSeed => exact exec_seedDraw_none hr hstep hdrawn hseed hrows (draw_fst_none hnone)

end Sys2Proof.Draws
end

section
/-! SUPPORT. What a processing element sums (R135, R137, R139, R140): Exact sums in any order, and integer sums in Fast and in Exact mode. -/

namespace Sys2Proof.TensorSums

open Sys2Proof.Machine

/-! ### Exact sums in any order (R139, R140) -/

/-- The state of an element does not depend on the order of two contributions (R140). -/
theorem join_right_comm (a b c : ExState) : (a.join b).join c = (a.join c).join b := by
  cases a <;> cases b <;> cases c <;> rfl

/-- Two products may enter an Exact sum in either order. -/
theorem exactTerm_right_comm (a : Int × ExState × Bool) (t u : XVal × XVal) :
    exactTerm (exactTerm a t) u = exactTerm (exactTerm a u) t := by
  unfold exactTerm
  dsimp only
  split <;> split
  · rw [Int.add_right_comm]
  · rfl
  · rfl
  · rw [join_right_comm]

theorem accumulate_exact_perm (ty : ElemTy) (v : Int) (st : ExState) {ts us : List (XVal × XVal)} (h : ts.Perm us) :
    accumulate ty (.exact v st) ts = accumulate ty (.exact v st) us := by
  have hfold : ts.foldl exactTerm (v, st, false) = us.foldl exactTerm (v, st, false) :=
    h.foldl_eq' (fun t _ u _ a => exactTerm_right_comm a t u) _
  unfold accumulate
  dsimp only
  rw [hfold]

/-! ### Integer sums (R135, R137) -/

/-- An integer pair as the operands of a product. -/
def intPair (t : Int × Int) : XVal × XVal := (XVal.ofInt t.1, XVal.ofInt t.2)

/-- The sum of integer products. -/
def dot (ts : List (Int × Int)) : Int := (ts.map (fun t => t.1 * t.2)).sum

theorem dot_cons (t : Int × Int) (ts : List (Int × Int)) : dot (t :: ts) = t.1 * t.2 + dot ts := by simp [dot]

theorem dot_append (ts us : List (Int × Int)) : dot (ts ++ us) = dot ts + dot us := by simp [dot]

theorem clampInt_unsaturated {n : Nat} {i : Int} (h : (clampInt n i).2 = false) : (clampInt n i).1 = i := by
  revert h
  unfold clampInt
  split
  · exact fun h => nomatch h
  · split
    · exact fun h => nomatch h
    · exact fun _ => rfl

theorem fastIntChunk_intPair (acc : Int) (ts : List (Int × Int)) :
    fastIntChunk acc (ts.map intPair) = ((clampInt 48 (acc + dot ts)).1, ⟨(clampInt 48 (acc + dot ts)).2, false⟩) := by
  unfold fastIntChunk
  rw [List.map_map]
  rfl

/-- One chunk of a Fast integer sum, as `accumulate` adds it. -/
def addChunk (a : Int × TeFlags) (c : List (XVal × XVal)) : Int × TeFlags := ((fastIntChunk a.1 c).1, a.2.or (fastIntChunk a.1 c).2)

theorem accumulate_i48 (ty : ElemTy) (w : Int) (ts : List (XVal × XVal)) :
    accumulate ty (.i48 w) ts = (.i48 ((listChunks ts.length 32 ts).foldl addChunk (w, .none)).1,
      ((listChunks ts.length 32 ts).foldl addChunk (w, .none)).2) := rfl

/-- An unsaturated sum over chunks is the sum of all their products. -/
theorem foldl_addChunk_unsaturated (css : List (List (Int × Int))) (a : Int × TeFlags)
    (h : ((css.map (·.map intPair)).foldl addChunk a).2.sat = false) :
    a.2.sat = false ∧ ((css.map (·.map intPair)).foldl addChunk a).1 = a.1 + dot css.flatten := by
  induction css generalizing a with
  | nil => exact ⟨h, by simp [dot]⟩
  | cons c css ih =>
    obtain ⟨hor, hsum⟩ := ih _ h
    rw [addChunk, fastIntChunk_intPair, TeFlags.or, Bool.or_eq_false_iff] at hor
    obtain ⟨ha, hc⟩ := hor
    refine ⟨ha, hsum.trans ?_⟩
    rw [addChunk, fastIntChunk_intPair, clampInt_unsaturated hc, List.flatten_cons, dot_append, Int.add_assoc]

theorem listChunks_flatten {A : Type} {n : Nat} (hn : 0 < n) (fuel : Nat) {l : List A} (h : l.length ≤ fuel) :
    (listChunks fuel n l).flatten = l := by
  induction fuel generalizing l with
  | zero => rw [List.length_eq_zero_iff.mp (Nat.le_zero.mp h)]; rfl
  | succ fuel ih =>
    cases l with
    | nil => rfl
    | cons x xs =>
      have hshort : ((x :: xs).drop n).length ≤ fuel := by
        rw [List.length_drop]
        omega
      rw [listChunks, List.flatten_cons, ih hshort, List.take_append_drop]

theorem listChunks_map {A B : Type} (f : A → B) (fuel n : Nat) (l : List A) :
    listChunks fuel n (l.map f) = (listChunks fuel n l).map (·.map f) := by
  induction fuel generalizing l with
  | zero => rfl
  | succ fuel ih =>
    cases l with
    | nil => rfl
    | cons x xs => rw [List.map_cons, listChunks, listChunks, ← List.map_cons, ← List.map_take, ← List.map_drop, ih, List.map_cons]

/-- Without saturation a Fast integer element is the sum of its products (R135). -/
theorem accumulate_i48_unsaturated {ty : ElemTy} {ts : List (Int × Int)} {v w : Int} {fl : TeFlags}
    (h : accumulate ty (.i48 w) (ts.map intPair) = (.i48 v, fl)) (hsat : fl.sat = false) : v = w + dot ts := by
  rw [accumulate_i48, listChunks_map, List.length_map] at h
  injection h with hacc hfl
  injection hacc with hv
  obtain ⟨-, hsum⟩ := foldl_addChunk_unsaturated _ _ (hfl ▸ hsat)
  rw [← hv, hsum, listChunks_flatten (by decide) _ (Nat.le_refl _)]

/-- An integer product enters an Exact sum in units of 2^-272 (R139). -/
theorem exactTerm_intPair (v : Int) (st : ExState) (nf : Bool) (t : Int × Int) :
    exactTerm (v, st, nf) (intPair t) = (v + t.1 * t.2 * 2 ^ 272, st, nf) := by
  have hnorm : (Frac.norm ⟨t.1 * t.2, 1⟩) = ⟨t.1 * t.2, 1⟩ := by simp [Frac.norm]
  have hmul : (intPair t).1.mul (intPair t).2 = .fin ⟨t.1 * t.2, 1⟩ (xor (XVal.ofInt t.1).isNeg (XVal.ofInt t.2).isNeg) :=
    congrArg (XVal.fin · _) hnorm
  unfold exactTerm
  dsimp only
  rw [hmul]
  exact congrArg (fun x => (v + x, st, nf)) (Int.ediv_one _)

theorem foldl_exactTerm_intPair (ts : List (Int × Int)) (v : Int) (st : ExState) (nf : Bool) :
    (ts.map intPair).foldl exactTerm (v, st, nf) = (v + dot ts * 2 ^ 272, st, nf) := by
  induction ts generalizing v with
  | nil =>
    have hdot : dot [] = 0 := rfl
    rw [hdot, Int.zero_mul, Int.add_zero]
    rfl
  | cons t ts ih => rw [List.map_cons, List.foldl_cons, exactTerm_intPair, ih, dot_cons, Int.add_mul, Int.add_assoc]

/-- An Exact element of integers is the sum of its products, whatever their type (R139). -/
theorem accumulate_exact_intPair (ty : ElemTy) (v : Int) (st : ExState) (ts : List (Int × Int)) :
    accumulate ty (.exact v st) (ts.map intPair) = (.exact (v + dot ts * 2 ^ 272) st, .none) := by
  unfold accumulate
  dsimp only
  rw [foldl_exactTerm_intPair]
  rfl

/-! ### The statement -/

/-- Settles O21: two products may enter an Exact sum in either order; an unsaturated Fast sum and an Exact one are both the sum of the
products. -/
theorem exactSums : Obligations.ExactSums := by
  unfold Obligations.ExactSums
  refine ⟨fun ty v st ts us h => accumulate_exact_perm ty v st h, fun ts v fl h hsat => ?_⟩
  have hv : v = 0 + dot ts := accumulate_i48_unsaturated h hsat
  exact (accumulate_exact_intPair .int16 0 .finite ts).trans (by rw [hv, Int.zero_add, Int.zero_add])

end Sys2Proof.TensorSums
end

section
/-! SUPPORT. Tensor engines (R121, R126 to R128, R147, R192): the command that an engine runs, the taking of the head of its queue, the end of a
command; the statement on commands that begin. -/

namespace Sys2Proof.TensorEngines

open Sys2Proof.Machine Sys2Proof.Laws

/-! ### The command that an engine runs -/

@[simp] theorem modTe_get (s : State) (te : Nat) (f : Te → Te) : (s.modTe te f).comp.tes.get te = f (s.comp.tes.get te) := by
  rw [modTe_tes, tbl_get_modify_same]

theorem modTe_get_other (s : State) {te j : Nat} (h : j ≠ te) (f : Te → Te) : (s.modTe te f).comp.tes.get j = s.comp.tes.get j := by
  rw [modTe_tes, tbl_get_modify_other h]

theorem modRun_cur {s : State} {te : Nat} {r : TeRun} (h : (s.comp.tes.get te).cur = some r) (f : TeRun → TeRun) :
    ((s.modRun te f).comp.tes.get te).cur = some (f r) := by
  simp [State.modRun, h]

theorem modRun_running {s : State} {te : Nat} {r : TeRun} (h : (s.comp.tes.get te).cur = some r) (f : TeRun → TeRun) :
    s.modRun te f = { s with comp := { s.comp with tes := s.comp.tes.set te { s.comp.tes.get te with cur := some (f r) } } } := by
  have hget : (s.comp.tes.get te).cur.map f = some (f r) := by rw [h, Option.map_some]
  rw [← hget]
  rfl

theorem withRun_some {s : State} {te : Nat} {r : TeRun} (h : (s.comp.tes.get te).cur = some r) (f : TeRun → TeCmd → State → State) :
    s.withRun te f = f r (parseTe r.record) s := by
  rw [State.withRun, h, withSome_some]

/-! ### The queue (R127, R128) -/

/-- What a block takes out of its inbox changes the inboxes alone. -/
theorem takeInbox_eq {s s1 : State} {n : Nat} {p : Packet → Bool} {k : Packet} (h : s.takeInbox n p = some (k, s1)) :
    s1 = { s with net := { s.net with inbox := s1.net.inbox } } := by
  unfold State.takeInbox at h
  split at h
  · exact nomatch h
  · injection h with h
    injection h with _ h
    rw [← h]
    rfl

theorem exec_teCommandArrive {s s1 : State} {te : TeId} {p : Packet} {x : CmdRef}
    (htake : s.takeInbox (teNode te.val) (Packet.isCmd .te) = some (p, s1)) (hpay : p.payload = .cmd .te x) (hrows : s.rowsRun = false)
    (hroom : (s.comp.tes.get te.val).queue.length < 16) :
    exec (.teCommandArrive te) s = .next (s1.modTe te.val (fun t => { t with queue := t.queue ++ [x] })) := by
  have hroom1 : (s1.comp.tes.get te.val).queue.length < 16 := by rwa [takeInbox_eq htake]
  show execTeCommandArrive te s = _
  rw [execTeCommandArrive, heldWait_quiet hrows, htake, withSome_some]
  simp only [hpay, if_pos hroom1]

section
variable {s s1 : State} {te : Nat} {x : CmdRef} {xs : List CmdRef} {b : List Byte}
  (hcur : (s.comp.tes.get te).cur = none) (hqueue : (s.comp.tes.get te).queue = x :: xs) (hheld : s.cmdHeld x = false)
  (hread : s.readRecord (s.teAcc te x) x 128 64 = (.ok b, s1))
include hcur hqueue hheld hread

/-- An idle engine takes the head of its queue. -/
theorem teTake_head {mine : Nat → Bool} (hmine : mine (byteAt b 0) = true) (f : CmdRef → List Byte → State → State) :
    s.teTake te mine f = f x b s1 := by
  simp [State.teTake, hcur, hqueue, hheld, hread, hmine]

end

/-! ### MATMUL (R121, R128) -/

theorem andThen_ok {A B : Type} {r : Res A} {f : A → State → Res B} {b : B} {t : State} (h : r.andThen f = (.ok b, t)) :
    ∃ a u, r = (.ok a, u) ∧ f a u = (.ok b, t) := by
  obtain ⟨_ | a, u⟩ := r
  · exact nomatch h
  · exact ⟨a, u, rfl, h⟩

/-- The run of a command of which no tile has begun. -/
def Unbegun (x : CmdRef) (b : List Byte) (r : TeRun) : Prop :=
  r.cmd = x ∧ r.record = b ∧ r.next = 0 ∧ r.inFlight = [] ∧ r.tilesDone = 0 ∧ r.code = none

/-- A MATMUL that passes its checks begins with no tile. -/
theorem loadMatmul_unbegun {s t : State} {te : Nat} {x : CmdRef} {b : List Byte} {r : TeRun}
    (h : s.loadMatmul te x b = (.ok r, t)) : Unbegun x b r := by
  unfold State.loadMatmul at h
  iterate 8 obtain ⟨_, _, -, h⟩ := andThen_ok h
  split at h
  · exact nomatch h
  · iterate 2 obtain ⟨_, _, -, h⟩ := andThen_ok h
    injection h with h
    injection h with h
    rw [← h]
    exact ⟨rfl, rfl, rfl, rfl, rfl, rfl⟩

theorem exec_matmul {s s1 s2 : State} {te : TeId} {x : CmdRef} {xs : List CmdRef} {b : List Byte} {r : TeRun} (hrows : s.rowsRun = false)
    (hcur : (s.comp.tes.get te.val).cur = none) (hqueue : (s.comp.tes.get te.val).queue = x :: xs) (hheld : s.cmdHeld x = false)
    (hread : s.readRecord (s.teAcc te.val x) x 128 64 = (.ok b, s1)) (hop : byteAt b 0 = 1)
    (hload : s1.loadMatmul te.val x b = (.ok r, s2)) :
    exec (.matmul te) s = .next (s2.modTe te.val (fun t => { t with cur := some r })) := by
  show execMatmul te s = _
  rw [execMatmul, heldWait_quiet hrows, teTake_head hcur hqueue hheld hread (by simp [hop])]
  simp [hop, hload]

/-! ### COMBINE (R126, R147) -/

/-- The run of a COMBINE as its sums are formed. -/
def combineRun (x : CmdRef) (b : List Byte) (a o : Td) : TeRun :=
  { cmd := x, record := b, aTd := some a, bTd := none, outTd := some o, preTd := none, resTds := [], chain := none
    table := [], stats := [], targets := [], owners := [], next := (parseTe b).tileCount, inFlight := [], tilesDone := 0
    flags := .none, denseDrop := false, rowSums := .const RowSum.empty, quantBuf := [], lastWrite := 0, code := none }

/-- The run of a COMBINE whose sums `vs` are written, its last cycle `last`. -/
def combined (c : TeCmd) (vs : List (Acc × TeFlags)) (last : Nat) (r : TeRun) : TeRun :=
  { r with tilesDone := c.tileCount, flags := orFlags (vs.map (fun v => (accOut c.float c.outFmt v.1).2.or v.2)), lastWrite := last }

/-- An engine whose last drain cycle is `last`. -/
def drainsAt (last : Nat) (t : Te) : Te := { t with prevDrain := t.lastDrain, lastDrain := last }

section
variable {s s1 s2 s3 s4 s5 s6 : State} {te : TeId} {x : CmdRef} {xs : List CmdRef} {b : List Byte} {a o : Td} {vs : List (Acc × TeFlags)}
  {ow ow1 : List OwnerEnt} {l : List ByteW}

theorem exec_combine (hrows : s.rowsRun = false)
    (hcur : (s.comp.tes.get te.val).cur = none) (hqueue : (s.comp.tes.get te.val).queue = x :: xs) (hheld : s.cmdHeld x = false)
    (hread : s.readRecord (s.teAcc te.val x) x 128 64 = (.ok b, s1)) (hop : byteAt b 0 = 2)
    (hload : s1.loadCombine te.val x (parseTe b) = (.ok (a, o), s2))
    (hpop : (s2.tePop te.val).modTe te.val (fun t => { t with cur := some (combineRun x b a o) }) = s3)
    (hsums : s3.combineCells (s2.teAcc te.val x) a (parseTe b) (parseTe b).cells [] = (.ok vs, ow, s4))
    (hplace : s4.placeAll (s2.teAcc te.val x) o (((parseTe b).cells.map (fun y => [y.2, y.1])).zip
      (vs.map (fun v => leVal (accOut (parseTe b).float (parseTe b).outFmt v.1).1))) ow [] = (.ok l, ow1, s5))
    (hflush : s5.flushBytes (s2.teAcc te.val x) l = (none, s6)) :
    exec (.combine te) s = .next ((s6.modRun te.val (combined (parseTe b) vs (s3.teCycle te.val 0 + (parseTe b).veCycles))).modTe te.val
      (drainsAt (s3.teCycle te.val 0 + (parseTe b).veCycles))) := by
  unfold combineRun at hpop
  show execCombine te s = _
  rw [execCombine, heldWait_quiet hrows, teTake_head hcur hqueue hheld hread (by simp [hop])]
  simp only [hload, hpop, hsums, List.map_map, Function.comp_def, hplace, hflush]
  rfl

end

/-! ### The end of a command (R190, R192) -/

/-- An operation of a block for a home, on VC0, waits at the block's router: no near link takes it (R304). -/
theorem send_beacon_net (s : State) (src dst : Nat) (p r : Option Nat) (op : BOp) (ag : Agent) (tag : Nat) :
    ∃ pkt, pkt.dst = .node dst ∧ pkt.vc = 0 ∧ pkt.payload = .beacon op ag tag
      ∧ (s.send src (.node dst) 0 1 p r (.beacon op ag tag)).net
        = { s.net with nextId := s.net.nextId + 1, inject := s.net.inject.modify src (· ++ [pkt]) } := by
  have hnear : nearPair src (.node dst) 0 = none := by
    unfold nearPair
    dsimp only
    split <;> simp
  refine ⟨s.packetOf src (.node dst) 0 1 p r (.beacon op ag tag) (8 * s.tickOf (nodeDie src)), rfl, rfl, rfl, ?_⟩
  unfold State.send State.sendAt
  dsimp only
  rw [hnear]
  simp

theorem endCmd_none (s : State) (node : Nat) {x : CmdRef} (h : x.notify = none) : s.endCmd node x = s.cmdOver x := by
  rw [State.endCmd, h]

theorem endCmd_notify (s : State) (node : Nat) {x : CmdRef} {f : Nat} (h : x.notify = some f) :
    (s.endCmd node x).queued node (bitsOf f 13 6) 0 (.beacon (.notify (bitsOf f 5 0)) (.notify x.core x.req) s.net.nextId) := by
  obtain ⟨p, hdst, hvc, hpay, hnet⟩ := send_beacon_net s node (bitsOf f 13 6) ((s.findReq x.req).map (·.part)) (some x.req)
    (.notify (bitsOf f 5 0)) (.notify x.core x.req) s.net.nextId
  refine ⟨p, ?_, hdst, hvc, hpay⟩
  rw [State.endCmd, h]
  dsimp only
  rw [modNet_net, hnet, tbl_get_modify_same]
  exact List.mem_append_right _ (.head _)

/-! ### The statement -/

/-- Settles O19: each command by its equation; a MATMUL that passes its checks has begun no tile. -/
theorem tensorCommandsBegin : Obligations.TensorCommandsBegin := by
  unfold Obligations.TensorCommandsBegin
  refine ⟨fun s s1 te p x htake hpay hrows hroom => ?arrive,
    fun s s1 s2 te x xs b r hrows hcur hqueue hheld hread hop hload => ?matmul,
    fun s s1 s2 s3 s4 s5 te x xs b a o vs ow ow1 l run hrows hcur hqueue hheld hread hop => ?combine⟩
  case arrive =>
    refine ⟨_, exec_teCommandArrive htake hpay hrows hroom, ?_, fun j hj => ?_, ?_⟩
    · rw [modTe_get, takeInbox_eq htake]
    · rw [modTe_get_other _ hj, takeInbox_eq htake]
    · rw [takeInbox_eq htake]
      rfl
  case matmul =>
    obtain ⟨hcmd, hrec, hnext, hflight, hdone, hcode⟩ := loadMatmul_unbegun hload
    refine ⟨_, exec_matmul hrows hcur hqueue hheld hread hop hload, ?_, ?_, hcmd, hrec, hnext, hflight, hdone, hcode, rfl⟩
    · rw [modTe_get]
    · rw [modTe_get]
  case combine =>
    intro c hload hrun hpop cells acc hsums hplace s6 hflush hcur6
    subst hrun
    refine ⟨_, combined c vs (s3.teCycle te.val 0 + c.veCycles) (combineRun x b a o),
      exec_combine hrows hcur hqueue hheld hread hop hload hpop.symm hsums hplace hflush, ?_, rfl, rfl, ?_, rfl⟩
    · rw [modTe_get]
      exact modRun_cur hcur6 _
    · rw [modTe_get]
      rfl

end Sys2Proof.TensorEngines
end

section
/-! SUPPORT. The tiles of tensor commands (R121, R130, R143, R148, R165) and the ends of the commands (R129); the statement on them. -/

namespace Sys2Proof.TensorTiles

open Sys2Proof.Machine Sys2Proof.Laws Sys2Proof.TensorEngines

/-! ### A tile streams (R121, R130, R139) -/

/-- A tile that begins in cycle `now`, its accumulators those of the preloads `ps` after the products of `cells`. -/
def formedTile (c : TeCmd) (tm tn now : Nat) (ps : List (Acc × TeFlags)) (cells : List (List (XVal × XVal))) (params : List (List XVal))
    (fl : TeFlags) : Tile :=
  { tm := tm, tn := tn, start := now, complete := none, params := params
    accs := (ps.zip cells).map (fun z => (accumulate c.ty z.1.1 z.2).1)
    flags := fl.or (orFlags ((ps.zip cells).map (fun z => (accumulate c.ty z.1.1 z.2).2.or z.1.2))) }

/-- The run whose next tile has begun. -/
def tileBegun (ow : List OwnerEnt) (tile : Tile) (r : TeRun) : TeRun :=
  { r with next := r.next + 1, owners := ow, inFlight := r.inFlight ++ [tile] }

/-- The engine that streams the next tile of `r` to cycle `last`. -/
def streamsTo (r : TeRun) (last : Nat) (t : Te) : Te :=
  { t with queue := if r.next = 0 then t.queue.drop 1 else t.queue, lastStream := last, tiles := t.tiles + 1 }

theorem streamTile_begins {s s1 s2 s3 : State} {te now : Nat} {r : TeRun} {c : TeCmd} {a b : Td} {as_ bs : List (List XVal)} {fl : TeFlags}
    {ow ow1 ow2 : List OwnerEnt} {ps : List (Acc × TeFlags)} {params : List (List XVal)} (ha : r.aTd = some a) (hb : r.bTd = some b)
    (hoperands : s.tileOperands (s.teAcc te r.cmd) r c a b (tileSpan (r.next / c.tileCols) c.m) (tileSpan (r.next % c.tileCols) c.n)
      = (.ok (as_, bs, fl), ow, s1))
    (hpreloads : s1.tilePreloads (s.teAcc te r.cmd) ow r c (tileSpan (r.next / c.tileCols) c.m) (tileSpan (r.next % c.tileCols) c.n)
      = (.ok ps, ow1, s2))
    (hparams : s2.allParams (s.teAcc te r.cmd) r (tileSpan (r.next / c.tileCols) c.m) (tileSpan (r.next % c.tileCols) c.n)
      ((r.chain.map (·.stages)).getD []) ow1 = (.ok params, ow2, s3)) :
    s.streamTile te r c now = (s3.modRun te (tileBegun ow2 (formedTile c (r.next / c.tileCols) (r.next % c.tileCols) now ps
      (as_.flatMap (fun x => bs.map (fun y => x.zip y))) params fl))).modTe te (streamsTo r (now + c.streamLen - 1)) := by
  unfold State.streamTile
  simp only [ha, hb, hoperands, hpreloads, hparams, List.map_map]
  rfl

section
variable {s : State} {te : TeId} {cy : Fin 5} {r : TeRun}
  (hcur : (s.comp.tes.get te.val).cur = some r)
include hcur

theorem exec_tileStreamStart (hrows : s.rowsRun = false) (hcode : r.code = none) (hop : (parseTe r.record).op = 1)
    (hnext : r.next < (parseTe r.record).tileCount)
    (hfree : r.inFlight = [] ∧ (s.comp.tes.get te.val).prevDrain < s.teCycle te.val cy.val
      ∨ ∃ u, r.inFlight = [u] ∧ (s.comp.tes.get te.val).lastDrain < s.teCycle te.val cy.val)
    (hstream : (s.comp.tes.get te.val).lastStream < s.teCycle te.val cy.val) :
    exec (.tileStreamStart te cy) s = .next (s.streamTile te r (parseTe r.record) (s.teCycle te.val cy.val)) := by
  show execTileStreamStart te cy s = _
  rw [execTileStreamStart, heldWait_quiet hrows, withRun_some hcur]
  obtain ⟨hflight, hdrain⟩ | ⟨u, hflight, hdrain⟩ := hfree
  · simp [hcode, hop, hnext, hstream, hflight, hdrain]
  · simp [hcode, hop, hnext, hstream, hflight, hdrain]

/-! ### A tile completes (R130) -/

/-- The tile of a list that is at the same place as `t` completes in cycle `now`. -/
def completeAt (now : Nat) (t : Tile) (l : List Tile) : List Tile :=
  l.map (fun u => if u.tm = t.tm ∧ u.tn = t.tn then { u with complete := some now } else u)

omit hcur in
theorem completeAt_head (now : Nat) (t : Tile) {rest : List Tile} (h : ∀ u ∈ rest, u.tm ≠ t.tm ∨ u.tn ≠ t.tn) :
    completeAt now t (t :: rest) = { t with complete := some now } :: rest := by
  have hrest : completeAt now t rest = rest :=
    (List.map_congr_left fun u hu => if_neg fun ⟨htm, htn⟩ => (h u hu).elim (· htm) (· htn)).trans (List.map_id' rest)
  rw [completeAt, List.map_cons, if_pos ⟨rfl, rfl⟩]
  exact congrArg _ hrest

theorem exec_tileComplete {tile : Tile} {rest : List Tile} (hflight : r.inFlight = tile :: rest) (hnot : tile.complete = none)
    (hdue : tile.start + (parseTe r.record).streamLen + 11 ≤ s.teCycle te.val cy.val) :
    exec (.tileComplete te cy) s
      = .next (s.modRun te.val (fun r => { r with inFlight := completeAt (s.teCycle te.val cy.val) tile r.inFlight })) := by
  show execTileComplete te cy s = _
  rw [execTileComplete, withRun_some hcur]
  simp only [hflight, List.find?_cons, hnot, Option.isNone_none, decide_eq_true hdue, whenB_true]
  rfl

end

/-! ### A tile drains (R130, R143, R148, R155) -/

/-- What the oldest tile of a run gives when it drains to cycle `last` (R143, R155). -/
def drainedOf (r : TeRun) (c : TeCmd) (t : Tile) (last : Nat) : Drained :=
  match r.chain with
  | some k =>
    if k.stages.isEmpty then drainPlain c (tileSpan t.tm c.m) (tileSpan t.tn c.n) t r.rowSums
    else drainChain c k r.table (tileSpan t.tm c.m) (tileSpan t.tn c.n) t t.params r.rowSums last
  | none => drainPlain c (tileSpan t.tm c.m) (tileSpan t.tn c.n) t r.rowSums

/-- The run after a drain whose last write is in cycle `wr`. -/
def tileDone (wr : Nat) (fl : TeFlags) (r : TeRun) : TeRun :=
  { r with inFlight := r.inFlight.drop 1, tilesDone := r.tilesDone + 1, flags := r.flags.or fl, lastWrite := max r.lastWrite wr }

/-- The run that keeps what a drained tile leaves. -/
def drainKept (ow : List OwnerEnt) (o : Drained) (r : TeRun) : TeRun :=
  { r with owners := ow, rowSums := o.sums, quantBuf := r.quantBuf ++ o.quant.toList }

theorem tileDrained_cur {s : State} {te : Nat} {r : TeRun} (h : (s.comp.tes.get te).cur = some r) (last wr : Nat) (fl : TeFlags) :
    ((s.tileDrained te last wr fl).comp.tes.get te).cur = some (tileDone wr fl r) := by
  rw [State.tileDrained, modTe_get]
  exact modRun_cur h _

theorem tileDrained_mem (s : State) (te last wr : Nat) (fl : TeFlags) : (s.tileDrained te last wr fl).mem = s.mem := rfl

theorem tileDrained_lastDrain (s : State) (te last wr : Nat) (fl : TeFlags) :
    ((s.tileDrained te last wr fl).comp.tes.get te).lastDrain = last := by
  rw [State.tileDrained, modTe_get]

section
variable {s : State} {te : Nat} {r : TeRun} {c : TeCmd} {t : Tile} {last : Nat}

theorem drainTile_writes {s1 s2 s3 : State} {o : Td} {l l1 : List ByteW} {ow : List OwnerEnt} (hfmt : c.outFmt ≠ 5)
    (hout : r.outTd = some o)
    (hplace : s.placeAll (s.teAcc te r.cmd) o (drainedOf r c t last).elems r.owners [] = (.ok l, ow, s1))
    (hplain : s1.placePlains (s.teAcc te r.cmd) (drainedOf r c t last).plain l = (.ok l1, s2))
    (hflush : s2.flushBytes (s.teAcc te r.cmd) l1 = (none, s3)) :
    s.drainTile te r c t last = (s3.modRun te (drainKept ow (drainedOf r c t last))).tileDrained te last (r.lastWriteOf c t last)
      (t.flags.or (drainedOf r c t last).flags) := by
  unfold State.drainTile
  rw [if_neg hfmt, hout]
  cases hchain : r.chain
  all_goals
    simp only [drainedOf, hchain] at hplace hplain ⊢
    simp only [hplace, hplain, hflush]
    rfl

/-- What the sends of dense values leave: memory, and of the run its tiles and its code. -/
def DenseFrom (s : State) (te : Nat) (r : TeRun) (u : State) : Prop :=
  u.mem = s.mem ∧ ∃ q, (u.comp.tes.get te).cur = some q ∧ q.inFlight = r.inFlight ∧ q.tilesDone = r.tilesDone ∧ q.code = r.code

theorem modRun_denseFrom {u : State} (h : DenseFrom s te r u) {f : TeRun → TeRun} (hflight : ∀ q, (f q).inFlight = q.inFlight)
    (hdone : ∀ q, (f q).tilesDone = q.tilesDone) (hcode : ∀ q, (f q).code = q.code) : DenseFrom s te r (u.modRun te f) := by
  obtain ⟨hmem, q, hcur, hf, hd, hc⟩ := h
  exact ⟨hmem, f q, modRun_cur hcur f, (hflight q).trans hf, (hdone q).trans hd, (hcode q).trans hc⟩

theorem sendDense_denseFrom (hcur : (s.comp.tes.get te).cur = some r) (acc : Accessor) (rows cols : List Nat) (t : Tile) :
    DenseFrom s te r (s.sendDense te acc r rows cols t) := by
  unfold State.sendDense
  refine modRun_denseFrom (List.foldlRecOn _ _ ⟨rfl, r, hcur, rfl, rfl, rfl⟩ fun u hu x _ => ?send) (fun _ => rfl) (fun _ => rfl)
    (fun _ => rfl)
  dsimp only
  split
  · exact hu
  · split
    · rw [DenseFrom, send_mem, send_comp]
      exact hu
    · exact modRun_denseFrom hu (fun _ => rfl) (fun _ => rfl) (fun _ => rfl)

theorem drainTile_dense (hfmt : c.outFmt = 5) :
    s.drainTile te r c t last
      = (s.sendDense te (s.teAcc te r.cmd) r (tileSpan t.tm c.m) (tileSpan t.tn c.n) t).tileDrained te last last t.flags :=
  if_pos hfmt

end

section
variable {s : State} {te : TeId} {cy : Fin 5} {r : TeRun}
  (hcur : (s.comp.tes.get te.val).cur = some r) (hrows : s.rowsRun = false)
include hcur hrows

theorem exec_tileDrainStart {tile : Tile} {rest : List Tile} {e : Nat} (hcode : r.code = none) (hflight : r.inFlight = tile :: rest)
    (hcomplete : tile.complete = some e) (he : e < s.teCycle te.val cy.val)
    (hdrain : (s.comp.tes.get te.val).lastDrain < s.teCycle te.val cy.val) (hbuf : r.quantBuf.length < 2) :
    exec (.tileDrainStart te cy) s = .next (s.drainTile te.val r (parseTe r.record) tile
      (s.teCycle te.val cy.val + (parseTe r.record).drainLen - 1)) := by
  show execTileDrainStart te cy s = _
  rw [execTileDrainStart, heldWait_quiet hrows, withRun_some hcur]
  simp [hcode, hflight, hcomplete, he, hdrain, hbuf]

/-! ### A held tile is written (R165) -/

/-- The run whose oldest held tile is written by cycle `wr`. -/
def quantWritten (ow : List OwnerEnt) (wr : Nat) (r : TeRun) : TeRun :=
  { r with owners := ow, quantBuf := r.quantBuf.drop 1, lastWrite := max r.lastWrite wr }

/-- The elements of a held tile, each at its place with its bits (R154, R165). -/
def quantElems (r : TeRun) (c : TeCmd) (q : QuantTile) : List (List Nat × Nat) :=
  ((tileSpan q.tm c.m).flatMap (fun i => (tileSpan q.tn c.n).map (fun j => [j, i]))).zip
    (q.vals.map (fun v => leVal (stageBytes (((r.chain.bind (fun k => k.stages.getLast?)).map (·.fmt)).getD 6) v)))

theorem exec_quantTileWrite {s1 s2 s3 : State} {q : QuantTile} {qs : List QuantTile} {o : Td} {l l1 : List ByteW} {ow : List OwnerEnt}
    (hcode : r.code = none) (hbuf : r.quantBuf = q :: qs) (hout : r.outTd = some o) (hdue : q.due ≤ s.teCycle te.val cy.val)
    (hplace : s.placeAll (s.teAcc te.val r.cmd) o (quantElems r (parseTe r.record) q) r.owners [] = (.ok l, ow, s1))
    (hscale : s1.placePlain (s.teAcc te.val r.cmd) q.scaleVa (leBytes 4 q.scale) l = (.ok l1, s2))
    (hflush : s2.flushBytes (s.teAcc te.val r.cmd) l1 = (none, s3)) :
    exec (.quantTileWrite te cy) s
      = .next (s3.modRun te.val (quantWritten ow (max (s.teCycle te.val cy.val) (q.due + 127)))) := by
  unfold quantElems at hplace
  show execQuantTileWrite te cy s = _
  rw [execQuantTileWrite, heldWait_quiet hrows, withRun_some hcur]
  simp only [hbuf, hout, hcode, Option.isNone_none, decide_eq_true hdue, Bool.and_self, whenB_true, hplace, hscale, hflush]
  rfl

/-! ### The end of a command (R129, R190) -/

/-- The engine whose command `r` has ended. -/
def teIdle (r : TeRun) (t : Te) : Te :=
  { t with
    cur := none
    satCmds := if r.flags.sat then satTo 65535 (t.satCmds + 1) else t.satCmds
    queue := if r.next = 0 then t.queue.drop 1 else t.queue }

omit hcur hrows in
/-- A status record that is written ends its command without an error. -/
theorem writeStatus_written {s s1 : State} {acc : Accessor} {x : CmdRef} {va : Nat} {bs : List Byte} (hva : va % 16 = 0)
    (hwrite : s.agWriteCode acc va bs = (none, s1)) (fmt : Code) : s.writeStatus acc x va bs fmt = s1.endCmd acc.node x := by
  simp [State.writeStatus, hva, hwrite]

theorem exec_teCommandEnd {s1 : State}
    (hover : r.code.isSome = true ∨ (parseTe r.record).tileCount ≤ r.next ∧ r.inFlight = [] ∧ r.quantBuf = []
      ∧ r.lastWrite < s.teCycle te.val cy.val)
    (hva : (parseTe r.record).statusVa % 16 = 0)
    (hwrite : (s.modTe te.val (teIdle r)).agWriteCode (s.teAcc te.val r.cmd) (parseTe r.record).statusVa
      (teStatus (r.code.getD Code.ok.val) r.flags r.denseDrop r.tilesDone
        (if r.tilesDone = 0 then s.tickOf (te.val / 4) else (s.comp.tes.get te.val).lastDrain / 5 % 2 ^ 64)) = (none, s1)) :
    exec (.teCommandEnd te cy) s = .next (s1.endCmd (teNode te.val) r.cmd) := by
  have hdone : (r.code.isSome || (decide ((parseTe r.record).tileCount ≤ r.next) && r.inFlight.isEmpty && r.quantBuf.isEmpty
      && decide (r.lastWrite < s.teCycle te.val cy.val))) = true := by
    obtain hfail | ⟨hnext, hflight, hbuf, hlast⟩ := hover
    · rw [hfail, Bool.true_or]
    · simp [hnext, hflight, hbuf, hlast]
  show execTeCommandEnd te cy s = _
  rw [execTeCommandEnd, heldWait_quiet hrows, withRun_some hcur]
  dsimp only
  rw [hdone, whenB_true]
  exact congrArg _ (writeStatus_written hva hwrite _)

end

/-! ### The statement -/

/-- Settles O20: each command by its equation; a dense tile by what every send of a value keeps. -/
theorem tensorTilesRun : Obligations.TensorTilesRun := by
  unfold Obligations.TensorTilesRun
  refine ⟨fun s te cy r => ?begin, fun s te cy r => ?drain, fun s s1 te cy r => ?finish, fun s node x => ?counts⟩
  case begin =>
    intro k c now hcur hrows
    refine ⟨fun s1 s2 s3 a b as_ bs fl ow ow1 ow2 ps params hcode hop hnext hfree hstream ha hb hoperands hpreloads hparams hcur3 =>
      ?streams, fun tile rest hflight hnot hdue hplaces => ?completes⟩
    case streams =>
      have hstep := exec_tileStreamStart hcur hrows hcode hop hnext hfree hstream
      rw [streamTile_begins ha hb hoperands hpreloads hparams] at hstep
      refine ⟨_, tileBegun ow2 (formedTile c _ _ now ps _ params fl) r, _, hstep, ?_, rfl, rfl, rfl, rfl, rfl, rfl, rfl, rfl, ?_, rfl⟩
      · rw [modTe_get]
        exact modRun_cur hcur3 _
      · rw [modTe_get]
        rfl
    case completes =>
      have hflight1 : completeAt now tile r.inFlight = { tile with complete := some now } :: rest := by
        rw [hflight, completeAt_head now tile hplaces]
      rw [exec_tileComplete hcur hflight hnot hdue, modRun_running hcur, hflight1]
  case drain =>
    intro k c acc now hcur hcode hrows
    refine ⟨fun tile rest e o l l1 ow s1 s2 s3 hflight hcomplete he hdrain hbuf => ?drains,
      fun q qs o l l1 ow s1 s2 s3 hbuf hout hdue hplace hscale hflush hcur3 => ?held⟩
    case drains =>
      intro rows cols last out
      have hexec := exec_tileDrainStart hcur hrows hcode hflight hcomplete he hdrain hbuf
      have hrest : r.inFlight.drop 1 = rest := congrArg (List.drop 1) hflight
      refine ⟨fun hfmt hout hplace hplain hflush hcur3 => ?writes, fun hfmt => ?dense⟩
      case writes =>
        rw [drainTile_writes hfmt hout hplace hplain hflush] at hexec
        exact ⟨_, _, hexec, tileDrained_cur (modRun_cur hcur3 _) .., hrest, rfl, hcode, rfl, rfl, tileDrained_lastDrain .., rfl⟩
      case dense =>
        obtain ⟨hmem, q, hcurq, hflightq, hdone, hcodeq⟩ := sendDense_denseFrom hcur acc rows cols tile
        rw [drainTile_dense hfmt] at hexec
        exact ⟨_, _, hexec, tileDrained_cur hcurq .., (congrArg (List.drop 1) hflightq).trans hrest, congrArg (· + 1) hdone,
          hcodeq.trans hcode, tileDrained_lastDrain .., (tileDrained_mem ..).trans hmem⟩
    case held =>
      have hexec := exec_quantTileWrite hcur hrows hcode hbuf hout hdue hplace hscale hflush
      exact ⟨_, _, hexec, modRun_cur hcur3 _, congrArg (List.drop 1) hbuf, rfl, rfl⟩
  case finish =>
    intro k c k1 idle hcur hrows hover hva hwrite
    exact exec_teCommandEnd hcur hrows hover hva hwrite
  case counts => exact ⟨endCmd_none s node, fun f => endCmd_notify s node⟩

end Sys2Proof.TensorTiles
end
